-- ==== Sys2Proof/Word.lean ====
section
/-! DEFINITION. The word types of the module and their plainest arithmetic. -/
namespace Sys2Proof

/-- One byte. -/
abbrev Byte := BitVec 8
/-- A register word and an Elvon instruction word (R454, R591). -/
abbrev Word32 := BitVec 32
/-- An Elvon general register (R429). -/
abbrev Word64 := BitVec 64
/-- A physical address (R586). -/
abbrev Addr := BitVec 40

/-- Bit `i` of `n`. -/
def bitOf (n i : Nat) : Bool := n.testBit i

/-- The `w` bits of `n` from bit `lsb` upwards. -/
def bitsOf (n lsb w : Nat) : Nat := n / 2 ^ lsb % 2 ^ w

/-- 1 for true, 0 for false. -/
def b2n (b : Bool) : Nat := if b then 1 else 0

/-- `n` read as a two's-complement number of `w` bits. -/
def signedOf (w n : Nat) : Int :=
  if n % 2 ^ w < 2 ^ (w - 1) then (n % 2 ^ w : Nat) else (n % 2 ^ w : Nat) - (2 ^ w : Nat)

/-- The two's-complement code of `i` in `w` bits. -/
def codeOf (w : Nat) (i : Int) : Nat := (i % (2 ^ w : Nat)).toNat

/-- The number of ones in the low `w` bits of `n`. -/
def onesIn : Nat → Nat → Nat
  | 0, _ => 0
  | w + 1, n => n % 2 + onesIn w (n / 2)

end Sys2Proof
end

