-- ==== Sys2Proof/Operand.lean ====
section
/-! DEFINITION. The operand types of the commands, and the syntax of the Elvon instructions. -/
namespace Sys2Proof

/-- Who makes an access (R10, R573): a service thread, in vendor mode when it is one of t0-t3 of its core (R432), or the
debug port with or without VENDOR in its scope. -/
inductive Who where
  | thread (t : Fin 64)
  | debug (vendor : Bool)
  deriving DecidableEq, Repr

/-- The access is made in vendor mode (R432, R593). -/
def Who.vendor : Who → Bool
  | .thread t => decide (t.val % 16 < 4)
  | .debug v => v

/-- A general register number (R454). -/
abbrev Reg := Fin 32

/-- The ALU functions (R457). -/
inductive AluFn where
  | add | sub | and | or | xor | sll | srl | sra | slt | sltu | mul | mulhu | min | minu | bswap | popc
  deriving DecidableEq, Repr

/-- The immediate operations with a plain IMM16 (R456). -/
inductive ImmFn where
  | addi | andi | ori | xori | lhi | slti
  deriving DecidableEq, Repr

/-- The shifts of SHIFTI (R456). -/
inductive ShFn where
  | sll | srl | sra
  deriving DecidableEq, Repr

/-- The branch comparisons (R456). -/
inductive BrFn where
  | eq | ne | lt | ge | ltu | geu
  deriving DecidableEq, Repr

/-- The atomic operations (R460). -/
inductive AtFn where
  | add | and | or | xor | swap | cas
  deriving DecidableEq, Repr

/-- The long instructions (R462). -/
inductive LongFn where
  | bcopy | bfill | crc32c | hash | tsearch
  deriving DecidableEq, Repr

/-- The channel or port operand of format C: NUM when IND is 0, else the low 10 bits of a register (R455). -/
structure CNum where
  ind : Bool
  rn : Reg
  num : BitVec 10
  deriving DecidableEq, Repr

/-- An Elvon instruction (R455-R462).  `width` is in bytes. -/
inductive Elv where
  | alu (f : AluFn) (rd ra rb : Reg)
  | imm (f : ImmFn) (rd ra : Reg) (i : BitVec 16)
  | shifti (f : ShFn) (rd ra : Reg) (amount : BitVec 6)
  | lui (rd : Reg) (i : BitVec 16)
  | load (width : Nat) (signed : Bool) (rd ra : Reg) (i : BitVec 16)
  | store (width : Nat) (rs ra : Reg) (i : BitVec 16)
  | branch (f : BrFn) (ra rb : Reg) (off : BitVec 16)
  | jal (rd : Reg) (off : BitVec 21)
  | jalr (rd ra : Reg) (i : BitVec 16)
  | atomic (f : AtFn) (word : Bool) (rd ra rb : Reg)
  | chin (rd re : Reg) (n : CNum)
  | chout (rd : Reg) (n : CNum)
  | chend (n : CNum)
  | pin (rd re : Reg) (n : CNum)
  | pout (rd : Reg) (n : CNum)
  | long (f : LongFn) (ra rb rc rd : Reg)
  | await
  | fence (mask : BitVec 3)
  | trap (i : BitVec 12)
  | sleep (ra : Reg)
  | self (rd : Reg)
  /-- the POUTs of one whole multi-word command or request on port `port`, from the registers that hold `words` (R443) -/
  | poutAll (port : Nat) (words : List Word64)
  /-- a word that is no instruction (R455) -/
  | reserved (w : Word32)
  deriving DecidableEq, Repr

/-- What MKA writes through the key window of a port (R151): a transmit SA in use, a receive SA with its SC, or their removal.
The layout of the window is not given. -/
inductive SaOp where
  | tx (an : Fin 4) (key salt : List Byte) (ssci pn : Nat)
  | txOff
  | rx (sci : BitVec 64) (an : Fin 4) (key salt : List Byte) (ssci lowest : Nat)
  | rxOff (sci : BitVec 64) (an : Fin 4)
  deriving DecidableEq, Repr

end Sys2Proof
end

