-- ==== Sys2Proof/Syntax.lean ====
section
/-! DEFINITION. The commands of the module: one constructor for each row of spec/opcode_table.json, rows without
operands behind those with operands.  Each docstring is the row's summary and its rule. -/
namespace Sys2Proof

/-- A command.  A command whose trigger does not hold changes nothing (log entry 1). -/
inductive Instr where
  /-- A write to a register that has no row of its own acts on each field according to its access code, including DL lock and the -V owner-mode rules (R8). -/
  | registerWrite (who : Who) (a : BitVec 32) (v : BitVec 32)
  /-- An access to a register-range address that holds no register reads 0 or has no effect, and counts in UNMAPPED with its address recorded (R591); `v` the value of a write, none for a read. -/
  | unmappedAccess (who : Who) (a : BitVec 32) (v : Option (BitVec 32))
  /-- An access to a domain that is OFF or SWITCHING reads 0xDEAD_0FF0 or has no effect, raises F036 and records the address (R564); `v` the value of a write, none for a read. -/
  | offDomainAccess (who : Who) (a : BitVec 32) (v : Option (BitVec 32))
  /-- A read of the low word of a 64-bit counter captures its high word for the following read (R44). -/
  | counterLowRead (who : Who) (a : BitVec 32)
  /-- Every 10 us the regulator samples VIN and input current to update the averaged input power (R548); VIN and HOLD in mV, the input current in mA. -/
  | powerSample (vin : BitVec 16) (iin : BitVec 16) (hold : BitVec 16)
  /-- Every 100 us the nine junction sensors are read, which sets the thermal ceiling and the junction fault conditions (R548); the nine readings in tenths of a degree Celsius. -/
  | junctionSample (sensors : List Int)
  /-- A converter rail other than VCORE and VAON outside its window for 50 us raises F043 (R553); `rails` those that lie outside, in the order of R553 without VCORE and VAON; none when all are back. -/
  | railOutOfWindow (rails : BitVec 8)
  /-- A debounced change of THERM_ALERT_N updates STATUS.ALERT and the level source F042 (R555). -/
  | thermAlertChange (asserted : Bool)
  /-- TAMPER_N below 0.3 V for 1 us is a tamper, which raises F028 and zeroises the key store (R130); `low` false when the pin has risen again. -/
  | tamperNAssert (low : Bool)
  /-- At t0 + 5 ms the Dealer checks its ROM and OTP, self-tests the collector and then starts the Deck, DRAM and memory steps (R47); what the checks of steps 1 to 3 find; `junction` in tenths of a degree Celsius; `bandOk`: the delay record of its band is valid. -/
  | dealerStart (romOk : Bool) (otpOk : Bool) (idOk : Bool) (selfTestOk : Bool) (keysOk : Bool) (deckPresent : Bool) (junction : Int) (bandOk : Bool)
  /-- A 4,096-byte Deck READ frame completes and is CRC-checked, with one re-read on failure (R70); `page` the Deck address / 4,096. -/
  | deckReadFrame (page : Nat) (data : List Byte) (crc : BitVec 32)
  /-- DRAM initialisation with the delays of the measured band completes, which lets the bucket clear and image staging begin (R47). -/
  | dramInitComplete (ok : Bool)
  /-- The self-test of the on-die memories completes, or the Deal fails with MEMTEST (R47). -/
  | memtestComplete (ok : Bool)
  /-- The 2 GiB bucket area has been cleared (R47). -/
  | bucketClearComplete (ok : Bool)
  /-- The GCM tag, signature, chain and format checks of the staged image end with its result code (R81); `fuseFail` the stage at which the fusing of a claim fails (1 OWNER_HASH, 2 FLEET_KEY, 3 CLAIMED), 0 where it does not. -/
  | signatureCheckComplete (fuseFail : Fin 4)
  /-- A Deck PROGRAM of one page completes and its ERROR status is read (R69). -/
  | deckProgramComplete (err : Bool)
  /-- A Deck ERASE of one 64 KiB block completes and its ERROR status is read (R69). -/
  | deckEraseComplete (err : Bool)
  /-- A received frame's head, at byte 388 or after the checks of a shorter frame, is written to its source FIFO or shed (R142). -/
  | headEnterFifo (p : Fin 48) (ago : Nat) (bytes : List Byte)
  /-- A frame's last byte arrives and the MAC checks reject it, complete its deferred comparisons, or finish it (R141). -/
  | frameEndReceived (p : Fin 48) (err : Fin 3) (ago : Nat) (rest : List Byte)
  /-- A link fault on the lane starts the hold-down timer and cuts any frame in transmission into DISC_STALL (R156). -/
  | linkFaultDetect (p : Fin 48) (reason : Fin 12)
  /-- After HOLD_DOWN without a break the link is declared down and its queued frames are discarded into DISC_PORT_DOWN (R156). -/
  | linkDownDeclare (p : Fin 48)
  /-- After a fault-free HOLD_UP interval the link is declared up and its event raised (R156). -/
  | linkUpDeclare (p : Fin 48) (phy : Fin 3)
  /-- A write of 0 to PORT CTRL.EN stops intake and starts the drain of the quiesce protocol (R159). -/
  | portDisable (who : Who) (p : Fin 48)
  /-- A write of 1 to PORT CTRL.EN re-enables the port after its quiesce, with the link declared up only under R156 (R160). -/
  | portEnable (who : Who) (p : Fin 48)
  /-- DRAIN_TO expiring discards the remaining frames into DISC_PORT_DOWN and sets DRAIN_TIMEOUT_SEEN (R159). -/
  | portDrainTimeout (p : Fin 48)
  /-- With its queues drained, the port sends idle, squelches, sets QUIESCED and raises its event (R159). -/
  | portQuiesced (p : Fin 48)
  /-- The pipeline takes the next head by weighted round robin, parses it, runs the lookups and issues the flow lookup (R34). -/
  | pipelineTakeHead (p : Fin 4)
  /-- The bucket and record reads of a flow lookup complete and yield a hit, a retry, an insert or an error (R245); `x` the frame. -/
  | flowDramReadComplete (x : Nat)
  /-- A lookup that missed while its bucket was in motion is retried once after the move completes (R250); `x` the frame. -/
  | flowLookupRetry (x : Nat)
  /-- A head still in the flow stage at DEADLINE ends its lookup with UNSERVED (R247); `x` the frame. -/
  | flowDeadline (x : Nat)
  /-- A head leaves the flow stage in order and goes through action resolution, policing and admission (R247). -/
  | flowStageExit (p : Fin 4)
  /-- When a pool buffer is available, an exception frame is copied and its descriptor presented on the exception port (R22); `rd` and `k` as for FRAME_TRANSMIT_START. -/
  | exceptionCopy (q : Fin 16) (rd : Fin 3) (k : Nat)
  /-- In the background the oldest stash entry is placed into a bucket, relocating slots as needed (R249). -/
  | flowPlace (x : Fin 4)
  /-- A slice refills its free-index queue from the allocation bitmap (R249). -/
  | freeIndexRefill (x : Fin 4)
  /-- A dirty cached record is written back to DRAM on eviction, expiry or quiesce (R252). -/
  | flowCacheWriteback (x : Fin 4) (set : Fin 4096) (way : Fin 8)
  /-- Clearing a CACHE_EN bit quiesces that cache half, writing back its dirty records (R253). -/
  | flowCacheHalfDisable (who : Who) (h : Fin 2)
  /-- Clearing a SLICE_EN bit ends later lookups with SLICE_OFF and expires every record of the slice (R255). -/
  | flowSliceDisable (who : Who) (x : Fin 4)
  /-- Setting a SLICE_EN bit clears the slice's buckets and rebuilds its bitmap quarter (R255). -/
  | flowSliceEnable (who : Who) (x : Fin 4)
  /-- The sweeper visits the next bucket and schedules expiry of records past their timeout (R256); `flush`: a bucket of the extra pass. -/
  | sweeperVisit (x : Fin 4) (flush : Bool)
  /-- At its turn on the bucket an expiry re-tests the record and clears, exports and frees it (R257). -/
  | flowExpiry (r : BitVec 27)
  /-- A write of KILL.GO expires the named record with reason COMMAND (R260). -/
  | flowKill (who : Who) (r : BitVec 27)
  /-- A write of FLUSH.GO runs an extra sweeper pass that expires a profile's records, or all records (R260). -/
  | flowFlush (who : Who) (all : Bool) (p : Fin 16)
  /-- A read of PEEK_0 takes the whole record named by PEEK_INDEX at one instant (R262). -/
  | flowPeekRead (who : Who)
  /-- A free ready slot makes the traffic manager select a copy, age it, charge the shapers and stage it for editing (R338). -/
  | tmSelect (p : Fin 56)
  /-- With the wire free, the island starts a staged frame only if it fits before the gate's next close (R346); `rd` 1 a re-read of cell `k` succeeded, 2 it failed persistently. -/
  | frameTransmitStart (p : Fin 48) (sfd : Nat) (rd : Fin 3) (k : Nat)
  /-- A frame's last byte leaves with its FCS, and its cell references are released (R144). -/
  | frameTransmitEnd (p : Fin 48)
  /-- Every 100 us the head copies of port 57 and of non-UP links are tested for ageing (R321). -/
  | headAgeTest (p : Fin 58)
  /-- Port 57 serves a frame back into its pipeline's recirculation FIFO within the 50 Gb/s share (R303). -/
  | recircServe (n : Fin 4) (rd : Fin 4) (k : Nat)
  /-- An oper gate list moves to its next entry or cycle, changing gate states at the pins (R343). -/
  | gateEntryChange (p : Fin 56)
  /-- At the change time the admin list becomes oper, PENDING clears and the port event is raised (R344). -/
  | gateListSwap (p : Fin 56)
  /-- After a gate-time step the gate lists restart with entry 0 at the next cycle boundary (R181). -/
  | gateRestart (p : Fin 56)
  /-- GATE_CMD.ARM checks the admin list and fixes its change time, or sets LIST_ERROR (R344). -/
  | gateArm (who : Who) (p : Fin 56)
  /-- GATE_CMD.CANCEL clears a pending admin change (R345). -/
  | gateCancel (who : Who) (p : Fin 56)
  /-- A GATE_CMD write with ARM and CANCEL cancels any pending change and then arms again (R626). -/
  | gateArmCancel (who : Who) (p : Fin 56)
  /-- A stream-gate list moves to its next entry, restarting that entry's octet count (R351). -/
  | streamGateEntry (l : Fin 256)
  /-- A write of SF_UNBLOCK.GO unblocks the named stream filter (R350). -/
  | sfUnblock (who : Who) (n : Fin 16384)
  /-- A write of METER_CLEAR_RED.GO clears the meter's MARK_ALL_RED state (R357). -/
  | meterClearRed (who : Who) (n : Fin 16384)
  /-- A write of FRER_RESET.GO sets take_any for the named stream (R298). -/
  | frerReset (who : Who) (n : Fin 4096)
  /-- Every 2 us each pipeline's capacity and demand are updated from its metronomes (R29); `pred` the sixteen predictions in Mtok/s, metronome k of Pn at 4n + k, `svc` the issue capacity of each core. -/
  | metronomeUpdate (pred : List Nat) (svc : List Nat)
  /-- VCORE outside 0.60-0.87 V for more than 50 us raises F035 (R43); `mv` the measured VCORE. -/
  | vcoreRangeFault (mv : Nat)
  /-- A missing or off-frequency reference loses lock, enters holdover and raises F257 (R166); `trim` the disciplined value in force at the loss. -/
  | refLockLoss (trim : BitVec 24)
  /-- A write of OSC_TRIM changes the TCXO frequency at the next TCXO period (R624). -/
  | oscTrimWrite (who : Who) (v : BitVec 24)
  /-- A write of an instance RATE, clamped to its limits, changes its rate at the next TCXO period (R169). -/
  | rateWrite (who : Who) (x : Fin 4) (v : BitVec 32)
  /-- CMD 1 loads SET_SEC and SET_NS into the instance as a step (R170). -/
  | instSet (who : Who) (x : Fin 4)
  /-- CMD 2 adds OFFSET to the instance as a step (R170). -/
  | instAddOffset (who : Who) (x : Fin 4)
  /-- A write of CAPTURE.GO latches all four instances into the snapshot registers at one TCXO period (R172). -/
  | captureGo (who : Who)
  /-- A write of ETS_POP discards the presented timestamp entry and presents the next (R175). -/
  | etsPop (who : Who)
  /-- A WRITE command writes a table row at INDEX and commits (R625); thread `t` writes the whole command `words` to Uu. -/
  | uportWrite (t : Fin 64) (u : Fin 8) (words : List Word64)
  /-- A CLEAR command invalidates a table row at INDEX and commits (R228). -/
  | uportClear (t : Fin 64) (u : Fin 8) (words : List Word64)
  /-- An INSERT command places a MAC or LPM row by key, moving LPM entries as needed (R224). -/
  | uportInsert (t : Fin 64) (u : Fin 8) (words : List Word64)
  /-- A DELETE command removes the entry with an equal key, or returns NOT_FOUND (R228). -/
  | uportDelete (t : Fin 64) (u : Fin 8) (words : List Word64)
  /-- A READ command returns the row in its completion without committing (R228). -/
  | uportRead (t : Fin 64) (u : Fin 8) (words : List Word64)
  /-- A SWAP command makes the named rule bank active, and the old bank drains (R232). -/
  | uportSwap (t : Fin 64) (u : Fin 8) (words : List Word64)
  /-- A FLUSH command removes the dynamic MAC entries that match its selected fields (R228). -/
  | uportFlush (t : Fin 64) (u : Fin 8) (words : List Word64)
  /-- A BANK_CLEAR command invalidates every row of the named bank (R228). -/
  | uportBankClear (t : Fin 64) (u : Fin 8) (words : List Word64)
  /-- When the commit markers have passed all four pipelines, the completion becomes readable and its event raised (R230). -/
  | uportCompletionReady (u : Fin 8)
  /-- A write of RULESET_ACTIVE.BANK is taken as a SWAP, or ignored for an empty or powered-off bank (R232). -/
  | rulesetActiveWrite (who : Who) (bank : Fin 4)
  /-- A bank DRAINING longer than DRAIN_LIMIT sets DRAIN_LIMIT_SEEN and raises F193 (R233). -/
  | bankDrainLimit (k : Fin 4)
  /-- A TEST_REQ write naming a bank queues a bank test, merges with one, or is refused (R326). -/
  | bankTestRequest (who : Who) (b : Fin 32)
  /-- A TEST_REQ with ALL runs a whole-buffer test in Fold or maintenance, or is refused (R329). -/
  | wholeBufferTest (who : Who)
  /-- A received block is checked for CRC, type, tag and sequence, and is accepted and unpacked or discarded (R365); `block` the 512 bytes that arrive on link `n`. -/
  | nelyanBlockReceive (n : Fin 8) (block : List Byte)
  /-- The controller seals and sends the next DATA, CONTROL or re-sent block under credit and window (R363); `rd` and `k` as for FRAME_TRANSMIT_START. -/
  | nelyanBlockSend (n : Fin 8) (rd : Fin 3) (k : Nat)
  /-- The oldest unacknowledged block waiting ACK_TO triggers a go-back-N re-send (R367). -/
  | nelyanAckTimeout (n : Fin 8)
  /-- Block lock on a DOWN link starts the handshake (R377). -/
  | nelyanLockAcquire (n : Fin 8)
  /-- Lock lost, or nothing verified for STOP_TO, puts an UP link into STOPPED (R377); `lost`: lock is lost. -/
  | nelyanStop (n : Fin 8) (lost : Bool)
  /-- A stop lasting DOWN_TO ends the session with cause DOWN_TIMEOUT (R379). -/
  | nelyanDownTimeout (n : Fin 8)
  /-- HELLO is sent again every 1 ms until the peer's HELLO arrives (R374). -/
  | helloRetry (n : Fin 8)
  /-- A complete HELLO, AUTH or REFUSE message advances the seat handshake, refuses the peer, or brings the link UP (R374); `rtt` the round trip in ns that the HELLO exchange measured. -/
  | handshakeMessage (n : Fin 8) (rtt : BitVec 24)
  /-- A handshake not UP within 100 ms starts again (R374). -/
  | handshakeTimeout (n : Fin 8)
  /-- A refused link tries the handshake again after 10 s (R375). -/
  | refusedRetry (n : Fin 8)
  /-- A direction key reaching 2^29 blocks or 3,600 s starts a REKEY exchange (R376). -/
  | rekeyStart (n : Fin 8)
  /-- A reorder guard reaching GUARD_TO ends and its held copies are released (R383); `d` the seat of the guard. -/
  | guardTimeout (d : Fin 1024)
  /-- A write of a seat route entry changes the seat's links and starts its guard when the link changes (R382). -/
  | rtEntryWrite (who : Who) (v : BitVec 32)
  /-- A write of 0 to NLINK CTRL.EN stops intake and lets sent blocks be acknowledged (R386). -/
  | nlinkDisable (who : Who) (n : Fin 8)
  /-- Once sent blocks are acknowledged or 2 x ACK_TO passes, the session ends DISABLED and the link is QUIESCED (R386). -/
  | nlinkDisableComplete (n : Fin 8)
  /-- A write of 1 to NLINK CTRL.EN moves the link from OFF to DOWN (R377). -/
  | nlinkEnable (who : Who) (n : Fin 8)
  /-- A detector sets a fault source's sticky bit, with the effects of its class (R407); `present` for a level source; `aux` the row, way, word, line or port that failed. -/
  | faultSourceDetect (src : Fin 320) (present : Bool) (aux : Nat)
  /-- A handled source's countdown expiring with its bit still set escalates to Fold or a service-complex restart (R414). -/
  | countdownExpiry (src : Fin 320)
  /-- A write of 1 to a STICKY bit clears it and stops its countdown, or is refused for a present level source (R408). -/
  | stickyClear (who : Who) (k : Fin 10) (v : BitVec 32)
  /-- A vendor write to INJECT sets a sticky bit as an event (R428). -/
  | faultInject (who : Who) (k : Fin 10) (v : BitVec 32)
  /-- A write of FOLD_REQ.GO raises F006 and enters Fold (R416). -/
  | foldReq (who : Who)
  /-- A write of FOLD_EXIT.GO in Fold leaves Fold within 1 ms, or is refused with a reason (R424). -/
  | foldExit (who : Who)
  /-- The FAULT_N read-back differing for 10 us raises F005 (R422). -/
  | faultNMismatch (present : Bool)
  /-- A bypass read-back differing for 100 us raises F004 and counts BYP_MISMATCH (R423). -/
  | bypassMismatch (present : Bool)
  /-- A write of FAULT.CTRL changes the maintenance bypass and the FAULT_N software level (R423). -/
  | bypForceWrite (who : Who) (v : BitVec 32)
  /-- ALU ADD writes ra + rb to rd (R457); ALU. -/
  | add (t : Fin 64) (rd : Reg) (ra : Reg) (rb : Reg)
  /-- ALU SUB writes ra - rb to rd (R457); ALU. -/
  | sub (t : Fin 64) (rd : Reg) (ra : Reg) (rb : Reg)
  /-- ALU AND writes ra AND rb to rd (R457); ALU. -/
  | and (t : Fin 64) (rd : Reg) (ra : Reg) (rb : Reg)
  /-- ALU OR writes ra OR rb to rd (R457); ALU. -/
  | or (t : Fin 64) (rd : Reg) (ra : Reg) (rb : Reg)
  /-- ALU XOR writes ra XOR rb to rd (R457); ALU. -/
  | xor (t : Fin 64) (rd : Reg) (ra : Reg) (rb : Reg)
  /-- ALU SLL shifts ra left by rb[5:0] (R457); ALU. -/
  | sll (t : Fin 64) (rd : Reg) (ra : Reg) (rb : Reg)
  /-- ALU SRL shifts ra right logically by rb[5:0] (R457); ALU. -/
  | srl (t : Fin 64) (rd : Reg) (ra : Reg) (rb : Reg)
  /-- ALU SRA shifts ra right arithmetically by rb[5:0] (R457); ALU. -/
  | sra (t : Fin 64) (rd : Reg) (ra : Reg) (rb : Reg)
  /-- ALU SLT writes 1 when ra < rb signed (R457); ALU. -/
  | slt (t : Fin 64) (rd : Reg) (ra : Reg) (rb : Reg)
  /-- ALU SLTU writes 1 when ra < rb unsigned (R457); ALU. -/
  | sltu (t : Fin 64) (rd : Reg) (ra : Reg) (rb : Reg)
  /-- ALU MUL writes the low 64 bits of the product (R457); ALU. -/
  | mul (t : Fin 64) (rd : Reg) (ra : Reg) (rb : Reg)
  /-- ALU MULHU writes the high 64 bits of the unsigned product (R457); ALU. -/
  | mulhu (t : Fin 64) (rd : Reg) (ra : Reg) (rb : Reg)
  /-- ALU MIN writes the signed minimum (R457); ALU. -/
  | min (t : Fin 64) (rd : Reg) (ra : Reg) (rb : Reg)
  /-- ALU MINU writes the unsigned minimum (R457); ALU. -/
  | minu (t : Fin 64) (rd : Reg) (ra : Reg) (rb : Reg)
  /-- ALU BSWAP writes ra byte-reversed (R457); ALU; its rb field is 0. -/
  | bswap (t : Fin 64) (rd : Reg) (ra : Reg)
  /-- ALU POPC writes the population count of ra (R457); ALU; its rb field is 0. -/
  | popc (t : Fin 64) (rd : Reg) (ra : Reg)
  /-- ADDI writes ra + sext(IMM16) to rd (R456). -/
  | addi (t : Fin 64) (rd : Reg) (ra : Reg) (imm : BitVec 16)
  /-- ANDI writes ra AND zext(IMM16) (R456). -/
  | andi (t : Fin 64) (rd : Reg) (ra : Reg) (imm : BitVec 16)
  /-- ORI writes ra OR zext(IMM16) (R456). -/
  | ori (t : Fin 64) (rd : Reg) (ra : Reg) (imm : BitVec 16)
  /-- XORI writes ra XOR zext(IMM16) (R456). -/
  | xori (t : Fin 64) (rd : Reg) (ra : Reg) (imm : BitVec 16)
  /-- SHIFTI with code 0 shifts ra left by the immediate amount (R456). -/
  | shiftiSll (t : Fin 64) (rd : Reg) (ra : Reg) (amount : BitVec 6)
  /-- SHIFTI with code 1 shifts ra right logically by the immediate amount (R456). -/
  | shiftiSrl (t : Fin 64) (rd : Reg) (ra : Reg) (amount : BitVec 6)
  /-- SHIFTI with code 2 shifts ra right arithmetically by the immediate amount (R456). -/
  | shiftiSra (t : Fin 64) (rd : Reg) (ra : Reg) (amount : BitVec 6)
  /-- LUI writes sext(IMM16) x 2^16 to rd (R456). -/
  | lui (t : Fin 64) (rd : Reg) (imm : BitVec 16)
  /-- LHI sets the high word of rd from IMM16 and keeps the low word of ra (R456). -/
  | lhi (t : Fin 64) (rd : Reg) (ra : Reg) (imm : BitVec 16)
  /-- SLTI writes 1 when ra < sext(IMM16) signed (R456). -/
  | slti (t : Fin 64) (rd : Reg) (ra : Reg) (imm : BitVec 16)
  /-- LB loads 8 bits sign-extended (R456). -/
  | lb (t : Fin 64) (rd : Reg) (ra : Reg) (imm : BitVec 16)
  /-- LH loads 16 bits sign-extended (R456). -/
  | lh (t : Fin 64) (rd : Reg) (ra : Reg) (imm : BitVec 16)
  /-- LW loads 32 bits sign-extended (R456). -/
  | lw (t : Fin 64) (rd : Reg) (ra : Reg) (imm : BitVec 16)
  /-- LD loads 64 bits (R456). -/
  | ld (t : Fin 64) (rd : Reg) (ra : Reg) (imm : BitVec 16)
  /-- LBU loads 8 bits zero-extended (R456). -/
  | lbu (t : Fin 64) (rd : Reg) (ra : Reg) (imm : BitVec 16)
  /-- LHU loads 16 bits zero-extended (R456). -/
  | lhu (t : Fin 64) (rd : Reg) (ra : Reg) (imm : BitVec 16)
  /-- LWU loads 32 bits zero-extended (R456). -/
  | lwu (t : Fin 64) (rd : Reg) (ra : Reg) (imm : BitVec 16)
  /-- SB stores the low 8 bits of rs (R456). -/
  | sb (t : Fin 64) (rs : Reg) (ra : Reg) (imm : BitVec 16)
  /-- SH stores the low 16 bits of rs (R456). -/
  | sh (t : Fin 64) (rs : Reg) (ra : Reg) (imm : BitVec 16)
  /-- SW stores the low 32 bits of rs (R456). -/
  | sw (t : Fin 64) (rs : Reg) (ra : Reg) (imm : BitVec 16)
  /-- SD stores 64 bits of rs (R456). -/
  | sd (t : Fin 64) (rs : Reg) (ra : Reg) (imm : BitVec 16)
  /-- BEQ branches when ra equals rb (R456). -/
  | beq (t : Fin 64) (ra : Reg) (rb : Reg) (off : BitVec 16)
  /-- BNE branches when ra differs from rb (R456). -/
  | bne (t : Fin 64) (ra : Reg) (rb : Reg) (off : BitVec 16)
  /-- BLT branches when ra < rb signed (R456). -/
  | blt (t : Fin 64) (ra : Reg) (rb : Reg) (off : BitVec 16)
  /-- BGE branches when ra >= rb signed (R456). -/
  | bge (t : Fin 64) (ra : Reg) (rb : Reg) (off : BitVec 16)
  /-- BLTU branches when ra < rb unsigned (R456). -/
  | bltu (t : Fin 64) (ra : Reg) (rb : Reg) (off : BitVec 16)
  /-- BGEU branches when ra >= rb unsigned (R456). -/
  | bgeu (t : Fin 64) (ra : Reg) (rb : Reg) (off : BitVec 16)
  /-- JAL links PC + 4 and jumps by OFF21 (R456). -/
  | jal (t : Fin 64) (rd : Reg) (off : BitVec 21)
  /-- JALR links PC + 4 and jumps to ra + sext(IMM16) (R456). -/
  | jalr (t : Fin 64) (rd : Reg) (ra : Reg) (imm : BitVec 16)
  /-- Atomic AADD adds rb to SRAM and returns the old value (R460); `word`: the 32-bit width. -/
  | aadd (t : Fin 64) (word : Bool) (rd : Reg) (ra : Reg) (rb : Reg)
  /-- Atomic AAND ANDs rb into SRAM and returns the old value (R460); `word`: the 32-bit width. -/
  | aand (t : Fin 64) (word : Bool) (rd : Reg) (ra : Reg) (rb : Reg)
  /-- Atomic AOR ORs rb into SRAM and returns the old value (R460); `word`: the 32-bit width. -/
  | aor (t : Fin 64) (word : Bool) (rd : Reg) (ra : Reg) (rb : Reg)
  /-- Atomic AXOR XORs rb into SRAM and returns the old value (R460); `word`: the 32-bit width. -/
  | axor (t : Fin 64) (word : Bool) (rd : Reg) (ra : Reg) (rb : Reg)
  /-- Atomic ASWAP writes rb to SRAM and returns the old value (R460); `word`: the 32-bit width. -/
  | aswap (t : Fin 64) (word : Bool) (rd : Reg) (ra : Reg) (rb : Reg)
  /-- Atomic ACAS writes rb when the old value equals rd and returns the old value (R460); `word`: the 32-bit width. -/
  | acas (t : Fin 64) (word : Bool) (rd : Reg) (ra : Reg) (rb : Reg)
  /-- CHIN returns the next word of an owned complete message, blocking until one stands at the head (R439). -/
  | chin (t : Fin 64) (rd : Reg) (re : Reg) (n : CNum)
  /-- CHOUT writes the next word of the thread's message, blocking while the channel is owned or full (R437). -/
  | chout (t : Fin 64) (rd : Reg) (n : CNum)
  /-- CHEND closes the written message, or releases the read message and discards its unread words (R437). -/
  | chend (t : Fin 64) (n : CNum)
  /-- PIN on an exception queue port returns the next descriptor and passes its buffer to the reader (R444). -/
  | exceptionPin (t : Fin 64) (rd : Reg) (re : Reg) (n : CNum)
  /-- POUT on port 16 requests a pool buffer, which is granted, refused or left waiting (R539). -/
  | poolTake (t : Fin 64) (rd : Reg) (n : CNum)
  /-- PIN on port 16 returns the take result, blocking while a waiting take is unserved (R539). -/
  | poolTakeResult (t : Fin 64) (rd : Reg) (re : Reg) (n : CNum)
  /-- POUT on port 17 frees a buffer, counts a double free, or traps, and serves waiting takes (R540). -/
  | poolGive (t : Fin 64) (rd : Reg) (n : CNum)
  /-- POUT on a timer port arms the timer, one-shot or periodic (R447). -/
  | timerArm (t : Fin 64) (rd : Reg) (n : CNum)
  /-- POUT with CANCEL disarms the timer and keeps its count (R447). -/
  | timerCancel (t : Fin 64) (rd : Reg) (n : CNum)
  /-- PIN on a timer port returns the expiries since the last PIN, blocking at 0 (R447). -/
  | timerPin (t : Fin 64) (rd : Reg) (re : Reg) (n : CNum)
  /-- PIN on an update port returns the next completion (R229). -/
  | uportCompletionPin (t : Fin 64) (rd : Reg) (re : Reg) (n : CNum)
  /-- A three-word POUT on port 105 copies a buffer and admits it directly to an egress queue or seat (R446); the three words of the request, from the registers that its POUTs name. -/
  | sendRequest (t : Fin 64) (w0 : Word64) (w1 : Word64) (w2 : Word64)
  /-- BCOPY copies one chunk of up to 64 bytes and commits its progress registers (R462); one chunk. -/
  | bcopy (t : Fin 64) (ra : Reg) (rb : Reg) (rc : Reg) (rd : Reg)
  /-- BFILL fills one chunk with the pattern and commits its progress (R462); one chunk. -/
  | bfill (t : Fin 64) (ra : Reg) (rb : Reg) (rc : Reg) (rd : Reg)
  /-- CRC32C folds one chunk of data into the running CRC-32C state (R462); one chunk. -/
  | crc32c (t : Fin 64) (ra : Reg) (rb : Reg) (rc : Reg) (rd : Reg)
  /-- HASH folds one chunk of data into the running CRC-32 state (R462); one chunk. -/
  | hash (t : Fin 64) (ra : Reg) (rb : Reg) (rc : Reg) (rd : Reg)
  /-- TSEARCH compares up to four table entries with the key and stops on a hit (R462); one chunk. -/
  | tsearch (t : Fin 64) (ra : Reg) (rb : Reg) (rc : Reg) (rd : Reg)
  /-- AWAIT, or PIN on port 104, releases any held event port and blocks until the thread holds its core's event port (R458). -/
  | await (t : Fin 64)
  /-- FENCE waits until earlier accesses of the masked kinds have been performed (R458). -/
  | fence (t : Fin 64) (mask : BitVec 3)
  /-- TRAP stops the thread in TRAPPED with cause 0x01 (R458). -/
  | trap (t : Fin 64) (imm : BitVec 12)
  /-- SLEEP blocks the thread for ra microseconds on its private timer (R458). -/
  | sleep (t : Fin 64) (ra : Reg)
  /-- SELF writes the thread's mode, core and number to rd (R458). -/
  | self (t : Fin 64) (rd : Reg)
  /-- A word with a reserved opcode, function code or non-zero 0 field traps the thread with cause 0x05 (R455); `w` the word; one that is an instruction executes as it. -/
  | reservedInstruction (t : Fin 64) (w : Word32)
  /-- A waiting thread is released by the message, room, port item or expiry it waited for (R431). -/
  | threadRelease (t : Fin 64)
  /-- An armed timer expires, counts, raises its event when asked and rearms when periodic (R447). -/
  | timerExpiry (x : Fin 64)
  /-- A write of RESTART.GO starts a service-complex restart that stops threads and abandons their partial work (R450). -/
  | serviceRestart (who : Who)
  /-- After reload, the restart raises F248 and starts the vendor threads (R451); `patchOk`: the patch copy passes its hash check. -/
  | restartServicesStart (patchOk : Bool)
  /-- CMD 1 restarts a thread at ENTRY with its registers cleared (R435). -/
  | threadRestartCmd (who : Who) (t : Fin 64)
  /-- CMD 2 stops a thread at the next boundary (R452). -/
  | threadStopCmd (who : Who) (t : Fin 64)
  /-- A read of CLAIM_c claims the lowest pending unmasked source routed to the core, or returns the one in service (R480). -/
  | claimRead (who : Who) (c : Fin 4)
  /-- A write of the in-service source to DONE_c ends its service, and any other value sets BAD_DONE (R481). -/
  | doneWrite (who : Who) (c : Fin 4) (v : BitVec 16)
  /-- A write of 1 to PEND_SET sets pending bits, with owner limits on vendor and locked sources (R477). -/
  | pendSet (who : Who) (k : Fin 8) (v : BitVec 32)
  /-- A write of 1 to PEND_CLR clears pending bits, with owner limits (R477). -/
  | pendClr (who : Who) (k : Fin 8) (v : BitVec 32)
  /-- A write of 1 to MASK_SET masks sources, except locked ones in owner mode (R477). -/
  | maskSet (who : Who) (k : Fin 8) (v : BitVec 32)
  /-- A write of 1 to MASK_CLR unmasks sources, except locked ones in owner mode (R477). -/
  | maskClr (who : Who) (k : Fin 8) (v : BitVec 32)
  /-- A write of ROUTE retargets pending sources to a new core, leaving locked ones in owner mode (R484). -/
  | routeWrite (who : Who) (k : Fin 16) (v : BitVec 32)
  /-- A core idle for 10 us with sleep enabled powers down (R485). -/
  | coreSleep (c : Fin 4)
  /-- The sentry wakes a sleeping core on a wake cause, recording WAKE_CAUSE (R486). -/
  | coreWake (c : Fin 4) (cause : Fin 7)
  /-- A DRAM request completes with corrected data, a retry, or an uncorrectable error (R521); `port` 0-4 real-time, 5 best-effort; `outcome` 0 good, 1 corrected, 2 good at the retry, 3 uncorrectable. -/
  | dramRequestComplete (port : Nat) (addr : Addr) (outcome : Fin 4)
  /-- A refresh falls due and is issued or postponed (R533); `recordOk`: the record of the band that a waiting switch takes passes its CRC. -/
  | refreshDue (c : Fin 8) (recordOk : Bool)
  /-- Every 1 ms the band task reads the junction and decides on a band change (R528); `tj` the junction in tenths of a degree Celsius. -/
  | bandTaskTick (tj : Int)
  /-- The patrol scrub reads the next block and rewrites or records it (R531); `found` 0 clean, 1 correctable, 2 uncorrectable. -/
  | scrubBlock (found : Fin 3)
  /-- A write of 0 to DRAM CTRL.EN quiesces the controller under order 2, or is refused (R527). -/
  | dramCtrlDisable (who : Who) (c : Fin 8)
  /-- A write of 1 to PWR_ON_CLR asks a domain to switch off and starts its quiesce, or is refused (R559). -/
  | pwrOnClr (who : Who) (k : Fin 6) (v : BitVec 32)
  /-- A write of 1 to PWR_ON_SET asks a domain to switch on, or is refused (R559). -/
  | pwrOnSet (who : Who) (k : Fin 6) (v : BitVec 32)
  /-- A drained block acknowledges and its domain switches off within 10 us (R560). -/
  | quiesceAcknowledge (d : Fin 166)
  /-- No acknowledgement 1 ms after the drain timeout raises F044 (R560). -/
  | quiesceTimeout (d : Fin 166)
  /-- A switched-on domain becomes ON with its Deal values (R561). -/
  | domainOnComplete (d : Fin 166)
  /-- A debug request failing its CRC executes nothing and is answered CRC_ERR (R569); `bytes` the request as it stands on the wire. -/
  | debugBadPacket (bytes : List (BitVec 8))
  /-- STATUS returns DEBUG.STATUS (R571); `seq` the SEQ bit of CMD. -/
  | debugStatus (seq : Bool)
  /-- CHALLENGE issues a new 64-byte unlock challenge, or answers WAIT during back-off (R125). -/
  | debugChallenge (seq : Bool)
  /-- RESPONSE checks an unlock response and queues its DEBUG_UNLOCK record, or refuses it (R126); `bytes` the 108-byte response. -/
  | debugResponse (seq : Bool) (bytes : List (BitVec 8))
  /-- ATTEST queues an attestation request whose statement goes to the result buffer (R571); `bytes` the 40-byte request. -/
  | debugAttest (seq : Bool) (bytes : List (BitVec 8))
  /-- BUF_READ returns words of the result buffer (R571). -/
  | debugBufRead (seq : Bool) (offset : BitVec 40) (count : Fin 65)
  /-- RELOCK ends the unlock, resuming halted threads and clearing breakpoints (R127). -/
  | debugRelock (seq : Bool)
  /-- ROOT_KEY keeps the owner root key when its hash matches the fused value (R129); `key` the 97-byte public key. -/
  | debugRootKey (seq : Bool) (key : List (BitVec 8))
  /-- HALT stops target threads at their next boundary (R575); `target` ADDR [7:0] (R575). -/
  | debugHalt (seq : Bool) (target : BitVec 8)
  /-- RESUME returns halted threads to the state they would have without the halt (R576). -/
  | debugResume (seq : Bool) (target : BitVec 8)
  /-- STEP executes one instruction or one chunk of a halted thread (R577). -/
  | debugStep (seq : Bool) (target : BitVec 8) (chunk : Bool)
  /-- A blocked stepped instruction completes and the thread returns to HALTED (R577); `t` core x 16 + thread. -/
  | debugStepComplete (t : Fin 64)
  /-- REG_READ returns a register or the PC of a halted thread (R576). -/
  | debugRegRead (seq : Bool) (target : BitVec 8) (reg : BitVec 8)
  /-- REG_WRITE sets a register or the PC of a halted thread (R576). -/
  | debugRegWrite (seq : Bool) (target : BitVec 8) (reg : BitVec 8) (v : BitVec 64)
  /-- BREAK sets or clears a breakpoint of a core (R578). -/
  | debugBreak (seq : Bool) (pc : BitVec 40) (w : BitVec 32)
  /-- WATCH sets or clears a watchpoint of a core (R578). -/
  | debugWatch (seq : Bool) (a : BitVec 40) (w : BitVec 32) (x : BitVec 32)
  /-- FREEZE writes the countdown freeze mask (R581). -/
  | debugFreeze (seq : Bool) (mask : BitVec 4)
  /-- MEM_READ performs up to 64 aligned 32-bit reads in address order (R573). -/
  | debugMemRead (seq : Bool) (a : BitVec 40) (count : Fin 65)
  /-- MEM_WRITE performs up to 64 aligned 32-bit writes under the access codes (R573). -/
  | debugMemWrite (seq : Bool) (a : BitVec 40) (words : List (BitVec 32))
  /-- CH_STATUS returns the CH_PEEK word of a channel (R571). -/
  | debugChStatus (seq : Bool) (ch : Fin 512)
  /-- CH_ABANDON abandons the message of a halted or trapped owner, or is refused (R580). -/
  | debugChAbandon (seq : Bool) (ch : Fin 512)
  /-- SVC_RESTART starts a service-complex restart unless the complex is held or not running (R582). -/
  | debugSvcRestart (seq : Bool)
  /-- SVC_RELEASE ends a service-complex hold and starts its restart (R583). -/
  | debugSvcRelease (seq : Bool)
  /-- TP_CMD with OP READ reads a parse or gate-list row into TP_DATA (R599); `port` an egress port, or 56 for PARSE. -/
  | tablePortRead (who : Who) (port : Fin 57) (mem : BitVec 4) (index : BitVec 16)
  /-- TP_CMD with OP WRITE writes an admin gate-list row, or returns LOCKED or BAD_COMMAND (R599); `port` an egress port, or 56 for PARSE. -/
  | tablePortWrite (who : Who) (port : Fin 57) (mem : BitVec 4) (index : BitVec 16)
  /-- MDIO_CMD clause 22 write starts a write frame (R601). -/
  | mdioC22Write (who : Who) (m : Fin 2) (phy : BitVec 5) (reg : BitVec 5) (data : BitVec 16)
  /-- MDIO_CMD clause 22 read starts a read frame (R601). -/
  | mdioC22Read (who : Who) (m : Fin 2) (phy : BitVec 5) (reg : BitVec 5)
  /-- MDIO_CMD clause 45 address starts an address frame (R601). -/
  | mdioC45Address (who : Who) (m : Fin 2) (phy : BitVec 5) (reg : BitVec 5) (data : BitVec 16)
  /-- MDIO_CMD clause 45 write starts a write frame (R601). -/
  | mdioC45Write (who : Who) (m : Fin 2) (phy : BitVec 5) (reg : BitVec 5) (data : BitVec 16)
  /-- MDIO_CMD clause 45 read-increment starts a read frame that advances the address (R601). -/
  | mdioC45ReadIncrement (who : Who) (m : Fin 2) (phy : BitVec 5) (reg : BitVec 5)
  /-- MDIO_CMD clause 45 read starts a read frame (R601). -/
  | mdioC45Read (who : Who) (m : Fin 2) (phy : BitVec 5) (reg : BitVec 5)
  /-- An MDIO frame completes and clears BUSY with the read data (R601); `data` what MDIO carried in a read frame. -/
  | mdioFrameComplete (m : Fin 2) (data : BitVec 16)
  /-- I2C_CMD OP 0 starts a write transaction (R602). -/
  | i2cWrite (who : Who) (x : Fin 2) (wlen : BitVec 3) (addr : BitVec 7)
  /-- I2C_CMD OP 1 starts a read transaction (R602). -/
  | i2cRead (who : Who) (x : Fin 2) (rlen : BitVec 3) (addr : BitVec 7)
  /-- I2C_CMD OP 2 starts a write then read with repeated START (R602). -/
  | i2cWriteRead (who : Who) (x : Fin 2) (wlen : BitVec 3) (rlen : BitVec 3) (addr : BitVec 7)
  /-- An I2C transaction ends with its result and data (R602); `result` 0 good, 1 address NACK, 2 data NACK, 3 bus error. -/
  | i2cComplete (x : Fin 2) (result : Fin 4) (data : BitVec 32)
  /-- Clock stretching beyond 10 ms ends the transaction with a bus error and a recovery STOP (R140). -/
  | i2cStretchTimeout (x : Fin 2)
  /-- A write to GPIO_OUT_SET raises output levels (R600). -/
  | gpioOutSet (who : Who) (v : BitVec 16)
  /-- A write to GPIO_OUT_CLR lowers output levels (R600). -/
  | gpioOutClr (who : Who) (v : BitVec 16)
  /-- The lane regains signal, lock, alignment or a link-up control word, which ends the link fault and starts the HOLD_UP interval (R156). -/
  | linkFaultClear (p : Fin 48)
  /-- QUIESCE.DRAIN_TO expiring for a block without its own drain rules discards its remaining work whole into DISC_FLUSH (R560). -/
  | quiesceDrainTimeout (d : Fin 166)
  /-- VIN has stayed within 6-60 V for 2 ms with SYS_RST_N released, which fixes t0 and holds the Fold outputs (R45). -/
  | powerValidT0
  /-- SYS_RST_N held low for 1 us forces Fold and resets every non-always-on domain, clearing unlatched sticky bits (R61). -/
  | sysRstAssert
  /-- The release of SYS_RST_N takes t0 again and the Deal runs from step 1 (R61). -/
  | sysRstRelease
  /-- VIN below 5.8 V or above 62 V for 10 us is declared absent and HOLD carries the module (R547). -/
  | vinAbsent
  /-- VIN that returns within 6-60 V for 2 ms during a ride-through lets the module run on and recharge HOLD (R551). -/
  | vinPresent
  /-- HOLD falling below 12 V with VIN absent forces Fold, records BROWNOUT and discharges HOLD for a later restart (R551). -/
  | holdBelow12v
  /-- HOLD not reaching 46 V within CHARGE_TO raises F039 (R550). -/
  | holdChargeTimeout
  /-- The chosen image has been streamed, hashed, decrypted and staged in DRAM (R47). -/
  | imageStaged
  /-- Once the self-test, bucket clear and check are done, the staged sections are applied in type order (R83). -/
  | dealApply
  /-- DL registers lock, the governor and pipelines start, the squelch and bypass are released and FWD is set (R53). -/
  | dealCommit
  /-- With forwarding not begun 10 ms after the applicable deadline, F024 is raised and the Deal ends with DEADLINE (R52). -/
  | dealWatchdog
  /-- After commit the vendor service threads start (R49). -/
  | vendorThreadsStart
  /-- Once every vendor thread has reached its first wait, the owner threads start at ENTRY (R432). -/
  | ownerThreadsStart
  /-- DECK_PWR above 400 mA for 1 ms is switched off and treated as a removal (R67). -/
  | deckOvercurrent
  /-- DECK_PRES_N high for 10 ms declares removal, raises F300 and event 200, abandons Deck work and pauses the journal (R97). -/
  | deckRemoved
  /-- DECK_PRES_N low for 100 ms switches DECK_PWR on again (R98). -/
  | deckPowerReturn
  /-- When budget allows, the oldest queued record is programmed into the next journal page, erasing a new block first (R91). -/
  | journalAppend
  /-- Every 300 s of uptime the append budget gains one, up to 12 (R94). -/
  | journalBudgetTick
  /-- At most once per 20 ms a queued attestation request is signed into a statement (R123). -/
  | attestSign
  /-- An outstanding unlock challenge expires 60 s after issue (R125). -/
  | challengeExpiry
  /-- An unlock ends when its DURATION elapses, resuming halted threads and clearing breakpoints (R127). -/
  | unlockExpiry
  /-- The challenge back-off after a failed response ends, so challenges may be issued again (R128). -/
  | unlockBackoffEnd
  /-- The learn engine inserts, refreshes or moves a MAC entry, or counts a full set in LEARN_FULL (R219). -/
  | macLearn
  /-- The NAT_REV twin of a committed NAPT record is inserted in its own slice, or its loss expires the forward record (R269). -/
  | twinInsert
  /-- A full or timed-out batch is sent on the export channel when the channel has room (R259). -/
  | exportBatchSend
  /-- EXPORT.FLUSH ms after its first entry, the open batch becomes due for sending (R259). -/
  | exportFlushTimer
  /-- An export wait longer than EXPORT_STALL.TIME raises F205 (R259). -/
  | exportStall
  /-- Every 2 us the governor steps VCORE toward its goal within the floor and ceiling (R30). -/
  | governorLoop
  /-- Every 100 us the power rule lowers or raises the ceiling by 5 mV (R31). -/
  | ceilingAdjust
  /-- No FIFO above BOOST_TH / 2 for 100 us ends boost and resumes the loop (R32). -/
  | boostEnd
  /-- Two metronomes of one pipeline disagreeing by more than 15 % for 1 ms raise F034 (R43). -/
  | metroSpreadFault
  /-- 1 s of REF10M_IN edges within 2 ppm locks the reference and raises event 19 (R166). -/
  | refLock
  /-- TCXO and ring oscillator disagreeing by more than 100 ppm for 10 ms raise F256 and switch the instances to the ring oscillator (R167). -/
  | tcxoFailure
  /-- At each shifted whole second PPS_OUT rises and raises event 28 (R178). -/
  | ppsOutEdge
  /-- PPS_OUT falls after WIDTH ms (R178). -/
  | ppsOutPulseEnd
  /-- A PPS_IN rising edge is captured in all four instances, or ignored within 500 ms of the last (R179). -/
  | ppsInEdge
  /-- No PPS_IN edge for 1.5 s after a capture raises F258 (R179). -/
  | ppsInGap
  /-- Every TIME / 4 seconds the ager ages dynamic MAC entries and removes those past 4 (R221). -/
  | macAgerPass
  /-- Every ROT_CFG.PERIOD seconds the next in-service bank is put up for test (R326). -/
  | bankRotationTimer
  /-- A leaving bank's last cell frees and its march test starts (R327). -/
  | bankDrainComplete
  /-- DRAIN_TO expiring discards copies with cells in the bank into DISC_FLUSH (R327). -/
  | bankDrainTimeout
  /-- A FAULT_N pulse ends, raising event 9, and a merged pulse follows 2 ms later when one is due (R422). -/
  | faultPulseEnd
  /-- The deadlock condition held for 10 us raises F240 (R449). -/
  | deadlockDetect
  /-- Each second, a correctable-error rise above CE_TH raises F237 (R542). -/
  | ceRateCheck
  /-- A stepped instruction still blocked after 1 ms is answered STEP_PENDING (R577). -/
  | debugStepPending
  /-- DBG_PRES_N high for 1 ms detaches the debugger, resuming threads and clearing debug state (R584). -/
  | debugDetach
  /-- Every TX_INTERVAL the LLDP service sends a frame on each enabled port (R503). -/
  | lldpTransmit
  /-- A DISCOVER or REQUEST is answered with the position's fixed address, or NAKed on conflict (R504). -/
  | dhcpRequest
  /-- The exporter packs a received batch into IPFIX messages and gives the buffer back (R505). -/
  | ipfixBatchExport
  /-- The agent answers a Get, GetNext or GetBulk under USM (R507). -/
  | snmpRequest
  /-- Every 100 ms the syslog service reports newly set sticky bits and events (R509). -/
  | syslogPoll
  /-- A frame waiting 1 s for an unresolved next hop is dropped (R497). -/
  | arpResolveTimeout
  /-- The Table service floods its link-state message every LSA_INTERVAL or on change (R511). -/
  | lsaFlood
  /-- Within 10 ms of a link-state change the seat routes and flood tree are recomputed and written (R512). -/
  | routeCompute
  /-- A NONCE request returns a fresh nonce, replacing the oldest of eight (R514). -/
  | endpointNonce
  /-- A signed RULESET_SWAP command issues SWAP on U0 (R515). -/
  | cmdRulesetSwap
  /-- A signed UPDATE_BEGIN command starts staging an image (R516). -/
  | cmdUpdateBegin
  /-- A signed RESTART_SERVICES command writes RESTART.GO after replying (R515). -/
  | cmdRestartServices
  /-- An ATTEST request is passed to the responder and answered with its statement (R517). -/
  | endpointAttest
  /-- A DATA message stores image bytes at its offset and returns NEXT (R516). -/
  | endpointData
  /-- A STATUS request returns DEAL.UPDATE and NEXT (R513). -/
  | endpointStatus
  /-- No DATA for 10 s discards the staging (R516). -/
  | stagingTimeout
  /-- DECK_PRES_N rising before step 7 of the Deal ends the Deal with DECK_LOST (R57). -/
  | deckLost
  /-- The exception path waiting 10 ms without a pool buffer raises F266 (R412). -/
  | exceptionPathNoBuffer
  /-- The accepted Fold exit finishes its steps, clears FOLD and EXITING, closes the forced window and raises event 7 (R424). -/
  | foldExitComplete
  /-- HOLD reaches 46 V, setting HOLD_OK and ending the F039 level condition (R550). -/
  | holdCharged
  /-- VIN and HOLD both stay below 3 V for 10 ms, clearing grave latches and every register (R62). -/
  | powerCycle
  /-- DBG_PRES_N going low sets ATTACHED and ATTACH_SEEN (R585). -/
  | debugAttach
  /-- A link-state message not refreshed for 5 x LSA_INTERVAL is dropped, changing the held link state (R511). -/
  | linkStateAgeout
  /-- An LLDP neighbour whose TTL has run out is removed from the neighbour table (R503). -/
  | lldpNeighbourAgeout
  /-- The key-store supply or junction monitor trips, which declares tamper and raises F029 (R130); the monitors that stand tripped. -/
  | tamperMonitorTrip (supply : Bool) (temp : Bool)
  /-- 50 ms after power returns, the identity page is read and judged as the dealt Deck or another Deck (R98); the identity page as read, none where its read failed twice. -/
  | deckIdentityCheck (page : Option (List Byte))
  /-- After DELAY minutes of forwarding without a fold fault, the floor bits are fused up to the accepted VERSION (R118); `good` floor bits read back before one does not. -/
  | floorAdvanceTimed (good : Nat)
  /-- A vendor write to the port key window installs MACsec key and SA state (R151). -/
  | saInstall (who : Who) (p : Fin 48) (op : SaOp)
  /-- The rebuild of a re-enabled slice completes and SLICE_QUIESCED clears (R255). -/
  | flowSliceRebuildDone (x : Fin 4)
  /-- While panic lasts, a slice's sampling factor doubles every STEP us, up to N_MAX (R281). -/
  | sampleStepTimer (x : Fin 4)
  /-- After RELAX us without panic, a slice's sampling factor halves (R281). -/
  | sampleRelaxTimer (x : Fin 4)
  /-- Panic lasting DEFER_AFTER with N at N_MAX starts deferring inserts on the slice and raises F210 (R283). -/
  | insertDeferStart (x : Fin 4)
  /-- No frame of a recovery stream passing for RESET_MS sets its take_any (R298). -/
  | frerTakeAnyTimeout (n : Fin 4096)
  /-- A bank's march test ends, making it the spare or retiring it and reporting TEST_STATUS (R327). -/
  | marchTestComplete (pass : Bool)
  /-- While a gap remains, the receiver sets FM again every ACK_TO (R366). -/
  | nelyanFmRepeat (n : Fin 8)
  /-- Every 1 ms each channel's MR4 refresh rate is read (R530). -/
  | mr4Read (ch : Fin 32) (rate : BitVec 5)
  /-- Every 128 ms ZQ calibration runs, and its failure raises F236 (R530). -/
  | zqCalibration (c : Fin 8) (ok : Bool)
  /-- TTDP ending an inauguration writes the R-NAT maps, flushes, swaps the bank and sends the new topology (R498); the operands are TRAIN and LEN of each map, the new topology counter and the consists of the train. -/
  | inaugurationEnd (maps : List (BitVec 32 × Fin 33)) (counter : BitVec 32) (consists : Nat)
  /-- A PTP Sync interval makes the servo step or steer its instance and update SYNC (R500); `offset` is the offset from the master in ns, none for a grandmaster instance. -/
  | servoUpdate (inst : Fin 4) (offset : Option Int)
  /-- An egress timestamp entry the service did not request goes to TS_CHANNEL or is dropped (R501); `mine` where the service issued the entry's (port, tag). -/
  | tsEntryDispatch (mine : Bool)
  /-- The MKA key server distributes a new SAK and installs SAs (R502); `ssci` and the SCI and SSCI of each peer are those of the association. -/
  | mkaSakDistribute (port : Fin 48) (ssci : BitVec 32) (peers : List (BitVec 64 × BitVec 32))
  /-- A signed FLOOR_ADVANCE command advances the floor to the accepted VERSION (R515); `good` floor bits read back before one does not. -/
  | cmdFloorAdvance (good : Nat)
  /-- The whole-buffer test finishes, retires failed banks, reports TEST_STATUS with bank 31 and closes its forced window (R329); `bad`: the banks that failed. -/
  | wholeBufferTestComplete (bad : BitVec 17)
  /-- The PTP announce receipt timeout clears SYNC of the instance (R500). -/
  | announceReceiptTimeout (inst : Fin 4)
  /-- ROUTE_HOLD after a link comes UP expires, and the Table service may move routes onto it (R512). -/
  | routeHoldExpiry (link : Fin 8)
  deriving DecidableEq, Repr

end Sys2Proof
end

