-- ==== Sys2Proof/Decode.lean ====
section
/-! DEFINITION. The commands that words spell.  The rows of spec/opcode_table.json give no bits, so no word spells a command. -/
namespace Sys2Proof

/-- The command that the `nbits` bits of `w` spell by the table's bits: none, as the table gives no row any bits. -/
def decodeTableWord (_nbits _w : Nat) : Option Instr := none

end Sys2Proof
end

