-- ==== Sys2Proof/Config.lean ====
section
/-! DEFINITION. What one module's silicon fixes and what the spec leaves open: the contents of its ROMs and its identity,
and the free values.  Every constant here is opaque: no proof can see its value. -/
namespace Sys2Proof

/-- `TOP.ID.STEPPING`, read from the identity ROM (R600). -/
opaque Config.stepping : BitVec 8
/-- The services-ROM version (R474, R600). -/
opaque Config.servicesRomVersion : BitVec 32
/-- The Dealer-ROM version (R122, R600). -/
opaque Config.dealerRomVersion : BitVec 32
/-- A byte of the services ROM at 0x00_0100_0000 (R586). -/
opaque Config.servicesRom : Nat → BitVec 8
/-- A byte of vendor SRAM as the services ROM initialises it (R451). -/
opaque Config.vendorSram : Nat → BitVec 8
/-- The address at which the services ROM starts vendor thread `t` (R432). -/
opaque Config.vendorEntry : Nat → BitVec 40
/-- The ROM's descriptor word of region `r` (0-7) of core `c`: 0 BASE, 1 SIZE, 2 CTRL (R434, R452). -/
opaque Config.romRegion : Nat → Nat → Nat → BitVec 32
/-- What the identity private key of the key store comes from (R106). -/
opaque Config.identityKey : Nat
/-- The device certificate of the identity ROM: its length and its bytes (R106). -/
opaque Config.deviceCertLength : BitVec 16
opaque Config.deviceCertByte : Nat → BitVec 8
/-- What RFC 5280 makes of a DER certificate, which the spec does not restate (R106, R120): that it chains to the manufacturing CA
whose hash the Dealer ROM holds, and its public key. -/
opaque Config.certChains : List (BitVec 8) → Bool
opaque Config.certKey : List (BitVec 8) → List (BitVec 8)
/-- The 384 bits of FLEET_KEY that seal a fleet Deck key under the engine's own key, with their tag (R108). -/
opaque Config.sealFleet : List (BitVec 8) → BitVec 384
/-- The link-state message of a seat (R511), whose layout the spec does not give: seat, DEVICE_ID, sequence number, and the peer seat,
RTT and REACH of each UP link; and what a service payload says, none where it is no such message. -/
opaque Config.lsaBytes : Nat × Nat × Nat × List (Nat × Nat × Bool) → List (BitVec 8)
opaque Config.lsaRead : List (BitVec 8) → Option (Nat × Nat × Nat × List (Nat × Nat × Bool))
/-- A TTDP TOPOLOGY frame with its counter (R498), from port `n`; an EAPOL-MKA frame of port `n` that distributes the wrapped SAK of an
AN under the ICK, CKN and SAK given (R502): their layouts belong to IEC 61375-2-5 and IEEE 802.1X. -/
opaque Config.topologyFrame : Nat → Nat → List (BitVec 8)
opaque Config.mkaFrame : Nat → Nat → List (BitVec 8) → List (BitVec 8) → List (BitVec 8) → List (BitVec 8)
/-- IF_PORT of a service whose image gives none (R496), and the UTC offset that the time service holds (R506). -/
opaque Config.ifPort : Nat → Nat
opaque Config.utcOffset : Nat
/-- What the syslog service writes beyond R509: MSG of a report of a kind (0 FAULT, 1 LINK, 2 DECK, 3 TTDP, 4 a drained queue,
5 a summary) about `n`; and MSGID and severity of a kind where R509 gives none. -/
opaque Config.logText : Nat → Nat → List (BitVec 8)
opaque Config.logId : Nat → List (BitVec 8)
opaque Config.logSeverity : Nat → Nat
/-- The optional texts of LLDP beyond R503: the port description of port `n`, and the interface numbering of a management address. -/
opaque Config.lldpPortDesc : Nat → List (BitVec 8)
opaque Config.lldpIfNumber : Nat → Nat
/-- The BER value of a MIB object that the spec names only by its RFC (R507), at the `n`-th reading. -/
opaque Config.mibValue : List Nat → Nat → List (BitVec 8)
/-- The trim to which the 10 MHz reference would discipline the TCXO, by the period since power-up (R166). -/
opaque Config.refTrim : Nat → BitVec 24
/-- What lane `n` has met by a period since power-up (R163): 0 corrected and 1 uncorrectable FEC codewords, 2 errored PCS blocks. -/
opaque Config.laneErrors : Nat → Nat → Nat → BitVec 32
/-- Whether an offset of a vendor window holds a vendor register (R590, R622). -/
opaque Config.vendorRegister : Nat → Bool
/-- The free value number `n`: a value that the spec leaves open.  State holds the counter (`State.free`). -/
opaque Config.freeValue : Nat → Nat

end Sys2Proof
end

