-- ==== Sys2Proof/Machine/Crypto.lean ====
section
/-! DEFINITION. The cryptographic functions that the spec names: AES with 128 and 256-bit keys (FIPS 197), GCM (NIST SP
800-38D), SHA-384 (FIPS 180-4), HMAC and HKDF (RFC 5869), and ECDH and ECDSA over P-384 (FIPS 186-5) (R80, R81, R109, R120,
R122, R149, R364).  Random values come from the free values. -/
namespace Sys2Proof.Machine

/-! ## AES -/

def xtime (b : Byte) : Byte := (b <<< 1) ^^^ (if b.msb then 0x1b else 0)
/-- The product in GF(2^8); `n` bits of the second factor are left. -/
def gmul8 : Nat → Byte → Byte → Byte
  | 0, _, _ => 0
  | n + 1, a, b => (if b.getLsbD 0 then a else 0) ^^^ gmul8 n (xtime a) (b >>> 1)
def gmul (a b : Byte) : Byte := gmul8 8 a b
/-- The inverse in GF(2^8), as the 254th power. -/
def ginv (a : Byte) : Byte :=
  let a2 := gmul a a
  let a4 := gmul a2 a2
  let a8 := gmul a4 a4
  let a16 := gmul a8 a8
  let a32 := gmul a16 a16
  let a64 := gmul a32 a32
  let a128 := gmul a64 a64
  gmul a2 (gmul a4 (gmul a8 (gmul a16 (gmul a32 (gmul a64 a128)))))
def sbox (a : Byte) : Byte :=
  let x := ginv a
  x ^^^ x.rotateLeft 1 ^^^ x.rotateLeft 2 ^^^ x.rotateLeft 3 ^^^ x.rotateLeft 4 ^^^ 0x63

def xorBytes (a b : List Byte) : List Byte := (a.zip b).map fun e => e.1 ^^^ e.2

/-- The key schedule: `ws` the words so far, newest first, `i` their number; `n` words are to come. -/
def aesExpand (nk : Nat) : Nat → Nat → Byte → List (List Byte) → List (List Byte)
  | 0, _, _, ws => ws
  | n + 1, i, rc, ws =>
    let last := ws.headD []
    let back := ws.getD (nk - 1) []
    let t :=
      if i % nk = 0 then xorBytes ((last.drop 1 ++ last.take 1).map sbox) [rc, 0, 0, 0]
      else if 6 < nk ∧ i % nk = 4 then last.map sbox
      else last
    aesExpand nk n (i + 1) (if i % nk = 0 then xtime rc else rc) (xorBytes back t :: ws)

/-- Splits bytes into pieces of `k`; `n` bounds their number. -/
def pieces (k : Nat) : Nat → List Byte → List (List Byte)
  | 0, _ => []
  | n + 1, l => if l.isEmpty then [] else l.take k :: pieces k n (l.drop k)

/-- The round keys of a key of 16 or 32 bytes. -/
def aesKeys (key : List Byte) : List (List Byte) :=
  let nk := key.length / 4
  let rounds := nk + 6
  pieces 16 (rounds + 1) (aesExpand nk (4 * (rounds + 1) - nk) nk 1 (pieces 4 nk key).reverse).reverse.flatten

def shiftRows (s : List Byte) : List Byte := (List.range 16).map fun i => s.getD ((i + 4 * (i % 4)) % 16) 0
def mixColumns (s : List Byte) : List Byte :=
  (List.range 16).map fun i =>
    let b (k : Nat) : Byte := s.getD (i / 4 * 4 + (i + k) % 4) 0
    gmul (b 0) 2 ^^^ gmul (b 1) 3 ^^^ b 2 ^^^ b 3
def aesRounds : List (List Byte) → List Byte → List Byte
  | [], s => s
  | [k], s => xorBytes (shiftRows (s.map sbox)) k
  | k :: t, s => aesRounds t (xorBytes (mixColumns (shiftRows (s.map sbox))) k)
/-- One block under expanded round keys. -/
def aesBlock (ks : List (List Byte)) (b : List Byte) : List Byte :=
  match ks with
  | k :: t => aesRounds t (xorBytes b k)
  | [] => b

/-! ## GCM -/

/-- The product of GHASH; bit 127 is the first coefficient. -/
def gfMul (x y : Nat) : Nat :=
  ((List.range 128).foldl (fun (a : Nat × Nat) i =>
    (if x.testBit (127 - i) then a.1 ^^^ a.2 else a.1, if a.2 % 2 = 1 then a.2 / 2 ^^^ (0xE1 * 2 ^ 120) else a.2 / 2)) (0, y)).1
def pad16 (l : List Byte) : List Byte := l ++ List.replicate ((16 - l.length % 16) % 16) 0
def ghash (h : Nat) (l : List Byte) : Nat := (pieces 16 (l.length / 16 + 1) l).foldl (fun y b => gfMul (y ^^^ ofBe b) h) 0
def gctr (ks : List (List Byte)) : Nat → Nat → List Byte → List Byte
  | 0, _, _ => []
  | n + 1, j, l =>
    if l.isEmpty then []
    else
      let j1 := j / 2 ^ 32 * 2 ^ 32 + (j + 1) % 2 ^ 32
      xorBytes (l.take 16) (aesBlock ks (beBytes 16 j1)) ++ gctr ks n j1 (l.drop 16)
def gcmTag (ks : List (List Byte)) (iv aad ct : List Byte) : List Byte :=
  let h := ofBe (aesBlock ks (List.replicate 16 0))
  let s := ghash h (pad16 aad ++ pad16 ct ++ beBytes 8 (8 * aad.length) ++ beBytes 8 (8 * ct.length))
  xorBytes (beBytes 16 s) (aesBlock ks (iv ++ [0, 0, 0, 1]))
/-- Authenticated encryption with a 96-bit nonce: the ciphertext and the tag. -/
def gcmSeal (key iv aad pt : List Byte) : List Byte × List Byte :=
  let ks := aesKeys key
  let ct := gctr ks (pt.length / 16 + 1) (ofBe (iv ++ [0, 0, 0, 1])) pt
  (ct, gcmTag ks iv aad ct)
/-- Authenticated decryption: the plaintext, none where the tag fails. -/
def gcmOpen (key iv aad ct tag : List Byte) : Option (List Byte) :=
  let ks := aesKeys key
  if gcmTag ks iv aad ct = tag then some (gctr ks (ct.length / 16 + 1) (ofBe (iv ++ [0, 0, 0, 1])) ct) else none

/-! ## SHA-384 -/

/-- Whether `d` has a divisor from `k` upwards; `n` candidates are left. -/
def hasDivisor : Nat → Nat → Nat → Bool
  | 0, _, _ => false
  | n + 1, k, d => if d < k * k then false else d % k = 0 || hasDivisor n (k + 1) d
/-- The first 80 primes: those below 410. -/
def primes80 : List Nat := (List.range 410).filter fun d => decide (2 ≤ d) && !hasDivisor 20 2 d
/-- The largest x with x^e ≤ v, found from bit `n` downwards. -/
def iroot (e v : Nat) : Nat → Nat → Nat
  | 0, x => x
  | n + 1, x => iroot e v n (if (x + 2 ^ n) ^ e ≤ v then x + 2 ^ n else x)
/-- The 64-bit fractions of the cube roots of the first 80 primes, and of the square roots of the ninth to the sixteenth. -/
def shaK : List Word64 := primes80.map fun p => BitVec.ofNat 64 (iroot 3 (p * 2 ^ 192) 68 0)
def shaInit : List Word64 := ((primes80.drop 8).take 8).map fun p => BitVec.ofNat 64 (iroot 2 (p * 2 ^ 128) 69 0)

def shaSched : Nat → List Word64 → List Word64
  | 0, w => w
  | n + 1, w =>
    let x := w.getD 1 0
    let y := w.getD 14 0
    let s1 := x.rotateRight 19 ^^^ x.rotateRight 61 ^^^ (x >>> 6)
    let s0 := y.rotateRight 1 ^^^ y.rotateRight 8 ^^^ (y >>> 7)
    shaSched n ((s1 + w.getD 6 0 + s0 + w.getD 15 0) :: w)
def shaRound (h : List Word64) (kw : Word64 × Word64) : List Word64 :=
  match h with
  | [a, b, c, d, e, f, g, k] =>
    let t1 := k + (e.rotateRight 14 ^^^ e.rotateRight 18 ^^^ e.rotateRight 41) + ((e &&& f) ^^^ (~~~e &&& g)) + kw.1 + kw.2
    let t2 := (a.rotateRight 28 ^^^ a.rotateRight 34 ^^^ a.rotateRight 39) + ((a &&& b) ^^^ (a &&& c) ^^^ (b &&& c))
    [t1 + t2, a, b, c, d + t1, e, f, g]
  | _ => h
def shaBlock (h : List Word64) (b : List Byte) : List Word64 :=
  let w0 := (pieces 8 16 b).map fun p => BitVec.ofNat 64 (ofBe p)
  let w := (shaSched 64 w0.reverse).reverse
  (h.zip ((shaK.zip w).foldl shaRound h)).map fun e => e.1 + e.2
/-- SHA-384. -/
def sha384 (m : List Byte) : List Byte :=
  let z := (256 - (m.length + 17) % 128) % 128
  let p := m ++ [0x80] ++ List.replicate z 0 ++ beBytes 16 (8 * m.length)
  (((pieces 128 (p.length / 128) p).foldl shaBlock shaInit).flatMap fun w => beBytes 8 w.toNat).take 48

/-! ## HMAC and HKDF -/

def hmac384 (key m : List Byte) : List Byte :=
  let k0 := if 128 < key.length then sha384 key else key
  let k := k0 ++ List.replicate (128 - k0.length) 0
  sha384 (k.map (· ^^^ 0x5c) ++ sha384 (k.map (· ^^^ 0x36) ++ m))
/-- HKDF with one block of output: up to 48 bytes. -/
def hkdf384 (salt ikm info : List Byte) (n : Nat) : List Byte := (hmac384 (hmac384 salt ikm) (info ++ [1])).take n

/-! ## P-384 -/

def p384P : Nat := 2 ^ 384 - 2 ^ 128 - 2 ^ 96 + 2 ^ 32 - 1
def p384N : Nat := 0xffffffffffffffffffffffffffffffffffffffffffffffffc7634d81f4372ddf581a0db248b0a77aecec196accc52973
def p384B : Nat := 0xb3312fa7e23ee7e4988e056be3f82d19181d9c6efe8141120314088f5013875ac656398d8a2ed19d2a85c8edd3ec2aef
def p384G : Nat × Nat :=
  (0xaa87ca22be8b05378eb1c71ef320ad746e1d3b628ba79b9859f741e082542a385502f25dbf55296c3a545e3872760ab7,
   0x3617de4a96262c6f5d9e98bf9292dc29f8f41dbd289a147ce9da3113b5f0b8c00a60b1ce1d7e819d7a431d7c90ea0e5f)

/-- b^e mod m; `n` bits of the exponent are left. -/
def powMod (m : Nat) : Nat → Nat → Nat → Nat
  | 0, _, _ => 1 % m
  | n + 1, b, e =>
    let r := powMod m n (b * b % m) (e / 2)
    if e % 2 = 1 then b * r % m else r
def invMod (m a : Nat) : Nat := powMod m 384 (a % m) (m - 2)

/-- The sum of two points; none is the point at infinity. -/
def ecAdd : Option (Nat × Nat) → Option (Nat × Nat) → Option (Nat × Nat)
  | none, q => q
  | p, none => p
  | some (x1, y1), some (x2, y2) =>
    let p := p384P
    if x1 = x2 ∧ (y1 + y2) % p = 0 then none
    else
      let l := if x1 = x2 then (3 * x1 * x1 + p - 3) * invMod p (2 * y1) % p
               else (y2 + p - y1) * invMod p (x2 + p - x1) % p
      let x3 := (l * l + 2 * p - x1 - x2) % p
      some (x3, (l * (x1 + p - x3) + p - y1) % p)
/-- k times a point; `n` bits of k are left. -/
def ecMul : Nat → Nat → Option (Nat × Nat) → Option (Nat × Nat)
  | 0, _, _ => none
  | n + 1, k, q =>
    let r := ecMul n (k / 2) (ecAdd q q)
    if k % 2 = 1 then ecAdd q r else r

/-- The point of a 97-byte uncompressed key, none where it is no point of the curve. -/
def ecPoint (l : List Byte) : Option (Nat × Nat) :=
  let x := beAt l 1 48
  let y := beAt l 49 48
  if l.length = 97 ∧ beAt l 0 1 = 4 ∧ x < p384P ∧ y < p384P ∧ y * y % p384P = (x * x * x + (p384P - 3) * x + p384B) % p384P then
    some (x, y) else none
/-- A point as 97 bytes. -/
def ecBytes : Option (Nat × Nat) → List Byte
  | some (x, y) => 4 :: beBytes 48 x ++ beBytes 48 y
  | none => []
/-- The public key of a private key. -/
def ecPublic (d : Nat) : List Byte := ecBytes (ecMul 384 d (some p384G))
/-- ECDH: the shared secret, none where the peer's key is no point. -/
def ecdh (d : Nat) (peer : List Byte) : Option (List Byte) :=
  match ecPoint peer with
  | some q => (ecMul 384 d (some q)).map fun e => beBytes 48 e.1
  | none => none
/-- ECDSA over a digest of 48 bytes. -/
def ecVerify (key digest sigR sigS : List Byte) : Bool :=
  let r := ofBe sigR
  let t := ofBe sigS
  match ecPoint key with
  | none => false
  | some q =>
    decide (0 < r ∧ r < p384N ∧ 0 < t ∧ t < p384N) &&
      (let w := invMod p384N t
       match ecAdd (ecMul 384 (ofBe digest * w % p384N) (some p384G)) (ecMul 384 (r * w % p384N) (some q)) with
       | some e => decide (e.1 % p384N = r)
       | none => false)
/-- ECDSA signature with the per-message secret `k`: R and S of 48 bytes each. -/
def ecSign (d : Nat) (digest : List Byte) (k : Nat) : List Byte :=
  let r := match ecMul 384 k (some p384G) with
    | some e => e.1 % p384N
    | none => 0
  beBytes 48 r ++ beBytes 48 (invMod p384N k * (ofBe digest + r * d) % p384N)

/-- A private key in its range. -/
def ephOf (x : Nat) : Nat := x % (p384N - 1) + 1

/-! ## Identity (R106, R120) -/

/-- The identity key pair, and DEVICE_ID as a number: the first 16 bytes of the SHA-384 of the public key. -/
def identityKey : Nat := ephOf Config.identityKey
def idOf (publicKey : List Byte) : Nat := beAt (sha384 publicKey) 0 16
def deviceId : Nat := idOf (ecPublic identityKey)
/-- The device certificate, of at most 1,024 bytes. -/
def deviceCert : List Byte := (List.range (Config.deviceCertLength.toNat % 1025)).map Config.deviceCertByte
/-- The DEVICE_ID of a certificate's subject: that of its key. -/
def certDevice (cert : List Byte) : Nat := idOf (Config.certKey cert)

/-! ## AES-CMAC (NIST SP 800-38B), the keys of MKA (IEEE 802.1X-2020, 6.2) and AES Key Wrap (RFC 3394) (R107, R119) -/

/-- A block doubled in GF(2^128). -/
def cmacDouble (l : List Byte) : List Byte :=
  let n := ofBe l
  beBytes 16 ((2 * n % 2 ^ 128) ^^^ (if n / 2 ^ 127 = 1 then 0x87 else 0))
def cmac (key m : List Byte) : List Byte :=
  let ks := aesKeys key
  let k1 := cmacDouble (aesBlock ks (List.replicate 16 0))
  let n := (m.length - 1) / 16 * 16
  let last := m.drop n
  let tail := if last.length = 16 then xorBytes last k1 else xorBytes (last ++ [0x80] ++ List.replicate (15 - last.length) 0) (cmacDouble k1)
  aesBlock ks (xorBytes ((pieces 16 (n / 16) (m.take n)).foldl (fun x b => aesBlock ks (xorBytes x b)) (List.replicate 16 0)) tail)
/-- The key derivation of 802.1X: as many bytes as the key has. -/
def mkaKdf (key label ctx : List Byte) : List Byte :=
  (List.range (key.length / 16)).flatMap fun i => cmac key (beBytes 1 (i + 1) ++ label ++ [0] ++ ctx ++ beBytes 2 (8 * key.length))
/-- One step of the key wrap: `t` its number. -/
def wrapStep (ks : List (List Byte)) (t : Nat) (a : List Byte) (r : List (List Byte)) : List Byte × List (List Byte) :=
  match r with
  | [] => (a, [])
  | x :: rest =>
    let b := aesBlock ks (a ++ x)
    (beBytes 8 (beAt b 0 8 ^^^ t), rest ++ [b.drop 8])
/-- AES Key Wrap of a key of whole 8-byte words. -/
def keyWrap (kek key : List Byte) : List Byte :=
  let r := pieces 8 (key.length / 8) key
  let w := (List.range (6 * r.length)).foldl (fun (s : List Byte × List (List Byte)) j => wrapStep (aesKeys kek) (j + 1) s.1 s.2)
    (List.replicate 8 0xA6, r)
  w.1 ++ w.2.flatten

end Sys2Proof.Machine
end

