-- ==== Sys2Proof/Machine/Tbl.lean ====
section
/-! DEFINITION. Sparse tables keyed by a number: a list of (key, value) pairs in one canonical form.  An entry that is not
listed reads as a default, and a write of the default removes the entry, so that equal tables are equal data. -/
namespace Sys2Proof.Machine

/-- A sparse table. -/
abbrev Tbl (α : Type) := List (Nat × α)

/-- The value at `k`, `d` where nothing is listed. -/
def Tbl.get {α : Type} (d : α) : Tbl α → Nat → α
  | [], _ => d
  | e :: t, k => if e.1 = k then e.2 else Tbl.get d t k

/-- The table without key `k`. -/
def Tbl.del {α : Type} : Tbl α → Nat → Tbl α
  | [], _ => []
  | e :: t, k => if e.1 = k then Tbl.del t k else e :: Tbl.del t k

/-- Inserts a pair before the first larger key. -/
def Tbl.ins {α : Type} : Tbl α → Nat → α → Tbl α
  | [], k, v => [(k, v)]
  | e :: t, k, v => if k < e.1 then (k, v) :: e :: t else e :: Tbl.ins t k v

/-- Writes `v` at `k`; writing the default removes the entry. -/
def Tbl.put {α : Type} [DecidableEq α] (d : α) (t : Tbl α) (k : Nat) (v : α) : Tbl α :=
  if v = d then t.del k else (t.del k).ins k v

/-- The canonical form, where key `k` reads `d k` when it is not listed: keys strictly rising, and no entry equal to its default. -/
def Tbl.wf {α : Type} [DecidableEq α] (d : Nat → α) : Tbl α → Bool
  | [] => true
  | [e] => decide (e.2 ≠ d e.1)
  | e :: f :: t => decide (e.2 ≠ d e.1) && decide (e.1 < f.1) && Tbl.wf d (f :: t)

/-- The table without the keys that satisfy `p`. -/
def Tbl.drop {α : Type} (t : Tbl α) (p : Nat → Bool) : Tbl α := t.filter fun e => !p e.1

/-- Changes the value at `k`. -/
def Tbl.upd {α : Type} [DecidableEq α] (d : α) (t : Tbl α) (k : Nat) (f : α → α) : Tbl α :=
  t.put d k (f (t.get d k))

end Sys2Proof.Machine
end

