-- ==== Sys2Proof/Machine/RegField.lean ====
section
/-! DEFINITION. Register fields, register rows, access codes and the reset values that a register table gives by a rule
rather than by one number. -/
namespace Sys2Proof.Machine

/-- The access codes of R8 (the suffix -V is kept beside the code). -/
inductive Acc where
  | rw | ro | w1c | wo | dl | as | ac
  deriving DecidableEq, Repr

/-- The register blocks of R588. -/
inductive Blk where
  | top | deal | sec | cadence | power | fault | intc | time | debug | pool | parse | tables | flow | edit | buf
  | tm | pipe | svc | dram | nlink | lane | port
  deriving DecidableEq, Repr

/-- One field of one register: the address of its register, its lowest bit, its width, its reset value (the Deck's
default for a field whose reset is given as Deal, R594) and which codes are not reserved (R13). -/
structure Fld where
  addr : Nat
  lsb : Nat
  width : Nat
  reset : Nat
  ok : Nat → Bool

/-- The key of a field in the register store. -/
def Fld.key (f : Fld) : Nat := f.addr * 32 + f.lsb

/-- One field row of a register table: its code, whether it carries -V, how often it stands in the word, and the field
of instance `n`, family indexes `a` and `c`, copy `j`. -/
structure FieldRow where
  acc : Acc
  vend : Bool
  rep : Nat
  fld : Nat → Nat → Nat → Nat → Fld

/-- One row of a register table: its offset, the two family dimensions (count and stride), whether it is a 64-bit
counter with its high word at +4, and its fields. -/
structure RegRow where
  off : Nat
  n1 : Nat
  s1 : Nat
  n2 : Nat
  s2 : Nat
  c64 : Bool
  fields : List FieldRow

/-- Every code is defined. -/
def anyCode (_ : Nat) : Bool := true
/-- The codes from `a` to `b`. -/
def rng (a b v : Nat) : Bool := decide (a ≤ v ∧ v ≤ b)
/-- 0, or a code from `a` to `b`. -/
def rngz (a b v : Nat) : Bool := decide (v = 0 ∨ (a ≤ v ∧ v ≤ b))
/-- A signed 32-bit code from `-a` to `b`. -/
def srng (a b v : Nat) : Bool := decide (v ≤ b ∨ (2 ^ 32 - a ≤ v ∧ v < 2 ^ 32))
/-- `TM[p].OVERHEAD`: a signed byte from -32 to +127 (R356). -/
def ovh (v : Nat) : Bool := decide (v ≤ 127 ∨ (224 ≤ v ∧ v ≤ 255))
/-- `FLOW.EXPORT.CHANNEL`: 16, or 32-511 (R262). -/
def expCh (v : Nat) : Bool := decide (v = 16 ∨ (32 ≤ v ∧ v ≤ 511))
/-- `FLOW.SAMPLE_CFG.N_MAX`: 2, 4, 8, 16, 32 or 64 (R287). -/
def pow2s (v : Nat) : Bool := decide (v ∈ [2, 4, 8, 16, 32, 64])

/-! ## Defaults by rule -/

/-- The class codes of R410. -/
def classNotice : Nat := 0
def classHandled : Nat := 1
def classFold : Nat := 2
def classGrave : Nat := 3

/-- The fault sources whose class is fixed (R411, R412). -/
def fixedSources : List Nat := [0, 1, 2, 3, 6, 19, 25, 26, 27, 28, 29, 35, 41, 43, 180, 236, 256, 264]
/-- The sources of default class grave (R412). -/
def graveSources : List Nat := [0, 1, 2, 3, 25, 26, 27, 28, 29]
/-- The sources of default class fold (R412, R331, R183); F019's class comes from OTP (R411). -/
def foldSources : List Nat :=
  [6, 16, 17, 18, 19, 20, 21, 22, 23, 24, 35, 41, 43, 180, 185, 186, 187, 188, 236, 256, 264]
/-- The sources of default class handled (R412, R331, R261). -/
def handledSources : List Nat :=
  [31, 34, 179, 181, 182, 183, 184, 189, 190, 191, 204, 233, 234, 240, 241, 243, 244, 245, 247, 265]
/-- The handled sources whose default escalation is a restart of the service complex (R412). -/
def restartSources : List Nat := [240, 241, 243, 244, 245, 247]
/-- The level sources (R409). -/
def levelSources : List Nat := [4, 5, 28, 29, 32, 35, 37, 38, 39, 40, 41, 42, 43, 200, 201, 256, 258]

/-- The default class of a fault source (R412). -/
def rstClass (src : Nat) : Nat :=
  if src ∈ graveSources then classGrave else if src ∈ foldSources then classFold
  else if src ∈ handledSources then classHandled else classNotice
/-- The default escalation of a fault source: 1 a restart (R412). -/
def rstEsc (src : Nat) : Nat := b2n (decide (src ∈ restartSources))

/-- A word of bits `p (32k)` to `p (32k + 31)`, bit j for number `32k + j`. -/
def wordOf (p : Nat → Bool) (k : Nat) : Nat :=
  (List.range 32).foldl (fun w j => w + b2n (p (32 * k + j)) * 2 ^ j) 0

/-- `FAULT.FIXED_k` (R412). -/
def rstFixed (k : Nat) : Nat := wordOf (fun n => decide (n ∈ fixedSources)) k

/-- The event sources that the vendor services lock (R492). -/
def lockedSource (n : Nat) : Bool :=
  decide (n = 17 ∨ n = 18 ∨ (32 ≤ n ∧ n ≤ 63) ∨ (96 ≤ n ∧ n ≤ 102) ∨ (112 ≤ n ∧ n ≤ 115) ∨ (128 ≤ n ∧ n ≤ 135))
/-- The core that the services ROM routes a locked source to (R492). -/
def lockedCore (n : Nat) : Nat :=
  if n = 17 ∨ n = 18 then 2
  else if 32 ≤ n ∧ n ≤ 63 then (n - 32) / 8
  else if 96 ≤ n ∧ n ≤ 102 then [1, 2, 2, 1, 1, 0, 3].getD (n - 96) 0
  else if n = 112 then 1
  else 0
/-- `INTC.LOCK_k` (R478). -/
def rstLock (k : Nat) : Nat := wordOf lockedSource k
/-- The mask bits at reset: every source masked but the locked ones (R478, R489). -/
def rstMask (k : Nat) : Nat := wordOf (fun n => !lockedSource n) k
/-- The route of source `n` at reset (R489, R492). -/
def rstRoute (n : Nat) : Nat := if lockedSource n then lockedCore n else 0

/-- DP of PCP `p` with DEI 0 (R147). -/
def pcpDp (p : Nat) : Nat := if 6 ≤ p then 0 else if 4 ≤ p then 1 else if 2 ≤ p then 2 else 3
/-- `PCP_MAP` entry DEI x 8 + PCP (R147): DP in [5:4], TC in [3:0]. -/
def rstPcpMap (e : Nat) : Nat := (if e < 8 then pcpDp e else 3) * 16 + 8 + e % 8
/-- `DSCP_MAP` entry d maps as PCP d / 8 with DEI 0 (R147). -/
def rstDscpMap (d : Nat) : Nat := rstPcpMap (d / 8)
/-- `PCP_REMARK` of a traffic class: TC / 2 (R305). -/
def rstPcpRemark (tc : Nat) : Nat := tc / 2
/-- `DSCP_REMARK` of a traffic class: TC x 4 (R305). -/
def rstDscpRemark (tc : Nat) : Nat := tc * 4
/-- Priority group of a traffic class: TC / 4 (R332). -/
def rstPgMap (tc : Nat) : Nat := tc / 4
/-- Bank states at reset: in service, bank S the spare (R332). -/
def rstBankState (b : Nat) : Nat := if b = 16 then 4 else 0
/-- Drop precedence of shim class q: 3 - q / 4 (R388). -/
def rstClassMap (q : Nat) : Nat := 3 - q / 4
/-- Key profile 0 has MAC, learning and rules on (R235). -/
def rstKprof0 (p : Nat) : Nat := b2n (decide (p = 0))
/-- The length overhead: 20 on Ethernet egress ports, 8 on the Nelyan ones (R334, R356). -/
def rstOverhead (n : Nat) : Nat := if 48 ≤ n then 8 else 20
/-- Default buffer counts of pools 1-6, row `a` for pool a + 1 (R536). -/
def rstPoolCount (a : Nat) : Nat := [2048, 1024, 256, 80, 1024, 128].getD a 0
/-- The 4-bit reserve codes of owners 0-4 fixed in ROM (R537): n stands for 2^(n-1) buffers. -/
def romReserve : List Nat :=
  [7, 6, 5, 5, 0, 0,  0, 0, 0, 4, 0, 0,  0, 0, 0, 0, 0, 6,  5, 5, 0, 3, 4, 6,  0, 0, 0, 0, 0, 6]
/-- `POOL.RES_m` entry e = owner x 6 + pool - 1 (R537, R545). -/
def rstPoolRes (e : Nat) : Nat := romReserve.getD e 0
/-- Domain states from power-up: lanes, ports and Nelyan controllers OFF, every other domain ON (R563). -/
def rstDomState (d : Nat) : Nat := if d < 112 then 0 else if d < 166 then 1 else 0
/-- The identity ROM's device id (R134). -/
def rstDeviceId (k : Nat) : Nat := beAt (beBytes 16 deviceId) (4 * k) 4
/-- ROM region descriptors of regions 0-7 (R434, R452); regions 8-15 come from the Deck. -/
def rstRegionBase (c r : Nat) : Nat := if r < 8 then (Config.romRegion c r 0).toNat % 2 ^ 28 else 0
def rstRegionSize (c r : Nat) : Nat := if r < 8 then (Config.romRegion c r 1).toNat % 2 ^ 28 else 0
def rstRegionThreads (c r : Nat) : Nat := if r < 8 then (Config.romRegion c r 2).toNat / 2 ^ 16 else 0
def rstRegionX (c r : Nat) : Nat := if r < 8 then bitsOf (Config.romRegion c r 2).toNat 3 1 else 0
def rstRegionW (c r : Nat) : Nat := if r < 8 then bitsOf (Config.romRegion c r 2).toNat 2 1 else 0
def rstRegionR (c r : Nat) : Nat := if r < 8 then bitsOf (Config.romRegion c r 2).toNat 1 1 else 0
def rstRegionEn (c r : Nat) : Nat := if r < 8 then bitsOf (Config.romRegion c r 2).toNat 0 1 else 0

end Sys2Proof.Machine
end

