-- ==== Sys2Proof/Machine/RegDefs.lean ====
section
/-! DEFINITION. Every register field that the register tables of spec/ lay out, as a named constant:
its register's address, its lowest bit, its width, its reset value (or the Deck's default, R594) and the codes that are not
reserved (R13).  The name is the spec's `BLOCK.REGISTER.FIELD`; `n` is the block's instance, `a` and `c` the indexes of a
register family, `j` the index of a field repeated inside one word.  The tables are R44, R65, R105, R134, R163, R164, R184,
R210, R235, R262, R287, R305, R332, R356, R357, R388, R389, R428, R452, R453, R474, R489, R543, R544, R545, R565, R585, R597
and R600; the block bases are those of R588. -/
namespace Sys2Proof.Machine

def R.CADENCE.CTRL.FIXED : Fld := ⟨0x10030000, 2, 1, 0, anyCode⟩
def R.CADENCE.CTRL.LIGHT_EN : Fld := ⟨0x10030000, 1, 1, 1, anyCode⟩
def R.CADENCE.CTRL.GOV_EN : Fld := ⟨0x10030000, 0, 1, 1, anyCode⟩
def R.CADENCE.TARGET.TARGET : Fld := ⟨0x10030004, 0, 10, 700, rng 640 1000⟩
def R.CADENCE.LIGHT.BOOST_TH : Fld := ⟨0x10030008, 16, 7, 32, rng 8 88⟩
def R.CADENCE.LIGHT.LIGHT_MIN : Fld := ⟨0x10030008, 0, 10, 480, rng 320 1000⟩
def R.CADENCE.LOOP.STEP_MAX : Fld := ⟨0x1003000c, 8, 8, 20, rng 5 50⟩
def R.CADENCE.LOOP.GAIN : Fld := ⟨0x1003000c, 0, 8, 4, rng 1 40⟩
def R.CADENCE.VCORE.CEILING : Fld := ⟨0x10030010, 16, 10, 850, anyCode⟩
def R.CADENCE.VCORE.VCORE : Fld := ⟨0x10030010, 0, 10, 850, anyCode⟩
def R.CADENCE.VSET.VSET : Fld := ⟨0x10030014, 0, 10, 850, anyCode⟩
def R.CADENCE.STATUS.FIXED_ACTIVE : Fld := ⟨0x10030018, 13, 1, 0, anyCode⟩
def R.CADENCE.STATUS.CAP_THERMAL : Fld := ⟨0x10030018, 12, 1, 0, anyCode⟩
def R.CADENCE.STATUS.CAP_POWER : Fld := ⟨0x10030018, 11, 1, 0, anyCode⟩
def R.CADENCE.STATUS.LIGHT_ACTIVE : Fld := ⟨0x10030018, 10, 1, 0, anyCode⟩
def R.CADENCE.STATUS.BOOST : Fld := ⟨0x10030018, 9, 1, 0, anyCode⟩
def R.CADENCE.STATUS.AT_CEILING : Fld := ⟨0x10030018, 8, 1, 0, anyCode⟩
def R.CADENCE.STATUS.SHEDDING : Fld := ⟨0x10030018, 4, 4, 0, anyCode⟩
def R.CADENCE.STATUS.BELOW_FLOOR : Fld := ⟨0x10030018, 0, 4, 0, anyCode⟩
def R.CADENCE.STICKY.METRO_SPREAD : Fld := ⟨0x1003001c, 14, 1, 0, anyCode⟩
def R.CADENCE.STICKY.SEEN : Fld := ⟨0x1003001c, 8, 5, 0, anyCode⟩
def R.CADENCE.STICKY.SHED_SEEN : Fld := ⟨0x1003001c, 4, 4, 0, anyCode⟩
def R.CADENCE.STICKY.BELOW_FLOOR_SEEN : Fld := ⟨0x1003001c, 0, 4, 0, anyCode⟩
def R.CADENCE.LIVE_Pn.DEMAND (a : Nat) : Fld := ⟨(0x10030020 + 4 * a), 16, 10, 0, anyCode⟩
def R.CADENCE.LIVE_Pn.CAPACITY (a : Nat) : Fld := ⟨(0x10030020 + 4 * a), 0, 10, 0, anyCode⟩
def R.CADENCE.SVC_LIVE.CORE (j : Nat) : Fld := ⟨0x10030030, (8 * j), 8, 0, anyCode⟩
def R.CADENCE.LIMITER.SPREAD : Fld := ⟨0x10030034, 8, 8, 0, anyCode⟩
def R.CADENCE.LIMITER.METRO : Fld := ⟨0x10030034, 0, 4, 0, anyCode⟩
def R.CADENCE.SHED_TH.TH0 : Fld := ⟨0x10030040, 24, 8, 88, anyCode⟩
def R.CADENCE.SHED_TH.TH1 : Fld := ⟨0x10030040, 16, 8, 80, anyCode⟩
def R.CADENCE.SHED_TH.TH2 : Fld := ⟨0x10030040, 8, 8, 64, anyCode⟩
def R.CADENCE.SHED_TH.TH3 : Fld := ⟨0x10030040, 0, 8, 48, anyCode⟩
def R.CADENCE.TRUMP_TC.TC_MIN : Fld := ⟨0x10030044, 0, 4, 12, anyCode⟩
def R.CADENCE.SHED_Pn_Ck.COUNT (a : Nat) (c : Nat) : Fld := ⟨(0x10030100 + 40 * a + 8 * c), 0, 64, 0, anyCode⟩
def R.DEAL.STATUS.CODE : Fld := ⟨0x10010000, 24, 8, 0, anyCode⟩
def R.DEAL.STATUS.STEP : Fld := ⟨0x10010000, 20, 4, 0, anyCode⟩
def R.DEAL.STATUS.LOCKED : Fld := ⟨0x10010000, 19, 1, 0, anyCode⟩
def R.DEAL.STATUS.FWD : Fld := ⟨0x10010000, 18, 1, 0, anyCode⟩
def R.DEAL.STATUS.SVC : Fld := ⟨0x10010000, 17, 1, 0, anyCode⟩
def R.DEAL.STATUS.CLAIMED : Fld := ⟨0x10010000, 16, 1, 0, anyCode⟩
def R.DEAL.STATUS.SLOT_FAIL_SEEN : Fld := ⟨0x10010000, 15, 1, 0, anyCode⟩
def R.DEAL.STATUS.CLAIM_DONE : Fld := ⟨0x10010000, 14, 1, 0, anyCode⟩
def R.DEAL.STATUS.SLOT : Fld := ⟨0x10010000, 12, 2, 0, anyCode⟩
def R.DEAL.STATUS.BAND : Fld := ⟨0x10010000, 0, 3, 0, anyCode⟩
def R.DEAL.T_FWD.T_FWD : Fld := ⟨0x10010004, 0, 32, 0, anyCode⟩
def R.DEAL.T_SVC.T_SVC : Fld := ⟨0x10010008, 0, 32, 0, anyCode⟩
def R.DEAL.DEADLINE.DEADLINE : Fld := ⟨0x1001000c, 0, 32, 0, anyCode⟩
def R.DEAL.IMAGE_LEN.LEN : Fld := ⟨0x10010010, 0, 32, 0, anyCode⟩
def R.DEAL.IMAGE_VER.VER : Fld := ⟨0x10010014, 0, 8, 0, anyCode⟩
def R.DEAL.SLOT_A.VER : Fld := ⟨0x10010018, 8, 8, 0, anyCode⟩
def R.DEAL.SLOT_A.RESULT : Fld := ⟨0x10010018, 0, 8, 0, anyCode⟩
def R.DEAL.SLOT_B.VER : Fld := ⟨0x1001001c, 8, 8, 0, anyCode⟩
def R.DEAL.SLOT_B.RESULT : Fld := ⟨0x1001001c, 0, 8, 0, anyCode⟩
def R.DEAL.FLOOR.FLOOR : Fld := ⟨0x10010020, 0, 8, 0, anyCode⟩
def R.DEAL.JUNCTION.TJ : Fld := ⟨0x10010024, 0, 8, 0, anyCode⟩
def R.DEAL.RST_CAUSE.CAUSE : Fld := ⟨0x10010028, 0, 2, 0, anyCode⟩
def R.DEAL.DEAL_COUNT.COUNT : Fld := ⟨0x1001002c, 0, 32, 0, anyCode⟩
def R.DEAL.IMAGE_HASH_k.HASH (a : Nat) : Fld := ⟨(0x10010040 + 4 * a), 0, 32, 0, anyCode⟩
def R.DEAL.DECK_STATE.UPDATE_BUSY : Fld := ⟨0x10010100, 5, 1, 0, anyCode⟩
def R.DEAL.DECK_STATE.PWR_ON : Fld := ⟨0x10010100, 4, 1, 0, anyCode⟩
def R.DEAL.DECK_STATE.JOURNAL_PAUSED : Fld := ⟨0x10010100, 3, 1, 0, anyCode⟩
def R.DEAL.DECK_STATE.FOREIGN : Fld := ⟨0x10010100, 2, 1, 0, anyCode⟩
def R.DEAL.DECK_STATE.DEALT : Fld := ⟨0x10010100, 1, 1, 0, anyCode⟩
def R.DEAL.DECK_STATE.PRESENT : Fld := ⟨0x10010100, 0, 1, 0, anyCode⟩
def R.DEAL.DECK_SERIAL_k.SERIAL (a : Nat) : Fld := ⟨(0x10010104 + 4 * a), 0, 32, 0, anyCode⟩
def R.DEAL.OTHER_SERIAL_k.SERIAL (a : Nat) : Fld := ⟨(0x10010114 + 4 * a), 0, 32, 0, anyCode⟩
def R.DEAL.JOURNAL.HEAD : Fld := ⟨0x10010124, 16, 12, 0, anyCode⟩
def R.DEAL.JOURNAL.QUEUED : Fld := ⟨0x10010124, 8, 5, 0, anyCode⟩
def R.DEAL.JOURNAL.BUDGET : Fld := ⟨0x10010124, 0, 4, 1, anyCode⟩
def R.DEAL.JOURNAL_PASS.PASS : Fld := ⟨0x10010128, 0, 32, 0, anyCode⟩
def R.DEAL.JOURNAL_DROP.DROP : Fld := ⟨0x1001012c, 0, 32, 0, anyCode⟩
def R.DEAL.SLOT_WRITES.SLOT_B : Fld := ⟨0x10010130, 16, 16, 0, anyCode⟩
def R.DEAL.SLOT_WRITES.SLOT_A : Fld := ⟨0x10010130, 0, 16, 0, anyCode⟩
def R.DEAL.DECK_LIFE.SLOT_A : Fld := ⟨0x10010134, 24, 8, 0, anyCode⟩
def R.DEAL.DECK_LIFE.SLOT_B : Fld := ⟨0x10010134, 16, 8, 0, anyCode⟩
def R.DEAL.DECK_LIFE.JOURNAL : Fld := ⟨0x10010134, 8, 8, 0, anyCode⟩
def R.DEAL.DECK_LIFE.LIFE : Fld := ⟨0x10010134, 0, 8, 0, anyCode⟩
def R.DEAL.LIFE_TH.TH : Fld := ⟨0x10010138, 0, 7, 20, rng 1 100⟩
def R.DEAL.UPDATE.RESULT : Fld := ⟨0x1001013c, 24, 8, 0, anyCode⟩
def R.DEAL.UPDATE.PROGRESS : Fld := ⟨0x1001013c, 16, 8, 0, anyCode⟩
def R.DEAL.UPDATE.TARGET : Fld := ⟨0x1001013c, 0, 2, 0, anyCode⟩
def R.DEAL.REGSET_SKIP.LAST : Fld := ⟨0x10010140, 16, 16, 0, anyCode⟩
def R.DEAL.REGSET_SKIP.COUNT : Fld := ⟨0x10010140, 0, 16, 0, anyCode⟩
def R.DEAL.REMOVALS.COUNT : Fld := ⟨0x10010144, 0, 32, 0, anyCode⟩
def R.SEC.STATUS.SCOPE : Fld := ⟨0x10020000, 8, 4, 0, anyCode⟩
def R.SEC.STATUS.TAMPER_LATCHED : Fld := ⟨0x10020000, 7, 1, 0, anyCode⟩
def R.SEC.STATUS.KEYSTORE_OK : Fld := ⟨0x10020000, 6, 1, 0, anyCode⟩
def R.SEC.STATUS.DEBUG : Fld := ⟨0x10020000, 4, 2, 0, anyCode⟩
def R.SEC.STATUS.FLOOR_PENDING : Fld := ⟨0x10020000, 3, 1, 0, anyCode⟩
def R.SEC.STATUS.CLAIM_RESUMED : Fld := ⟨0x10020000, 1, 1, 0, anyCode⟩
def R.SEC.STATUS.CLAIMED : Fld := ⟨0x10020000, 0, 1, 0, anyCode⟩
def R.SEC.DEVICE_ID_k.ID (a : Nat) : Fld := ⟨(0x10020004 + 4 * a), 0, 32, (rstDeviceId a), anyCode⟩
def R.SEC.OWNER_HASH_k.HASH (a : Nat) : Fld := ⟨(0x10020014 + 4 * a), 0, 32, 0, anyCode⟩
def R.SEC.FLOOR.TARGET : Fld := ⟨0x10020044, 8, 8, 0, anyCode⟩
def R.SEC.FLOOR.FLOOR : Fld := ⟨0x10020044, 0, 8, 0, anyCode⟩
def R.SEC.FLOOR_CFG.DELAY : Fld := ⟨0x10020048, 0, 14, 60, rng 0 10080⟩
def R.SEC.DEBUG_TIME.REMAIN : Fld := ⟨0x1002004c, 0, 11, 0, anyCode⟩
def R.SEC.UNLOCKS.FAILS : Fld := ⟨0x10020050, 16, 16, 0, anyCode⟩
def R.SEC.UNLOCKS.COUNT : Fld := ⟨0x10020050, 0, 16, 0, anyCode⟩
def R.SEC.LAST_CHALLENGE_k.ID (a : Nat) : Fld := ⟨(0x10020054 + 4 * a), 0, 32, 0, anyCode⟩
def R.SEC.TAMPER.MON_TEMP : Fld := ⟨0x1002005c, 3, 1, 0, anyCode⟩
def R.SEC.TAMPER.MON_SUPPLY : Fld := ⟨0x1002005c, 2, 1, 0, anyCode⟩
def R.SEC.TAMPER.LEVEL : Fld := ⟨0x1002005c, 1, 1, 1, anyCode⟩
def R.SEC.TAMPER.SEEN : Fld := ⟨0x1002005c, 0, 1, 0, anyCode⟩
def R.SEC.ATTEST_COUNT.SEQ : Fld := ⟨0x10020060, 0, 32, 0, anyCode⟩
def R.SEC.DELEGATES.COUNT : Fld := ⟨0x10020064, 0, 5, 0, anyCode⟩
def R.LANE.CTRL.RX_INV (n : Nat) : Fld := ⟨(0x10600000 + 0x1000 * n), 11, 1, 0, anyCode⟩
def R.LANE.CTRL.TX_INV (n : Nat) : Fld := ⟨(0x10600000 + 0x1000 * n), 10, 1, 0, anyCode⟩
def R.LANE.CTRL.LOOPBACK (n : Nat) : Fld := ⟨(0x10600000 + 0x1000 * n), 8, 2, 0, rng 0 2⟩
def R.LANE.CTRL.FEC (n : Nat) : Fld := ⟨(0x10600000 + 0x1000 * n), 4, 2, 0, rng 0 2⟩
def R.LANE.CTRL.MODE (n : Nat) : Fld := ⟨(0x10600000 + 0x1000 * n), 0, 3, 0, anyCode⟩
def R.LANE.STATUS.GANGED (n : Nat) : Fld := ⟨(0x10600004 + 0x1000 * n), 6, 1, 0, anyCode⟩
def R.LANE.STATUS.FEC_ALIGN (n : Nat) : Fld := ⟨(0x10600004 + 0x1000 * n), 5, 1, 0, anyCode⟩
def R.LANE.STATUS.HI_BER (n : Nat) : Fld := ⟨(0x10600004 + 0x1000 * n), 4, 1, 0, anyCode⟩
def R.LANE.STATUS.LOCK (n : Nat) : Fld := ⟨(0x10600004 + 0x1000 * n), 3, 1, 0, anyCode⟩
def R.LANE.STATUS.SIGNAL (n : Nat) : Fld := ⟨(0x10600004 + 0x1000 * n), 2, 1, 0, anyCode⟩
def R.LANE.STATUS.POWERED (n : Nat) : Fld := ⟨(0x10600004 + 0x1000 * n), 1, 1, 0, anyCode⟩
def R.LANE.STICKY.SEEN (n : Nat) : Fld := ⟨(0x10600008 + 0x1000 * n), 2, 3, 0, anyCode⟩
def R.LANE.TX_EQ.POST (n : Nat) : Fld := ⟨(0x10600010 + 0x1000 * n), 12, 6, 0, anyCode⟩
def R.LANE.TX_EQ.MAIN (n : Nat) : Fld := ⟨(0x10600010 + 0x1000 * n), 6, 6, 48, anyCode⟩
def R.LANE.TX_EQ.PRE (n : Nat) : Fld := ⟨(0x10600010 + 0x1000 * n), 0, 6, 0, anyCode⟩
def R.LANE.RX_EQ.CTLE (n : Nat) : Fld := ⟨(0x10600014 + 0x1000 * n), 8, 5, 16, anyCode⟩
def R.LANE.RX_EQ.ADAPT (n : Nat) : Fld := ⟨(0x10600014 + 0x1000 * n), 0, 1, 1, anyCode⟩
def R.LANE.FEC_CORR.COUNT (n : Nat) : Fld := ⟨(0x10600020 + 0x1000 * n), 0, 32, 0, anyCode⟩
def R.LANE.FEC_UNCORR.COUNT (n : Nat) : Fld := ⟨(0x10600024 + 0x1000 * n), 0, 32, 0, anyCode⟩
def R.LANE.ERR_BLOCKS.COUNT (n : Nat) : Fld := ⟨(0x10600028 + 0x1000 * n), 0, 32, 0, anyCode⟩
def R.PORT.CTRL.SGMII_SPEED (n : Nat) : Fld := ⟨(0x10800000 + 0x10000 * n), 6, 2, 2, rng 0 2⟩
def R.PORT.CTRL.CUT_OUT_EN (n : Nat) : Fld := ⟨(0x10800000 + 0x10000 * n), 5, 1, 0, anyCode⟩
def R.PORT.CTRL.CUT_IN_EN (n : Nat) : Fld := ⟨(0x10800000 + 0x10000 * n), 4, 1, 0, anyCode⟩
def R.PORT.CTRL.DRAIN_MODE (n : Nat) : Fld := ⟨(0x10800000 + 0x10000 * n), 3, 1, 0, anyCode⟩
def R.PORT.CTRL.AN (n : Nat) : Fld := ⟨(0x10800000 + 0x10000 * n), 2, 1, 1, anyCode⟩
def R.PORT.CTRL.EN (n : Nat) : Fld := ⟨(0x10800000 + 0x10000 * n), 0, 1, 1, anyCode⟩
def R.PORT.CFG.MAX_LEN (n : Nat) : Fld := ⟨(0x10800004 + 0x10000 * n), 0, 14, 1522, rng 1518 9216⟩
def R.PORT.LINK_HOLD.HOLD_UP (n : Nat) : Fld := ⟨(0x10800008 + 0x10000 * n), 16, 10, 10, rng 0 1000⟩
def R.PORT.LINK_HOLD.HOLD_DOWN (n : Nat) : Fld := ⟨(0x10800008 + 0x10000 * n), 0, 16, 0, rng 0 50000⟩
def R.PORT.DRAIN_TO.TIMEOUT (n : Nat) : Fld := ⟨(0x1080000c + 0x10000 * n), 0, 20, 10000, rng 1 1000000⟩
def R.PORT.STATUS.QUIESCED (n : Nat) : Fld := ⟨(0x10800010 + 0x10000 * n), 12, 1, 0, anyCode⟩
def R.PORT.STATUS.CTRL_OPER (n : Nat) : Fld := ⟨(0x10800010 + 0x10000 * n), 11, 1, 0, anyCode⟩
def R.PORT.STATUS.SPEED (n : Nat) : Fld := ⟨(0x10800010 + 0x10000 * n), 8, 3, 0, anyCode⟩
def R.PORT.STATUS.DOWN_REASON (n : Nat) : Fld := ⟨(0x10800010 + 0x10000 * n), 4, 4, 1, anyCode⟩
def R.PORT.STATUS.HOLDING (n : Nat) : Fld := ⟨(0x10800010 + 0x10000 * n), 1, 1, 0, anyCode⟩
def R.PORT.STATUS.LINK (n : Nat) : Fld := ⟨(0x10800010 + 0x10000 * n), 0, 1, 0, anyCode⟩
def R.PORT.STICKY.DRAIN_TIMEOUT_SEEN (n : Nat) : Fld := ⟨(0x10800014 + 0x10000 * n), 3, 1, 0, anyCode⟩
def R.PORT.STICKY.PN_TH_SEEN (n : Nat) : Fld := ⟨(0x10800014 + 0x10000 * n), 2, 1, 0, anyCode⟩
def R.PORT.STICKY.LINK_UP_SEEN (n : Nat) : Fld := ⟨(0x10800014 + 0x10000 * n), 1, 1, 0, anyCode⟩
def R.PORT.STICKY.LINK_DOWN_SEEN (n : Nat) : Fld := ⟨(0x10800014 + 0x10000 * n), 0, 1, 0, anyCode⟩
def R.PORT.LINK_DOWNS.COUNT (n : Nat) : Fld := ⟨(0x10800018 + 0x10000 * n), 0, 32, 0, anyCode⟩
def R.PORT.PRECLASS.TRUST (n : Nat) : Fld := ⟨(0x10800020 + 0x10000 * n), 8, 2, 1, anyCode⟩
def R.PORT.PRECLASS.DEFAULT_TC (n : Nat) : Fld := ⟨(0x10800020 + 0x10000 * n), 4, 4, 0, anyCode⟩
def R.PORT.PRECLASS.DEFAULT_DP (n : Nat) : Fld := ⟨(0x10800020 + 0x10000 * n), 0, 2, 3, anyCode⟩
def R.PORT.PCP_MAP_k.ENTRY (n : Nat) (a : Nat) (j : Nat) : Fld := ⟨(0x10800024 + 0x10000 * n + 4 * a), (8 * j), 6, (rstPcpMap (4 * a + j)), anyCode⟩
def R.PORT.MAC_LO.MAC (n : Nat) : Fld := ⟨(0x10800034 + 0x10000 * n), 0, 32, 0, anyCode⟩
def R.PORT.MAC_HI.MAC (n : Nat) : Fld := ⟨(0x10800038 + 0x10000 * n), 0, 16, 0, anyCode⟩
def R.PORT.DSCP_MAP_k.ENTRY (n : Nat) (a : Nat) (j : Nat) : Fld := ⟨(0x10800040 + 0x10000 * n + 4 * a), (8 * j), 6, (rstDscpMap (4 * a + j)), anyCode⟩
def R.PORT.ETYPE_k.EN (n : Nat) (a : Nat) : Fld := ⟨(0x10800080 + 0x10000 * n + 4 * a), 31, 1, 0, anyCode⟩
def R.PORT.ETYPE_k.DP (n : Nat) (a : Nat) : Fld := ⟨(0x10800080 + 0x10000 * n + 4 * a), 24, 2, 0, anyCode⟩
def R.PORT.ETYPE_k.TC (n : Nat) (a : Nat) : Fld := ⟨(0x10800080 + 0x10000 * n + 4 * a), 20, 4, 0, anyCode⟩
def R.PORT.ETYPE_k.ETYPE (n : Nat) (a : Nat) : Fld := ⟨(0x10800080 + 0x10000 * n + 4 * a), 0, 16, 0, anyCode⟩
def R.PORT.RX_FRAMES.COUNT (n : Nat) : Fld := ⟨(0x10800100 + 0x10000 * n), 0, 64, 0, anyCode⟩
def R.PORT.RX_BYTES.COUNT (n : Nat) : Fld := ⟨(0x10800108 + 0x10000 * n), 0, 64, 0, anyCode⟩
def R.PORT.TX_FRAMES.COUNT (n : Nat) : Fld := ⟨(0x10800110 + 0x10000 * n), 0, 64, 0, anyCode⟩
def R.PORT.TX_BYTES.COUNT (n : Nat) : Fld := ⟨(0x10800118 + 0x10000 * n), 0, 64, 0, anyCode⟩
def R.PORT.RX_ERR_k.COUNT (n : Nat) (a : Nat) : Fld := ⟨(0x10800120 + 0x10000 * n + 4 * a), 0, 32, 0, anyCode⟩
def R.PORT.DISC_c.COUNT (n : Nat) (a : Nat) : Fld := ⟨(0x10800200 + 0x10000 * n + 8 * a), 0, 64, 0, anyCode⟩
def R.PORT.SECY_CTRL.USE_SCB (n : Nat) : Fld := ⟨(0x10800400 + 0x10000 * n), 11, 1, 0, anyCode⟩
def R.PORT.SECY_CTRL.USE_ES (n : Nat) : Fld := ⟨(0x10800400 + 0x10000 * n), 10, 1, 0, anyCode⟩
def R.PORT.SECY_CTRL.INCLUDE_SCI (n : Nat) : Fld := ⟨(0x10800400 + 0x10000 * n), 9, 1, 1, anyCode⟩
def R.PORT.SECY_CTRL.REPLAY (n : Nat) : Fld := ⟨(0x10800400 + 0x10000 * n), 8, 1, 1, anyCode⟩
def R.PORT.SECY_CTRL.PROTECT_ONLY (n : Nat) : Fld := ⟨(0x10800400 + 0x10000 * n), 7, 1, 1, anyCode⟩
def R.PORT.SECY_CTRL.CONF_OFFSET (n : Nat) : Fld := ⟨(0x10800400 + 0x10000 * n), 5, 2, 0, anyCode⟩
def R.PORT.SECY_CTRL.VALIDATE (n : Nat) : Fld := ⟨(0x10800400 + 0x10000 * n), 3, 2, 2, rng 0 2⟩
def R.PORT.SECY_CTRL.CIPHER (n : Nat) : Fld := ⟨(0x10800400 + 0x10000 * n), 1, 2, 1, anyCode⟩
def R.PORT.SECY_CTRL.EN (n : Nat) : Fld := ⟨(0x10800400 + 0x10000 * n), 0, 1, 0, anyCode⟩
def R.PORT.REPLAY_WINDOW.WINDOW (n : Nat) : Fld := ⟨(0x10800404 + 0x10000 * n), 0, 32, 0, anyCode⟩
def R.PORT.PN_TH.TH (n : Nat) : Fld := ⟨(0x10800408 + 0x10000 * n), 0, 32, 3221225472, anyCode⟩
def R.PORT.SECY_STATUS.RX_SCS (n : Nat) : Fld := ⟨(0x1080040c + 0x10000 * n), 8, 3, 0, anyCode⟩
def R.PORT.SECY_STATUS.TX_SA_VALID (n : Nat) : Fld := ⟨(0x1080040c + 0x10000 * n), 2, 1, 0, anyCode⟩
def R.PORT.SECY_STATUS.TX_AN (n : Nat) : Fld := ⟨(0x1080040c + 0x10000 * n), 0, 2, 0, anyCode⟩
def R.PORT.MACSEC_STAT_k.COUNT (n : Nat) (a : Nat) : Fld := ⟨(0x10800440 + 0x10000 * n + 8 * a), 0, 64, 0, anyCode⟩
def R.TIME.OSC.SRC : Fld := ⟨0x10070000, 8, 2, 0, rng 0 2⟩
def R.TIME.OSC.PTP_INST : Fld := ⟨0x10070000, 4, 2, 0, anyCode⟩
def R.TIME.OSC.REF_LOCK : Fld := ⟨0x10070000, 1, 1, 0, anyCode⟩
def R.TIME.OSC.TCXO_OK : Fld := ⟨0x10070000, 0, 1, 1, anyCode⟩
def R.TIME.OSC_TRIM.TRIM : Fld := ⟨0x10070004, 0, 24, 0, anyCode⟩
def R.TIME.GATE.GATE_INST : Fld := ⟨0x10070008, 0, 2, 0, anyCode⟩
def R.TIME.CAPTURE.GO : Fld := ⟨0x1007000c, 0, 1, 0, anyCode⟩
def R.TIME.INST_i.CMD.CMD (a : Nat) : Fld := ⟨(0x10070040 + 32 * a), 0, 2, 0, anyCode⟩
def R.TIME.INST_i.SET_SEC_LO.SEC (a : Nat) : Fld := ⟨(0x10070044 + 32 * a), 0, 32, 0, anyCode⟩
def R.TIME.INST_i.SET_SEC_HI.SEC (a : Nat) : Fld := ⟨(0x10070048 + 32 * a), 0, 16, 0, anyCode⟩
def R.TIME.INST_i.SET_NS.NS (a : Nat) : Fld := ⟨(0x1007004c + 32 * a), 0, 30, 0, anyCode⟩
def R.TIME.INST_i.OFFSET.NS (a : Nat) : Fld := ⟨(0x10070050 + 32 * a), 0, 32, 0, anyCode⟩
def R.TIME.INST_i.RATE.RATE (a : Nat) : Fld := ⟨(0x10070054 + 32 * a), 0, 32, 0, anyCode⟩
def R.TIME.INST_i.STATUS.SYNC (a : Nat) : Fld := ⟨(0x10070058 + 32 * a), 8, 1, 0, anyCode⟩
def R.TIME.INST_i.STATUS.RATE_LIMIT (a : Nat) : Fld := ⟨(0x10070058 + 32 * a), 1, 1, 0, anyCode⟩
def R.TIME.INST_i.STATUS.STEP_SEEN (a : Nat) : Fld := ⟨(0x10070058 + 32 * a), 0, 1, 0, anyCode⟩
def R.TIME.INST_i.STEPS.COUNT (a : Nat) : Fld := ⟨(0x1007005c + 32 * a), 0, 32, 0, anyCode⟩
def R.TIME.SNAP_i.SEC_LO.SEC (a : Nat) : Fld := ⟨(0x100700c0 + 16 * a), 0, 32, 0, anyCode⟩
def R.TIME.SNAP_i.SEC_HI.SEC (a : Nat) : Fld := ⟨(0x100700c4 + 16 * a), 0, 16, 0, anyCode⟩
def R.TIME.SNAP_i.NS.NS (a : Nat) : Fld := ⟨(0x100700c8 + 16 * a), 0, 30, 0, anyCode⟩
def R.TIME.SNAP_i.FRAC.FRAC (a : Nat) : Fld := ⟨(0x100700cc + 16 * a), 0, 16, 0, anyCode⟩
def R.TIME.PPS_OUT.EN : Fld := ⟨0x10070100, 31, 1, 0, anyCode⟩
def R.TIME.PPS_OUT.INST : Fld := ⟨0x10070100, 28, 2, 0, anyCode⟩
def R.TIME.PPS_OUT.WIDTH : Fld := ⟨0x10070100, 0, 10, 100, rng 1 500⟩
def R.TIME.PPS_OUT_OFFSET.NS : Fld := ⟨0x10070104, 0, 32, 0, srng 1000000 1000000⟩
def R.TIME.PPS_IN.EN : Fld := ⟨0x10070108, 0, 1, 0, anyCode⟩
def R.TIME.PPS_IN_SEQ.COUNT : Fld := ⟨0x1007010c, 0, 32, 0, anyCode⟩
def R.TIME.PPS_IN_i.SEC_LO.SEC_LO (a : Nat) : Fld := ⟨(0x10070110 + 16 * a), 0, 32, 0, anyCode⟩
def R.TIME.PPS_IN_i.SEC_HI.SEC_HI (a : Nat) : Fld := ⟨(0x10070114 + 16 * a), 0, 16, 0, anyCode⟩
def R.TIME.PPS_IN_i.NS.NS (a : Nat) : Fld := ⟨(0x10070118 + 16 * a), 0, 30, 0, anyCode⟩
def R.TIME.PPS_IN_i.FRAC.FRAC (a : Nat) : Fld := ⟨(0x1007011c + 16 * a), 0, 16, 0, anyCode⟩
def R.TIME.PPS_IN_IGNORED.COUNT : Fld := ⟨0x10070150, 0, 32, 0, anyCode⟩
def R.TIME.ETS_HEAD.VALID : Fld := ⟨0x10070180, 31, 1, 0, anyCode⟩
def R.TIME.ETS_HEAD.PORT : Fld := ⟨0x10070180, 24, 6, 0, anyCode⟩
def R.TIME.ETS_HEAD.INST : Fld := ⟨0x10070180, 16, 2, 0, anyCode⟩
def R.TIME.ETS_HEAD.TAG : Fld := ⟨0x10070180, 0, 16, 0, anyCode⟩
def R.TIME.ETS_SEC_LO.SEC : Fld := ⟨0x10070184, 0, 32, 0, anyCode⟩
def R.TIME.ETS_SEC_HI.SEC : Fld := ⟨0x10070188, 0, 16, 0, anyCode⟩
def R.TIME.ETS_NS.NS : Fld := ⟨0x1007018c, 0, 30, 0, anyCode⟩
def R.TIME.ETS_POP.POP : Fld := ⟨0x10070190, 0, 1, 0, anyCode⟩
def R.TIME.ETS_LOST.COUNT : Fld := ⟨0x10070194, 0, 32, 0, anyCode⟩
def R.TIME.PORT_INST_k.INST (a : Nat) (j : Nat) : Fld := ⟨(0x100701a0 + 4 * a), (2 * j), 2, 0, anyCode⟩
def R.TIME.PORT_ADJ_n.RX (a : Nat) : Fld := ⟨(0x10070200 + 4 * a), 16, 16, 0, anyCode⟩
def R.TIME.PORT_ADJ_n.TX (a : Nat) : Fld := ⟨(0x10070200 + 4 * a), 0, 16, 0, anyCode⟩
def R.PARSE.START_k.NODE (a : Nat) (j : Nat) : Fld := ⟨(0x100a0010 + 4 * a), (8 * j), 8, 0, anyCode⟩
def R.PARSE.START_RECIRC.NODE : Fld := ⟨0x100a0040, 0, 8, 0, anyCode⟩
def R.PARSE.STATUS.PAT_OFF : Fld := ⟨0x100a0044, 0, 4, 0, anyCode⟩
def R.PARSE.XPOL_RATE_q.EN (a : Nat) : Fld := ⟨(0x100a0080 + 8 * a), 31, 1, 1, anyCode⟩
def R.PARSE.XPOL_RATE_q.RATE (a : Nat) : Fld := ⟨(0x100a0080 + 8 * a), 0, 24, 10000, rng 1 16777215⟩
def R.PARSE.XPOL_BURST_q.BURST (a : Nat) : Fld := ⟨(0x100a0084 + 8 * a), 0, 16, 64, rng 1 65535⟩
def R.PARSE.OUTCOME_Pp_c.COUNT (a : Nat) (c : Nat) : Fld := ⟨(0x100a0100 + 32 * a + 4 * c), 0, 32, 0, anyCode⟩
def R.PARSE.OUTCOME_Pp_DEFERRED.COUNT (a : Nat) : Fld := ⟨(0x100a0118 + 32 * a), 0, 32, 0, anyCode⟩
def R.PARSE.OUTCOME_Pp_CSUM_SKIPPED.COUNT (a : Nat) : Fld := ⟨(0x100a011c + 32 * a), 0, 32, 0, anyCode⟩
def R.PARSE.XPOL_DROP_q.COUNT (a : Nat) : Fld := ⟨(0x100a0180 + 4 * a), 0, 32, 0, anyCode⟩
def R.TABLES.RULESET_ACTIVE.BANK : Fld := ⟨0x100b0000, 0, 2, 0, anyCode⟩
def R.TABLES.RULESET_STATUS.SWAP_PENDING : Fld := ⟨0x100b0004, 8, 1, 0, anyCode⟩
def R.TABLES.RULESET_STATUS.STATE (j : Nat) : Fld := ⟨0x100b0004, (2 * j), 2, 0, anyCode⟩
def R.TABLES.INFLIGHT_k.COUNT (a : Nat) : Fld := ⟨(0x100b0008 + 4 * a), 0, 24, 0, anyCode⟩
def R.TABLES.RULE_BANKS.SIZE3 : Fld := ⟨0x100b0018, 24, 6, 0, anyCode⟩
def R.TABLES.RULE_BANKS.SIZE2 : Fld := ⟨0x100b0018, 16, 6, 0, anyCode⟩
def R.TABLES.RULE_BANKS.SIZE1 : Fld := ⟨0x100b0018, 8, 6, 0, anyCode⟩
def R.TABLES.RULE_BANKS.SIZE0 : Fld := ⟨0x100b0018, 0, 6, 48, anyCode⟩
def R.TABLES.DRAIN_LIMIT.LIMIT : Fld := ⟨0x100b001c, 0, 20, 10000, rng 1 1000000⟩
def R.TABLES.STICKY.LEARN_DROP_SEEN : Fld := ⟨0x100b0020, 6, 1, 0, anyCode⟩
def R.TABLES.STICKY.LEARN_FULL_SEEN : Fld := ⟨0x100b0020, 5, 1, 0, anyCode⟩
def R.TABLES.STICKY.SWAP_REFUSED : Fld := ⟨0x100b0020, 4, 1, 0, anyCode⟩
def R.TABLES.STICKY.DRAIN_LIMIT_SEEN : Fld := ⟨0x100b0020, 0, 4, 0, anyCode⟩
def R.TABLES.SEQ_LO.COUNT : Fld := ⟨0x100b0024, 0, 64, 0, anyCode⟩
def R.TABLES.MAC_AGE.TIME : Fld := ⟨0x100b0030, 0, 16, 300, rngz 10 65535⟩
def R.TABLES.MAC_CFG.REMOTE_LEARN : Fld := ⟨0x100b0034, 1, 1, 1, anyCode⟩
def R.TABLES.MAC_CFG.FLUSH_ON_DOWN : Fld := ⟨0x100b0034, 0, 1, 1, anyCode⟩
def R.TABLES.MAC_COUNT.VALID : Fld := ⟨0x100b0038, 0, 19, 0, anyCode⟩
def R.TABLES.MAC_STATIC.COUNT : Fld := ⟨0x100b003c, 0, 19, 0, anyCode⟩
def R.TABLES.LEARNS.COUNT : Fld := ⟨0x100b0040, 0, 32, 0, anyCode⟩
def R.TABLES.MAC_MOVES.COUNT : Fld := ⟨0x100b0044, 0, 32, 0, anyCode⟩
def R.TABLES.LEARN_FULL.COUNT : Fld := ⟨0x100b0048, 0, 32, 0, anyCode⟩
def R.TABLES.LEARN_DROP.COUNT : Fld := ⟨0x100b004c, 0, 32, 0, anyCode⟩
def R.TABLES.LPM_COUNT.VALID : Fld := ⟨0x100b0050, 0, 17, 0, anyCode⟩
def R.TABLES.HROLE.ETH : Fld := ⟨0x100b0054, 24, 6, 1, anyCode⟩
def R.TABLES.HROLE.VLAN_A : Fld := ⟨0x100b0054, 18, 6, 2, anyCode⟩
def R.TABLES.HROLE.VLAN_B : Fld := ⟨0x100b0054, 12, 6, 2, anyCode⟩
def R.TABLES.HROLE.IPV4 : Fld := ⟨0x100b0054, 6, 6, 3, anyCode⟩
def R.TABLES.HROLE.IPV6 : Fld := ⟨0x100b0054, 0, 6, 7, anyCode⟩
def R.TABLES.UPORT_MODE.OWNER : Fld := ⟨0x100b0058, 0, 8, 240, anyCode⟩
def R.TABLES.UPORT_STATUS.FULL : Fld := ⟨0x100b005c, 8, 8, 0, anyCode⟩
def R.TABLES.UPORT_STATUS.READY : Fld := ⟨0x100b005c, 0, 8, 0, anyCode⟩
def R.TABLES.PORT_KEY_k.KPROF_ODD (a : Nat) : Fld := ⟨(0x100b0080 + 4 * a), 28, 4, 0, anyCode⟩
def R.TABLES.PORT_KEY_k.PVID_ODD (a : Nat) : Fld := ⟨(0x100b0080 + 4 * a), 16, 12, 1, anyCode⟩
def R.TABLES.PORT_KEY_k.KPROF_EVEN (a : Nat) : Fld := ⟨(0x100b0080 + 4 * a), 12, 4, 0, anyCode⟩
def R.TABLES.PORT_KEY_k.PVID_EVEN (a : Nat) : Fld := ⟨(0x100b0080 + 4 * a), 0, 12, 1, anyCode⟩
def R.TABLES.KPROF_p.CTRL.MAC_EN (a : Nat) : Fld := ⟨(0x100b0100 + 16 * a), 31, 1, (rstKprof0 a), anyCode⟩
def R.TABLES.KPROF_p.CTRL.LEARN_EN (a : Nat) : Fld := ⟨(0x100b0100 + 16 * a), 30, 1, (rstKprof0 a), anyCode⟩
def R.TABLES.KPROF_p.CTRL.LPM_EN (a : Nat) : Fld := ⟨(0x100b0100 + 16 * a), 29, 1, 0, anyCode⟩
def R.TABLES.KPROF_p.CTRL.LPM_SRC (a : Nat) : Fld := ⟨(0x100b0100 + 16 * a), 28, 1, 0, anyCode⟩
def R.TABLES.KPROF_p.CTRL.RULE_EN (a : Nat) : Fld := ⟨(0x100b0100 + 16 * a), 27, 1, (rstKprof0 a), anyCode⟩
def R.TABLES.KPROF_p.CTRL.SF_EN (a : Nat) : Fld := ⟨(0x100b0100 + 16 * a), 26, 1, 0, anyCode⟩
def R.TABLES.KPROF_p.CTRL.FLOW_EN (a : Nat) : Fld := ⟨(0x100b0100 + 16 * a), 25, 1, 0, anyCode⟩
def R.TABLES.KPROF_p.CTRL.FLOW_PROF (a : Nat) : Fld := ⟨(0x100b0100 + 16 * a), 21, 4, 0, anyCode⟩
def R.TABLES.KPROF_p.CTRL.VRF (a : Nat) : Fld := ⟨(0x100b0100 + 16 * a), 9, 12, 0, anyCode⟩
def R.TABLES.KPROF_p.FRAG_01.FRAG1 (a : Nat) : Fld := ⟨(0x100b0104 + 16 * a), 16, 16, 0, anyCode⟩
def R.TABLES.KPROF_p.FRAG_01.FRAG0 (a : Nat) : Fld := ⟨(0x100b0104 + 16 * a), 0, 16, 0, anyCode⟩
def R.TABLES.KPROF_p.FRAG_23.FRAG3 (a : Nat) : Fld := ⟨(0x100b0108 + 16 * a), 16, 16, 0, anyCode⟩
def R.TABLES.KPROF_p.FRAG_23.FRAG2 (a : Nat) : Fld := ⟨(0x100b0108 + 16 * a), 0, 16, 0, anyCode⟩
def R.TABLES.KPROF_p.FRAG_45.FRAG5 (a : Nat) : Fld := ⟨(0x100b010c + 16 * a), 16, 16, 0, anyCode⟩
def R.TABLES.KPROF_p.FRAG_45.FRAG4 (a : Nat) : Fld := ⟨(0x100b010c + 16 * a), 0, 16, 0, anyCode⟩
def R.FLOW.CTRL.CACHE_EN : Fld := ⟨0x100c0000, 12, 2, 3, anyCode⟩
def R.FLOW.CTRL.SLICE_EN : Fld := ⟨0x100c0000, 8, 4, 15, anyCode⟩
def R.FLOW.CTRL.EXPORT_EN : Fld := ⟨0x100c0000, 1, 1, 1, anyCode⟩
def R.FLOW.CTRL.SWEEP_EN : Fld := ⟨0x100c0000, 0, 1, 1, anyCode⟩
def R.FLOW.CFG.DEADLINE : Fld := ⟨0x100c0004, 8, 6, 6, rng 4 50⟩
def R.FLOW.CFG.RELOC_DEPTH : Fld := ⟨0x100c0004, 0, 4, 8, rng 1 8⟩
def R.FLOW.STASH_TH.TH : Fld := ⟨0x100c0008, 0, 13, 3072, rng 1 4096⟩
def R.FLOW.SWEEP.PASS : Fld := ⟨0x100c000c, 0, 12, 10, rng 1 3600⟩
def R.FLOW.EXPORT.FLUSH : Fld := ⟨0x100c0010, 16, 10, 1, rng 1 1000⟩
def R.FLOW.EXPORT.CHANNEL : Fld := ⟨0x100c0010, 0, 9, 16, expCh⟩
def R.FLOW.EXPORT_STALL.TIME : Fld := ⟨0x100c0014, 0, 16, 1000, rng 1 65535⟩
def R.FLOW.STATUS.FLUSH_BUSY : Fld := ⟨0x100c0018, 20, 1, 0, anyCode⟩
def R.FLOW.STATUS.CACHE_QUIESCED : Fld := ⟨0x100c0018, 16, 2, 0, anyCode⟩
def R.FLOW.STATUS.SLICE_QUIESCED : Fld := ⟨0x100c0018, 12, 4, 0, anyCode⟩
def R.FLOW.STATUS.PANIC : Fld := ⟨0x100c0018, 8, 4, 0, anyCode⟩
def R.FLOW.STATUS.STASH_HIGH : Fld := ⟨0x100c0018, 4, 4, 0, anyCode⟩
def R.FLOW.STATUS.FULL : Fld := ⟨0x100c0018, 0, 4, 0, anyCode⟩
def R.FLOW.STICKY.SEEN : Fld := ⟨0x100c001c, 0, 12, 0, anyCode⟩
def R.FLOW.SLICE_s_RECORDS.COUNT (a : Nat) : Fld := ⟨(0x100c0020 + 4 * a), 0, 25, 0, anyCode⟩
def R.FLOW.SLICE_s_STASH.COUNT (a : Nat) : Fld := ⟨(0x100c0030 + 4 * a), 0, 13, 0, anyCode⟩
def R.FLOW.SLICE_s_POISON.COUNT (a : Nat) : Fld := ⟨(0x100c0040 + 4 * a), 0, 5, 0, anyCode⟩
def R.FLOW.RESULT_r.COUNT (a : Nat) : Fld := ⟨(0x100c0100 + 8 * a), 0, 64, 0, anyCode⟩
def R.FLOW.RESULT_RETRIED.COUNT : Fld := ⟨0x100c0150, 0, 64, 0, anyCode⟩
def R.FLOW.EXPIRED_r.COUNT (a : Nat) : Fld := ⟨(0x100c0180 + 8 * a), 0, 64, 0, anyCode⟩
def R.FLOW.NOT_EXPORTED.COUNT : Fld := ⟨0x100c01a8, 0, 64, 0, anyCode⟩
def R.FLOW.EXPORT_BATCHES.COUNT : Fld := ⟨0x100c01b0, 0, 32, 0, anyCode⟩
def R.FLOW.RELOC_FAIL.COUNT : Fld := ⟨0x100c01b4, 0, 32, 0, anyCode⟩
def R.FLOW.QUARANTINED.COUNT : Fld := ⟨0x100c01b8, 0, 32, 0, anyCode⟩
def R.FLOW.KILL.GO : Fld := ⟨0x100c0300, 31, 1, 0, anyCode⟩
def R.FLOW.KILL.INDEX : Fld := ⟨0x100c0300, 0, 27, 0, anyCode⟩
def R.FLOW.FLUSH.GO : Fld := ⟨0x100c0304, 31, 1, 0, anyCode⟩
def R.FLOW.FLUSH.ALL : Fld := ⟨0x100c0304, 4, 1, 0, anyCode⟩
def R.FLOW.FLUSH.PROFILE : Fld := ⟨0x100c0304, 0, 4, 0, anyCode⟩
def R.FLOW.PEEK_INDEX.INDEX : Fld := ⟨0x100c0310, 0, 27, 0, anyCode⟩
def R.FLOW.PEEK_k.DATA (a : Nat) : Fld := ⟨(0x100c0380 + 4 * a), 0, 32, 0, anyCode⟩
def R.FLOW.KPARAM_p.TWIN (a : Nat) : Fld := ⟨(0x100c0200 + 4 * a), 28, 4, 0, anyCode⟩
def R.FLOW.KPARAM_p.SET (a : Nat) : Fld := ⟨(0x100c0200 + 4 * a), 24, 3, 0, anyCode⟩
def R.FLOW.KPARAM_p.EDIT (a : Nat) : Fld := ⟨(0x100c0200 + 4 * a), 16, 6, 0, anyCode⟩
def R.FLOW.KPARAM_p.CLOSE_ON_FIN (a : Nat) : Fld := ⟨(0x100c0200 + 4 * a), 8, 1, 0, anyCode⟩
def R.FLOW.KPARAM_p.STRICT (a : Nat) : Fld := ⟨(0x100c0200 + 4 * a), 4, 1, 1, anyCode⟩
def R.FLOW.KPARAM_p.DIR (a : Nat) : Fld := ⟨(0x100c0200 + 4 * a), 0, 1, 0, anyCode⟩
def R.FLOW.NATPOOL_k.ADDR.ADDR (a : Nat) : Fld := ⟨(0x100c0240 + 8 * a), 0, 32, 0, anyCode⟩
def R.FLOW.NATPOOL_k.PORTS.HIGH (a : Nat) : Fld := ⟨(0x100c0244 + 8 * a), 16, 16, 0, anyCode⟩
def R.FLOW.NATPOOL_k.PORTS.LOW (a : Nat) : Fld := ⟨(0x100c0244 + 8 * a), 0, 16, 0, anyCode⟩
def R.FLOW.LB_g.VALID (a : Nat) : Fld := ⟨(0x100c0280 + 4 * a), 16, 16, 0, anyCode⟩
def R.FLOW.LB_g.ACTION_BASE (a : Nat) : Fld := ⟨(0x100c0280 + 4 * a), 0, 16, 0, rng 0 65520⟩
def R.FLOW.RNAT_m.LOCAL.PREFIX (a : Nat) : Fld := ⟨(0x100c02a0 + 12 * a), 0, 32, 0, anyCode⟩
def R.FLOW.RNAT_m.TRAIN.PREFIX (a : Nat) : Fld := ⟨(0x100c02a4 + 12 * a), 0, 32, 0, anyCode⟩
def R.FLOW.RNAT_m.LEN.LEN (a : Nat) : Fld := ⟨(0x100c02a8 + 12 * a), 0, 6, 0, rng 0 32⟩
def R.FLOW.SAMPLE_CFG.N_MAX : Fld := ⟨0x100c02d0, 24, 7, 64, pow2s⟩
def R.FLOW.SAMPLE_CFG.STEP : Fld := ⟨0x100c02d0, 12, 12, 100, rng 10 4000⟩
def R.FLOW.SAMPLE_CFG.RELAX : Fld := ⟨0x100c02d0, 0, 12, 1000, rng 10 4000⟩
def R.FLOW.DEFER_CFG.DEFER_AFTER : Fld := ⟨0x100c02d4, 0, 16, 1000, anyCode⟩
def R.FLOW.SAMPLE_STATE.DEFER : Fld := ⟨0x100c02d8, 16, 4, 0, anyCode⟩
def R.FLOW.SAMPLE_STATE.LOG2N (j : Nat) : Fld := ⟨0x100c02d8, (4 * j), 3, 0, anyCode⟩
def R.FLOW.TCP.HTYPE : Fld := ⟨0x100c02dc, 0, 6, 0, anyCode⟩
def R.FLOW.NAT_EXHAUST.COUNT : Fld := ⟨0x100c02e0, 0, 32, 0, anyCode⟩
def R.FLOW.CT_REFUSED.COUNT : Fld := ⟨0x100c02e4, 0, 32, 0, anyCode⟩
def R.FLOW.REPINS.COUNT : Fld := ⟨0x100c02e8, 0, 32, 0, anyCode⟩
def R.FLOW.SAMPLE_SKIPS.COUNT : Fld := ⟨0x100c02ec, 0, 32, 0, anyCode⟩
def R.FLOW.DEFER_EPISODES.COUNT : Fld := ⟨0x100c02f0, 0, 32, 0, anyCode⟩
def R.FLOW.TWIN_LOST.COUNT : Fld := ⟨0x100c02f4, 0, 32, 0, anyCode⟩
def R.FLOW.LATE_BYTES.COUNT : Fld := ⟨0x100c02f8, 0, 32, 0, anyCode⟩
def R.EDIT.STICKY.MIRROR_DROP_SEEN : Fld := ⟨0x100d0000, 3, 1, 0, anyCode⟩
def R.EDIT.STICKY.FRER_ROGUE_SEEN : Fld := ⟨0x100d0000, 2, 1, 0, anyCode⟩
def R.EDIT.STICKY.EDIT_FAULT_SEEN : Fld := ⟨0x100d0000, 0, 1, 0, anyCode⟩
def R.EDIT.PORT_TPL_k.EN (a : Nat) (j : Nat) : Fld := ⟨(0x100d0010 + 4 * a), (7 + 8 * j), 1, 0, anyCode⟩
def R.EDIT.PORT_TPL_k.TPL (a : Nat) (j : Nat) : Fld := ⟨(0x100d0010 + 4 * a), (8 * j), 6, 0, anyCode⟩
def R.EDIT.PCP_REMARK_k.PCP (a : Nat) (j : Nat) : Fld := ⟨(0x100d0040 + 4 * a), (4 * j), 3, (rstPcpRemark (8 * a + j)), anyCode⟩
def R.EDIT.DSCP_REMARK_k.DSCP (a : Nat) (j : Nat) : Fld := ⟨(0x100d0048 + 4 * a), (8 * j), 6, (rstDscpRemark (4 * a + j)), anyCode⟩
def R.EDIT.FRER_CFG.HISTORY : Fld := ⟨0x100d0060, 16, 6, 32, rng 2 32⟩
def R.EDIT.FRER_CFG.RESET_MS : Fld := ⟨0x100d0060, 0, 16, 1000, rng 1 65535⟩
def R.EDIT.FRER_RESET.GO : Fld := ⟨0x100d0064, 31, 1, 0, anyCode⟩
def R.EDIT.FRER_RESET.STREAM : Fld := ⟨0x100d0064, 0, 12, 0, anyCode⟩
def R.EDIT.FRER_PEEK_INDEX.STREAM : Fld := ⟨0x100d0068, 0, 12, 0, anyCode⟩
def R.EDIT.FRER_PEEK_0.GEN_SEQ : Fld := ⟨0x100d0070, 16, 16, 0, anyCode⟩
def R.EDIT.FRER_PEEK_0.RCV_SEQ : Fld := ⟨0x100d0070, 0, 16, 0, anyCode⟩
def R.EDIT.FRER_PEEK_1.HISTORY : Fld := ⟨0x100d0074, 0, 32, 0, anyCode⟩
def R.EDIT.FRER_PEEK_2.TAKE_ANY : Fld := ⟨0x100d0078, 31, 1, 1, anyCode⟩
def R.EDIT.FRER_PEEK_2.ROGUE : Fld := ⟨0x100d0078, 0, 16, 0, anyCode⟩
def R.EDIT.FRER_PEEK_3.PASSED : Fld := ⟨0x100d007c, 0, 32, 0, anyCode⟩
def R.EDIT.FRER_PEEK_4.DISCARDED : Fld := ⟨0x100d0080, 0, 32, 0, anyCode⟩
def R.EDIT.FRER_PEEK_5.LOST : Fld := ⟨0x100d0084, 0, 32, 0, anyCode⟩
def R.EDIT.MIRROR_m.DEST.KIND (a : Nat) : Fld := ⟨(0x100d00c0 + 8 * a), 30, 2, 0, anyCode⟩
def R.EDIT.MIRROR_m.DEST.SEAT (a : Nat) : Fld := ⟨(0x100d00c0 + 8 * a), 16, 10, 0, anyCode⟩
def R.EDIT.MIRROR_m.DEST.QUEUE (a : Nat) : Fld := ⟨(0x100d00c0 + 8 * a), 8, 4, 0, anyCode⟩
def R.EDIT.MIRROR_m.DEST.PORT (a : Nat) : Fld := ⟨(0x100d00c0 + 8 * a), 0, 6, 0, anyCode⟩
def R.EDIT.MIRROR_m.CFG.CAUSE (a : Nat) : Fld := ⟨(0x100d00c4 + 8 * a), 24, 8, 6, anyCode⟩
def R.EDIT.MIRROR_m.CFG.TPL_EN (a : Nat) : Fld := ⟨(0x100d00c4 + 8 * a), 22, 1, 0, anyCode⟩
def R.EDIT.MIRROR_m.CFG.TPL (a : Nat) : Fld := ⟨(0x100d00c4 + 8 * a), 16, 6, 0, anyCode⟩
def R.EDIT.MIRROR_m.CFG.TRUNC (a : Nat) : Fld := ⟨(0x100d00c4 + 8 * a), 0, 14, 0, rng 0 9216⟩
def R.EDIT.EDIT_FAULTS.COUNT : Fld := ⟨0x100d0100, 0, 32, 0, anyCode⟩
def R.EDIT.EDIT_SKIPS.COUNT : Fld := ⟨0x100d0104, 0, 32, 0, anyCode⟩
def R.EDIT.MIRROR_DROP.COUNT : Fld := ⟨0x100d0108, 0, 32, 0, anyCode⟩
def R.BUF.CFG.MODE : Fld := ⟨0x100e0000, 0, 1, 0, anyCode⟩
def R.BUF.HEADROOM.CELLS : Fld := ⟨0x100e0004, 0, 18, 4096, rng 1024 16384⟩
def R.BUF.SHARED.SIZE : Fld := ⟨0x100e0008, 0, 18, 0, anyCode⟩
def R.BUF.SHARED_EFF.SIZE : Fld := ⟨0x100e000c, 0, 18, 0, anyCode⟩
def R.BUF.PG_MAP.PG (j : Nat) : Fld := ⟨0x100e0010, (2 * j), 2, (rstPgMap j), anyCode⟩
def R.BUF.DP_SCALE.SCALE (j : Nat) : Fld := ⟨0x100e0014, (5 * j), 5, 16, rng 1 16⟩
def R.BUF.SRC_PROF_k.PROF (a : Nat) (j : Nat) : Fld := ⟨(0x100e0020 + 4 * a), (3 * j), 3, 0, anyCode⟩
def R.BUF.ILIMIT_f_g.CELLS (a : Nat) (c : Nat) : Fld := ⟨(0x100e0040 + 16 * a + 4 * c), 0, 18, 131072, anyCode⟩
def R.BUF.COMMITTED.CELLS : Fld := ⟨0x100e00c0, 0, 18, 0, anyCode⟩
def R.BUF.FREE.CELLS : Fld := ⟨0x100e00c4, 0, 18, 131072, anyCode⟩
def R.BUF.SHARED_USED.CELLS : Fld := ⟨0x100e00c8, 0, 18, 0, anyCode⟩
def R.BUF.SPARE.BANK : Fld := ⟨0x100e00cc, 0, 5, 16, anyCode⟩
def R.BUF.BANK_STATE_k.STATE (a : Nat) (j : Nat) : Fld := ⟨(0x100e00d0 + 4 * a), (4 * j), 4, (rstBankState (8 * a + j)), anyCode⟩
def R.BUF.ROT_CFG.DRAIN_TO : Fld := ⟨0x100e00e0, 16, 16, 5000, rng 1 65535⟩
def R.BUF.ROT_CFG.PERIOD : Fld := ⟨0x100e00e0, 0, 16, 0, anyCode⟩
def R.BUF.TEST_REQ.GO : Fld := ⟨0x100e00e4, 31, 1, 0, anyCode⟩
def R.BUF.TEST_REQ.ALL : Fld := ⟨0x100e00e4, 8, 1, 0, anyCode⟩
def R.BUF.TEST_REQ.BANK : Fld := ⟨0x100e00e4, 0, 5, 0, anyCode⟩
def R.BUF.TEST_STATUS.RESULT : Fld := ⟨0x100e00e8, 24, 8, 0, anyCode⟩
def R.BUF.TEST_STATUS.BANK : Fld := ⟨0x100e00e8, 16, 5, 0, anyCode⟩
def R.BUF.TEST_STATUS.QUEUED : Fld := ⟨0x100e00e8, 8, 3, 0, anyCode⟩
def R.BUF.TEST_STATUS.CURRENT : Fld := ⟨0x100e00e8, 0, 5, 31, anyCode⟩
def R.BUF.STICKY.STOMP_SEEN : Fld := ⟨0x100e00ec, 4, 1, 0, anyCode⟩
def R.BUF.STICKY.NO_CELL_SEEN : Fld := ⟨0x100e00ec, 3, 1, 0, anyCode⟩
def R.BUF.STICKY.CRC_RETRY_SEEN : Fld := ⟨0x100e00ec, 2, 1, 0, anyCode⟩
def R.BUF.STICKY.DRAIN_TIMEOUT_SEEN : Fld := ⟨0x100e00ec, 1, 1, 0, anyCode⟩
def R.BUF.STICKY.RECIRC_YIELD_SEEN : Fld := ⟨0x100e00ec, 0, 1, 0, anyCode⟩
def R.BUF.QPEEK_INDEX.QUEUE : Fld := ⟨0x100e00f0, 0, 10, 0, anyCode⟩
def R.BUF.QPEEK_FILL.CELLS : Fld := ⟨0x100e00f4, 0, 18, 0, anyCode⟩
def R.BUF.QPEEK_SHARED.CELLS : Fld := ⟨0x100e00f8, 0, 18, 0, anyCode⟩
def R.BUF.IPEEK_INDEX.INDEX : Fld := ⟨0x100e00fc, 0, 8, 0, anyCode⟩
def R.BUF.IPEEK_FILL.CELLS : Fld := ⟨0x100e0100, 0, 18, 0, anyCode⟩
def R.BUF.CRC_RETRIES_b.COUNT (a : Nat) : Fld := ⟨(0x100e0140 + 4 * a), 0, 32, 0, anyCode⟩
def R.BUF.CRC_PERSIST.COUNT : Fld := ⟨0x100e0184, 0, 32, 0, anyCode⟩
def R.BUF.NO_CELL.COUNT : Fld := ⟨0x100e0188, 0, 32, 0, anyCode⟩
def R.BUF.COPY_DROP.COUNT : Fld := ⟨0x100e018c, 0, 32, 0, anyCode⟩
def R.BUF.ROTATIONS.COUNT : Fld := ⟨0x100e0190, 0, 32, 0, anyCode⟩
def R.BUF.RECIRC_YIELD.COUNT : Fld := ⟨0x100e0194, 0, 32, 0, anyCode⟩
def R.BUF.STOMPED_p.COUNT (a : Nat) : Fld := ⟨(0x100e0200 + 4 * a), 0, 32, 0, anyCode⟩
def R.TM.CTRL.QUANTUM (n : Nat) : Fld := ⟨(0x10100000 + 0x1000 * n), 16, 16, 2048, rng 64 65535⟩
def R.TM.CTRL.PORT_TB_EN (n : Nat) : Fld := ⟨(0x10100000 + 0x1000 * n), 11, 1, 0, anyCode⟩
def R.TM.CTRL.GATE_EN (n : Nat) : Fld := ⟨(0x10100000 + 0x1000 * n), 8, 1, 0, anyCode⟩
def R.TM.CTRL.TRUMP_COUNT (n : Nat) : Fld := ⟨(0x10100000 + 0x1000 * n), 0, 4, 4, rng 0 8⟩
def R.TM.OVERHEAD.OVERHEAD (n : Nat) : Fld := ⟨(0x10100004 + 0x1000 * n), 0, 8, (rstOverhead n), ovh⟩
def R.TM.PORT_RATE.RATE (n : Nat) : Fld := ⟨(0x10100008 + 0x1000 * n), 0, 32, 25000000, rng 1 100000000⟩
def R.TM.PORT_BURST.BURST (n : Nat) : Fld := ⟨(0x1010000c + 0x1000 * n), 0, 24, 16384, rng 64 16777215⟩
def R.TM.ADMIN_SEC_LO.SEC (n : Nat) : Fld := ⟨(0x10100010 + 0x1000 * n), 0, 32, 0, anyCode⟩
def R.TM.ADMIN_SEC_HI.COUNT (n : Nat) : Fld := ⟨(0x10100014 + 0x1000 * n), 16, 11, 0, rng 1 1024⟩
def R.TM.ADMIN_SEC_HI.SEC (n : Nat) : Fld := ⟨(0x10100014 + 0x1000 * n), 0, 16, 0, anyCode⟩
def R.TM.ADMIN_NS.NS (n : Nat) : Fld := ⟨(0x10100018 + 0x1000 * n), 0, 30, 0, rng 0 999999999⟩
def R.TM.ADMIN_CYCLE.CYCLE (n : Nat) : Fld := ⟨(0x1010001c + 0x1000 * n), 0, 32, 0, anyCode⟩
def R.TM.GATE_CMD.CANCEL (n : Nat) : Fld := ⟨(0x10100020 + 0x1000 * n), 1, 1, 0, anyCode⟩
def R.TM.GATE_CMD.ARM (n : Nat) : Fld := ⟨(0x10100020 + 0x1000 * n), 0, 1, 0, anyCode⟩
def R.TM.OPER_SEC_LO.SEC (n : Nat) : Fld := ⟨(0x10100024 + 0x1000 * n), 0, 32, 0, anyCode⟩
def R.TM.OPER_SEC_HI.COUNT (n : Nat) : Fld := ⟨(0x10100028 + 0x1000 * n), 16, 11, 0, anyCode⟩
def R.TM.OPER_SEC_HI.SEC (n : Nat) : Fld := ⟨(0x10100028 + 0x1000 * n), 0, 16, 0, anyCode⟩
def R.TM.OPER_NS.NS (n : Nat) : Fld := ⟨(0x1010002c + 0x1000 * n), 0, 30, 0, anyCode⟩
def R.TM.OPER_CYCLE.CYCLE (n : Nat) : Fld := ⟨(0x10100030 + 0x1000 * n), 0, 32, 0, anyCode⟩
def R.TM.GATE_STATUS.GATES (n : Nat) : Fld := ⟨(0x10100034 + 0x1000 * n), 16, 16, 65535, anyCode⟩
def R.TM.GATE_STATUS.ENTRY (n : Nat) : Fld := ⟨(0x10100034 + 0x1000 * n), 4, 11, 0, anyCode⟩
def R.TM.GATE_STATUS.RESTARTING (n : Nat) : Fld := ⟨(0x10100034 + 0x1000 * n), 1, 1, 0, anyCode⟩
def R.TM.GATE_STATUS.PENDING (n : Nat) : Fld := ⟨(0x10100034 + 0x1000 * n), 0, 1, 0, anyCode⟩
def R.TM.STICKY.RETURN_SEEN (n : Nat) : Fld := ⟨(0x10100038 + 0x1000 * n), 4, 1, 0, anyCode⟩
def R.TM.STICKY.OVERRUN_SEEN (n : Nat) : Fld := ⟨(0x10100038 + 0x1000 * n), 3, 1, 0, anyCode⟩
def R.TM.STICKY.ADMIN_LOCKED (n : Nat) : Fld := ⟨(0x10100038 + 0x1000 * n), 2, 1, 0, anyCode⟩
def R.TM.STICKY.LIST_ERROR (n : Nat) : Fld := ⟨(0x10100038 + 0x1000 * n), 1, 1, 0, anyCode⟩
def R.TM.STICKY.BASE_IN_PAST (n : Nat) : Fld := ⟨(0x10100038 + 0x1000 * n), 0, 1, 0, anyCode⟩
def R.TM.QSTATUS.NONEMPTY (n : Nat) : Fld := ⟨(0x1010003c + 0x1000 * n), 16, 16, 0, anyCode⟩
def R.TM.QSTATUS.HELD (n : Nat) : Fld := ⟨(0x1010003c + 0x1000 * n), 0, 16, 0, anyCode⟩
def R.TM.SF_PEEK_INDEX.FILTER : Fld := ⟨0x10138000, 0, 14, 0, anyCode⟩
def R.TM.SF_MATCHED.COUNT : Fld := ⟨0x10138004, 0, 32, 0, anyCode⟩
def R.TM.SF_PASSED.COUNT : Fld := ⟨0x10138008, 0, 32, 0, anyCode⟩
def R.TM.SF_SDU_DROP.COUNT : Fld := ⟨0x1013800c, 0, 32, 0, anyCode⟩
def R.TM.SF_GATE_DROP.COUNT : Fld := ⟨0x10138010, 0, 32, 0, anyCode⟩
def R.TM.SF_OCTET_DROP.COUNT : Fld := ⟨0x10138014, 0, 32, 0, anyCode⟩
def R.TM.SF_RED_DROP.COUNT : Fld := ⟨0x10138018, 0, 32, 0, anyCode⟩
def R.TM.SF_STATE.BLOCKED : Fld := ⟨0x1013801c, 0, 1, 0, anyCode⟩
def R.TM.SF_UNBLOCK.GO : Fld := ⟨0x10138020, 31, 1, 0, anyCode⟩
def R.TM.SF_UNBLOCK.FILTER : Fld := ⟨0x10138020, 0, 14, 0, anyCode⟩
def R.TM.SG_PEEK_INDEX.LIST : Fld := ⟨0x10138024, 0, 8, 0, anyCode⟩
def R.TM.SG_STATE.OPEN : Fld := ⟨0x10138028, 31, 1, 0, anyCode⟩
def R.TM.SG_STATE.ENTRY : Fld := ⟨0x10138028, 0, 6, 0, anyCode⟩
def R.TM.SG_OCTETS.BYTES : Fld := ⟨0x1013802c, 0, 24, 0, anyCode⟩
def R.TM.SF_MISSES.COUNT : Fld := ⟨0x10138030, 0, 32, 0, anyCode⟩
def R.TM.POLICE_STICKY.BLOCKED_SEEN : Fld := ⟨0x10138034, 3, 1, 0, anyCode⟩
def R.TM.POLICE_STICKY.RED_SEEN : Fld := ⟨0x10138034, 2, 1, 0, anyCode⟩
def R.TM.POLICE_STICKY.GATE_DROP_SEEN : Fld := ⟨0x10138034, 1, 1, 0, anyCode⟩
def R.TM.POLICE_STICKY.SDU_SEEN : Fld := ⟨0x10138034, 0, 1, 0, anyCode⟩
def R.TM.SF_YELLOW.COUNT : Fld := ⟨0x10138038, 0, 32, 0, anyCode⟩
def R.TM.SG_CYCLE.NS : Fld := ⟨0x1013803c, 0, 32, 0, anyCode⟩
def R.TM.METER_PEEK_INDEX.METER : Fld := ⟨0x10139000, 0, 14, 0, anyCode⟩
def R.TM.METER_GREEN.COUNT : Fld := ⟨0x10139004, 0, 32, 0, anyCode⟩
def R.TM.METER_YELLOW.COUNT : Fld := ⟨0x10139008, 0, 32, 0, anyCode⟩
def R.TM.METER_RED.COUNT : Fld := ⟨0x1013900c, 0, 32, 0, anyCode⟩
def R.TM.METER_TC.BYTES : Fld := ⟨0x10139010, 0, 24, 0, anyCode⟩
def R.TM.METER_TE.BYTES : Fld := ⟨0x10139014, 0, 24, 0, anyCode⟩
def R.TM.METER_STATE.MARK_ALL_RED : Fld := ⟨0x10139018, 0, 1, 0, anyCode⟩
def R.TM.METER_CLEAR_RED.GO : Fld := ⟨0x1013901c, 31, 1, 0, anyCode⟩
def R.TM.METER_CLEAR_RED.METER : Fld := ⟨0x1013901c, 0, 14, 0, anyCode⟩
def R.TM.RECIRC_FRAMES_Pn.COUNT (a : Nat) : Fld := ⟨(0x10139020 + 4 * a), 0, 32, 0, anyCode⟩
def R.TM.CBS_CLAMPS.COUNT : Fld := ⟨0x10139030, 0, 32, 0, anyCode⟩
def R.TM.TM_STICKY.CLAMP_SEEN : Fld := ⟨0x10139034, 1, 1, 0, anyCode⟩
def R.TM.TM_STICKY.SWAP_SEEN : Fld := ⟨0x10139034, 0, 1, 0, anyCode⟩
def R.TM.GATE_RETURNS.COUNT : Fld := ⟨0x10139038, 0, 32, 0, anyCode⟩
def R.TM.GATE_SWAPS.COUNT : Fld := ⟨0x1013903c, 0, 32, 0, anyCode⟩
def R.NLINK.CTRL.FEC (n : Nat) : Fld := ⟨(0x10500000 + 0x10000 * n), 2, 1, 0, anyCode⟩
def R.NLINK.CTRL.REACH (n : Nat) : Fld := ⟨(0x10500000 + 0x10000 * n), 1, 1, 0, anyCode⟩
def R.NLINK.CTRL.EN (n : Nat) : Fld := ⟨(0x10500000 + 0x10000 * n), 0, 1, 1, anyCode⟩
def R.NLINK.STATE.LAST_CAUSE (n : Nat) : Fld := ⟨(0x10500004 + 0x10000 * n), 24, 8, 0, anyCode⟩
def R.NLINK.STATE.QUIESCED (n : Nat) : Fld := ⟨(0x10500004 + 0x10000 * n), 8, 1, 0, anyCode⟩
def R.NLINK.STATE.KEY_PHASE (n : Nat) : Fld := ⟨(0x10500004 + 0x10000 * n), 5, 1, 0, anyCode⟩
def R.NLINK.STATE.LONG_WINDOW (n : Nat) : Fld := ⟨(0x10500004 + 0x10000 * n), 4, 1, 0, anyCode⟩
def R.NLINK.STATE.STATE (n : Nat) : Fld := ⟨(0x10500004 + 0x10000 * n), 0, 3, 0, anyCode⟩
def R.NLINK.PEER.VALID (n : Nat) : Fld := ⟨(0x10500008 + 0x10000 * n), 31, 1, 0, anyCode⟩
def R.NLINK.PEER.SEAT (n : Nat) : Fld := ⟨(0x10500008 + 0x10000 * n), 0, 10, 0, anyCode⟩
def R.NLINK.PEER_ID_k.ID (n : Nat) (a : Nat) : Fld := ⟨(0x1050000c + 0x10000 * n + 4 * a), 0, 32, 0, anyCode⟩
def R.NLINK.RTT.NS (n : Nat) : Fld := ⟨(0x10500020 + 0x10000 * n), 0, 24, 0, anyCode⟩
def R.NLINK.TIMERS.DOWN_TO (n : Nat) : Fld := ⟨(0x10500024 + 0x10000 * n), 16, 16, 50, rng 1 1000⟩
def R.NLINK.TIMERS.STOP_TO (n : Nat) : Fld := ⟨(0x10500024 + 0x10000 * n), 0, 8, 20, rng 5 255⟩
def R.NLINK.ACK_MARGIN.US (n : Nat) : Fld := ⟨(0x10500028 + 0x10000 * n), 0, 10, 20, rng 1 1000⟩
def R.NLINK.STALE_AGE.MS (n : Nat) : Fld := ⟨(0x1050002c + 0x10000 * n), 0, 16, 100, rng 1 65535⟩
def R.NLINK.WINDOW.BLOCKS (n : Nat) : Fld := ⟨(0x10500030 + 0x10000 * n), 0, 14, 0, anyCode⟩
def R.NLINK.SHARE_k.BLOCKS (n : Nat) (a : Nat) : Fld := ⟨(0x10500040 + 0x10000 * n + 4 * a), 0, 14, 512, rng 0 8192⟩
def R.NLINK.CLASS_MAP.DP (n : Nat) (j : Nat) : Fld := ⟨(0x10500060 + 0x10000 * n), (2 * j), 2, (rstClassMap j), anyCode⟩
def R.NLINK.STICKY.AUTH_FAIL_SEEN (n : Nat) : Fld := ⟨(0x10500064 + 0x10000 * n), 3, 1, 0, anyCode⟩
def R.NLINK.STICKY.RESEND_SEEN (n : Nat) : Fld := ⟨(0x10500064 + 0x10000 * n), 2, 1, 0, anyCode⟩
def R.NLINK.STICKY.DOWN_SEEN (n : Nat) : Fld := ⟨(0x10500064 + 0x10000 * n), 1, 1, 0, anyCode⟩
def R.NLINK.STICKY.UP_SEEN (n : Nat) : Fld := ⟨(0x10500064 + 0x10000 * n), 0, 1, 0, anyCode⟩
def R.NLINK.RESENT.COUNT (n : Nat) : Fld := ⟨(0x10500080 + 0x10000 * n), 0, 32, 0, anyCode⟩
def R.NLINK.CRC_ERR.COUNT (n : Nat) : Fld := ⟨(0x10500084 + 0x10000 * n), 0, 32, 0, anyCode⟩
def R.NLINK.AUTH_FAIL.COUNT (n : Nat) : Fld := ⟨(0x10500088 + 0x10000 * n), 0, 32, 0, anyCode⟩
def R.NLINK.OUT_OF_SEQ.COUNT (n : Nat) : Fld := ⟨(0x1050008c + 0x10000 * n), 0, 32, 0, anyCode⟩
def R.NLINK.BAD_TYPE.COUNT (n : Nat) : Fld := ⟨(0x10500090 + 0x10000 * n), 0, 32, 0, anyCode⟩
def R.NLINK.SESSIONS.COUNT (n : Nat) : Fld := ⟨(0x10500094 + 0x10000 * n), 0, 32, 0, anyCode⟩
def R.NLINK.REKEYS.COUNT (n : Nat) : Fld := ⟨(0x10500098 + 0x10000 * n), 0, 32, 0, anyCode⟩
def R.NLINK.RX_PARTIAL.COUNT (n : Nat) : Fld := ⟨(0x1050009c + 0x10000 * n), 0, 32, 0, anyCode⟩
def R.NLINK.RX_ABORT.COUNT (n : Nat) : Fld := ⟨(0x105000a0 + 0x10000 * n), 0, 32, 0, anyCode⟩
def R.NLINK.TX_BLOCKS.COUNT (n : Nat) : Fld := ⟨(0x105000c0 + 0x10000 * n), 0, 64, 0, anyCode⟩
def R.NLINK.RX_BLOCKS.COUNT (n : Nat) : Fld := ⟨(0x105000c8 + 0x10000 * n), 0, 64, 0, anyCode⟩
def R.NLINK.TX_FRAMES.COUNT (n : Nat) : Fld := ⟨(0x105000d0 + 0x10000 * n), 0, 64, 0, anyCode⟩
def R.NLINK.RX_FRAMES.COUNT (n : Nat) : Fld := ⟨(0x105000d8 + 0x10000 * n), 0, 64, 0, anyCode⟩
def R.NLINK.DISC_c.COUNT (n : Nat) (a : Nat) : Fld := ⟨(0x10500200 + 0x10000 * n + 8 * a), 0, 64, 0, anyCode⟩
def R.NLINK.SEAT.SEAT : Fld := ⟨0x10508000, 0, 10, 0, anyCode⟩
def R.NLINK.TABLE_ID.ID : Fld := ⟨0x10508004, 0, 32, 0, anyCode⟩
def R.NLINK.HOP_INIT.HOPS : Fld := ⟨0x10508008, 0, 6, 63, rng 2 63⟩
def R.NLINK.GUARD_TO.US : Fld := ⟨0x1050800c, 0, 16, 2000, rng 1 65535⟩
def R.NLINK.FLOOD_TREE.LINKS : Fld := ⟨0x10508010, 0, 8, 0, anyCode⟩
def R.NLINK.RT_INDEX.SEAT : Fld := ⟨0x10508014, 0, 10, 0, anyCode⟩
def R.NLINK.RT_ENTRY.ENTRY : Fld := ⟨0x10508018, 0, 32, 0, anyCode⟩
def R.NLINK.GUARDS.COUNT : Fld := ⟨0x1050801c, 0, 11, 0, anyCode⟩
def R.NLINK.GUARD_ECHO.COUNT : Fld := ⟨0x10508020, 0, 32, 0, anyCode⟩
def R.NLINK.GUARD_TIMEOUT.COUNT : Fld := ⟨0x10508024, 0, 32, 0, anyCode⟩
def R.NLINK.FAILOVERS.COUNT : Fld := ⟨0x10508028, 0, 32, 0, anyCode⟩
def R.NLINK.SEAT_STICKY.DUP_SEAT_SEEN : Fld := ⟨0x1050802c, 1, 1, 0, anyCode⟩
def R.NLINK.SEAT_STICKY.NO_ROUTE_SEEN : Fld := ⟨0x1050802c, 0, 1, 0, anyCode⟩
def R.FAULT.STATE.EXITING : Fld := ⟨0x10050000, 9, 1, 0, anyCode⟩
def R.FAULT.STATE.FORCED : Fld := ⟨0x10050000, 8, 1, 1, anyCode⟩
def R.FAULT.STATE.SVC_HELD : Fld := ⟨0x10050000, 7, 1, 0, anyCode⟩
def R.FAULT.STATE.GRAVE_LATCHED : Fld := ⟨0x10050000, 6, 1, 0, anyCode⟩
def R.FAULT.STATE.BYP : Fld := ⟨0x10050000, 5, 1, 1, anyCode⟩
def R.FAULT.STATE.FAULT_N : Fld := ⟨0x10050000, 4, 1, 1, anyCode⟩
def R.FAULT.STATE.PULSING : Fld := ⟨0x10050000, 3, 1, 0, anyCode⟩
def R.FAULT.STATE.FOLD : Fld := ⟨0x10050000, 0, 1, 1, anyCode⟩
def R.FAULT.CTRL.FAULT_PULSE : Fld := ⟨0x10050004, 31, 1, 0, anyCode⟩
def R.FAULT.CTRL.FAULT_N_SW : Fld := ⟨0x10050004, 8, 1, 0, anyCode⟩
def R.FAULT.CTRL.BYP_FORCE : Fld := ⟨0x10050004, 0, 4, 0, anyCode⟩
def R.FAULT.FOLD_EXIT.GO : Fld := ⟨0x10050008, 0, 1, 0, anyCode⟩
def R.FAULT.FOLD_REQ.GO : Fld := ⟨0x1005000c, 0, 1, 0, anyCode⟩
def R.FAULT.COUNTDOWN_c.US (a : Nat) : Fld := ⟨(0x10050010 + 4 * a), 0, 20, 10000, rng 10 1000000⟩
def R.FAULT.EXIT_REFUSED.REASON : Fld := ⟨0x10050020, 24, 8, 0, anyCode⟩
def R.FAULT.EXIT_REFUSED.COUNT : Fld := ⟨0x10050020, 0, 16, 0, anyCode⟩
def R.FAULT.SUMMARY.CLASS_SET : Fld := ⟨0x10050024, 0, 4, 0, anyCode⟩
def R.FAULT.FREEZE.CORES : Fld := ⟨0x10050028, 0, 4, 0, anyCode⟩
def R.FAULT.PARITY.STATE_PAR : Fld := ⟨0x1005002c, 1, 1, 0, anyCode⟩
def R.FAULT.PARITY.CFG_PAR : Fld := ⟨0x1005002c, 0, 1, 0, anyCode⟩
def R.FAULT.SET_COUNT_c.COUNT (a : Nat) : Fld := ⟨(0x10050030 + 4 * a), 0, 32, 0, anyCode⟩
def R.FAULT.FOLD_COUNT.COUNT : Fld := ⟨0x10050040, 0, 32, 0, anyCode⟩
def R.FAULT.EXIT_COUNT.COUNT : Fld := ⟨0x10050044, 0, 32, 0, anyCode⟩
def R.FAULT.ESCALATIONS.TO_FOLD : Fld := ⟨0x10050048, 16, 16, 0, anyCode⟩
def R.FAULT.ESCALATIONS.TO_RESTART : Fld := ⟨0x10050048, 0, 16, 0, anyCode⟩
def R.FAULT.RESTARTS.COUNT : Fld := ⟨0x1005004c, 0, 32, 0, anyCode⟩
def R.FAULT.T_FOLD.NS : Fld := ⟨0x10050050, 0, 16, 0, anyCode⟩
def R.FAULT.T_BYP.NS : Fld := ⟨0x10050054, 0, 16, 0, anyCode⟩
def R.FAULT.T_EXIT.NS : Fld := ⟨0x10050058, 0, 20, 0, anyCode⟩
def R.FAULT.FOLD_TIME.MS : Fld := ⟨0x1005005c, 0, 32, 0, anyCode⟩
def R.FAULT.PULSE_COUNT.COUNT : Fld := ⟨0x10050060, 0, 32, 0, anyCode⟩
def R.FAULT.BYP_MISMATCH.COUNT : Fld := ⟨0x10050064, 0, 32, 0, anyCode⟩
def R.FAULT.FORCED_FOLDS.COUNT : Fld := ⟨0x10050068, 0, 32, 0, anyCode⟩
def R.FAULT.REQ_COUNT.COUNT : Fld := ⟨0x1005006c, 0, 32, 0, anyCode⟩
def R.FAULT.CLEAR_REFUSED.COUNT : Fld := ⟨0x10050070, 0, 32, 0, anyCode⟩
def R.FAULT.SELFTEST.PASS : Fld := ⟨0x10050074, 0, 1, 0, anyCode⟩
def R.FAULT.GROUP_COUNT_k.COUNT (a : Nat) : Fld := ⟨(0x10050080 + 4 * a), 0, 32, 0, anyCode⟩
def R.FAULT.STICKY_k.STICKY (a : Nat) : Fld := ⟨(0x10050100 + 4 * a), 0, 32, 0, anyCode⟩
def R.FAULT.INJECT_k.INJECT (a : Nat) : Fld := ⟨(0x10050140 + 4 * a), 0, 32, 0, anyCode⟩
def R.FAULT.PRESENT_k.PRESENT (a : Nat) : Fld := ⟨(0x10050180 + 4 * a), 0, 32, 0, anyCode⟩
def R.FAULT.RUNNING_k.RUNNING (a : Nat) : Fld := ⟨(0x100501c0 + 4 * a), 0, 32, 0, anyCode⟩
def R.FAULT.LATCHED_k.LATCHED (a : Nat) : Fld := ⟨(0x10050200 + 4 * a), 0, 32, 0, anyCode⟩
def R.FAULT.FIXED_k.FIXED (a : Nat) : Fld := ⟨(0x10050240 + 4 * a), 0, 32, (rstFixed a), anyCode⟩
def R.FAULT.CFG_k.CORE (a : Nat) (j : Nat) : Fld := ⟨(0x10050300 + 4 * a), (6 + 8 * j), 2, 0, anyCode⟩
def R.FAULT.CFG_k.ESC (a : Nat) (j : Nat) : Fld := ⟨(0x10050300 + 4 * a), (4 + 8 * j), 1, (rstEsc (4 * a + j)), anyCode⟩
def R.FAULT.CFG_k.CD (a : Nat) (j : Nat) : Fld := ⟨(0x10050300 + 4 * a), (2 + 8 * j), 2, 0, anyCode⟩
def R.FAULT.CFG_k.CLASS (a : Nat) (j : Nat) : Fld := ⟨(0x10050300 + 4 * a), (8 * j), 2, (rstClass (4 * a + j)), anyCode⟩
def R.SVC.STATUS.OWNER (n : Nat) : Fld := ⟨(0x10300000 + 0x10000 * n), 16, 16, 0, anyCode⟩
def R.SVC.STATUS.VENDOR (n : Nat) : Fld := ⟨(0x10300000 + 0x10000 * n), 0, 16, 15, anyCode⟩
def R.SVC.READY.READY (n : Nat) : Fld := ⟨(0x10300004 + 0x10000 * n), 0, 16, 0, anyCode⟩
def R.SVC.ISSUED.COUNT (n : Nat) : Fld := ⟨(0x10300008 + 0x10000 * n), 0, 64, 0, anyCode⟩
def R.SVC.EVENT_HOLDER.HELD (n : Nat) : Fld := ⟨(0x10300010 + 0x10000 * n), 4, 1, 0, anyCode⟩
def R.SVC.EVENT_HOLDER.THREAD (n : Nat) : Fld := ⟨(0x10300010 + 0x10000 * n), 0, 4, 0, anyCode⟩
def R.SVC.THREAD_t.STATE.TRAP_CAUSE (n : Nat) (a : Nat) : Fld := ⟨(0x10300040 + 0x10000 * n + 16 * a), 24, 8, 0, anyCode⟩
def R.SVC.THREAD_t.STATE.WAIT (n : Nat) (a : Nat) : Fld := ⟨(0x10300040 + 0x10000 * n + 16 * a), 8, 9, 0, anyCode⟩
def R.SVC.THREAD_t.STATE.MODE (n : Nat) (a : Nat) : Fld := ⟨(0x10300040 + 0x10000 * n + 16 * a), 3, 1, 0, anyCode⟩
def R.SVC.THREAD_t.STATE.STATE (n : Nat) (a : Nat) : Fld := ⟨(0x10300040 + 0x10000 * n + 16 * a), 0, 3, 0, anyCode⟩
def R.SVC.THREAD_t.PC_LO.PC (n : Nat) (a : Nat) : Fld := ⟨(0x10300044 + 0x10000 * n + 16 * a), 0, 32, 0, anyCode⟩
def R.SVC.THREAD_t.PC_HI.PC (n : Nat) (a : Nat) : Fld := ⟨(0x10300048 + 0x10000 * n + 16 * a), 0, 8, 0, anyCode⟩
def R.SVC.THREAD_t.CMD.CMD (n : Nat) (a : Nat) : Fld := ⟨(0x1030004c + 0x10000 * n + 16 * a), 0, 2, 0, anyCode⟩
def R.SVC.REGION_r.BASE.BASE (n : Nat) (a : Nat) : Fld := ⟨(0x10300200 + 0x10000 * n + 16 * a), 0, 28, (rstRegionBase n a), anyCode⟩
def R.SVC.REGION_r.SIZE.SIZE (n : Nat) (a : Nat) : Fld := ⟨(0x10300204 + 0x10000 * n + 16 * a), 0, 28, (rstRegionSize n a), anyCode⟩
def R.SVC.REGION_r.CTRL.THREADS (n : Nat) (a : Nat) : Fld := ⟨(0x10300208 + 0x10000 * n + 16 * a), 16, 16, (rstRegionThreads n a), anyCode⟩
def R.SVC.REGION_r.CTRL.X (n : Nat) (a : Nat) : Fld := ⟨(0x10300208 + 0x10000 * n + 16 * a), 3, 1, (rstRegionX n a), anyCode⟩
def R.SVC.REGION_r.CTRL.W (n : Nat) (a : Nat) : Fld := ⟨(0x10300208 + 0x10000 * n + 16 * a), 2, 1, (rstRegionW n a), anyCode⟩
def R.SVC.REGION_r.CTRL.R (n : Nat) (a : Nat) : Fld := ⟨(0x10300208 + 0x10000 * n + 16 * a), 1, 1, (rstRegionR n a), anyCode⟩
def R.SVC.REGION_r.CTRL.EN (n : Nat) (a : Nat) : Fld := ⟨(0x10300208 + 0x10000 * n + 16 * a), 0, 1, (rstRegionEn n a), anyCode⟩
def R.SVC.FAULT_ADDR_t.COUNT (n : Nat) (a : Nat) : Fld := ⟨(0x10300400 + 0x10000 * n + 8 * a), 0, 40, 0, anyCode⟩
def R.SVC.RESTART.GO : Fld := ⟨0x10300800, 0, 1, 0, anyCode⟩
def R.SVC.DEADLOCK.NOW : Fld := ⟨0x10300804, 0, 1, 0, anyCode⟩
def R.SVC.CH_PEEK_INDEX.CHANNEL : Fld := ⟨0x10300808, 0, 9, 0, anyCode⟩
def R.SVC.CH_PEEK.OWNED : Fld := ⟨0x1030080c, 31, 1, 0, anyCode⟩
def R.SVC.CH_PEEK.OWNER : Fld := ⟨0x1030080c, 24, 6, 0, anyCode⟩
def R.SVC.CH_PEEK.HW_WRITER : Fld := ⟨0x1030080c, 23, 1, 0, anyCode⟩
def R.SVC.CH_PEEK.WORDS : Fld := ⟨0x1030080c, 16, 5, 0, anyCode⟩
def R.SVC.CH_PEEK.MESSAGES : Fld := ⟨0x1030080c, 8, 5, 0, anyCode⟩
def R.SVC.CH_PEEK.WAITERS : Fld := ⟨0x1030080c, 0, 8, 0, anyCode⟩
def R.SVC.CH_ABANDONS.COUNT : Fld := ⟨0x10300810, 0, 32, 0, anyCode⟩
def R.SVC.DEADLOCKS.COUNT : Fld := ⟨0x10300814, 0, 32, 0, anyCode⟩
def R.SVC.TIMER_OWNER_LO.OWNER : Fld := ⟨0x10300818, 0, 32, 0, anyCode⟩
def R.SVC.TIMER_OWNER_HI.OWNER : Fld := ⟨0x1030081c, 0, 32, 4294967295, anyCode⟩
def R.SVC.INJECT_REFUSED.COUNT : Fld := ⟨0x10300820, 0, 32, 0, anyCode⟩
def R.SVC.INJECTED.COUNT : Fld := ⟨0x10300824, 0, 64, 0, anyCode⟩
def R.SVC.MC_STATUS.PATCH_OFF (n : Nat) : Fld := ⟨(0x10300600 + 0x10000 * n), 24, 1, 0, anyCode⟩
def R.SVC.MC_STATUS.MATCH_COUNT (n : Nat) : Fld := ⟨(0x10300600 + 0x10000 * n), 16, 6, 0, anyCode⟩
def R.SVC.MC_STATUS.WORD_COUNT (n : Nat) : Fld := ⟨(0x10300600 + 0x10000 * n), 0, 11, 0, anyCode⟩
def R.SVC.ROM_VERSION.VERSION (n : Nat) : Fld := ⟨(0x10300604 + 0x10000 * n), 0, 32, 0, anyCode⟩
def R.SVC.PATCH_PARITY.COUNT (n : Nat) : Fld := ⟨(0x10300608 + 0x10000 * n), 0, 32, 0, anyCode⟩
def R.SVC.ROM_PARITY.COUNT (n : Nat) : Fld := ⟨(0x1030060c + 0x10000 * n), 0, 32, 0, anyCode⟩
def R.SVC.PATCH_RELOADS.COUNT (n : Nat) : Fld := ⟨(0x10300610 + 0x10000 * n), 0, 32, 0, anyCode⟩
def R.SVC.MC_MATCH_k.VALID (n : Nat) (a : Nat) : Fld := ⟨(0x10300680 + 0x10000 * n + 4 * a), 31, 1, 0, anyCode⟩
def R.SVC.MC_MATCH_k.ROM_ADDR (n : Nat) (a : Nat) : Fld := ⟨(0x10300680 + 0x10000 * n + 4 * a), 16, 14, 0, anyCode⟩
def R.SVC.MC_MATCH_k.PATCH_ADDR (n : Nat) (a : Nat) : Fld := ⟨(0x10300680 + 0x10000 * n + 4 * a), 0, 10, 0, anyCode⟩
def R.INTC.PEND_SET_k.PEND (a : Nat) : Fld := ⟨(0x10060000 + 4 * a), 0, 32, 0, anyCode⟩
def R.INTC.PEND_CLR_k.PEND (a : Nat) : Fld := ⟨(0x10060020 + 4 * a), 0, 32, 0, anyCode⟩
def R.INTC.MASK_SET_k.MASK (a : Nat) : Fld := ⟨(0x10060040 + 4 * a), 0, 32, (rstMask a), anyCode⟩
def R.INTC.MASK_CLR_k.MASK (a : Nat) : Fld := ⟨(0x10060060 + 4 * a), 0, 32, (rstMask a), anyCode⟩
def R.INTC.LOCK_k.LOCK (a : Nat) : Fld := ⟨(0x10060080 + 4 * a), 0, 32, (rstLock a), anyCode⟩
def R.INTC.ROUTE_k.CORE (a : Nat) (j : Nat) : Fld := ⟨(0x100600a0 + 4 * a), (2 * j), 2, (rstRoute (16 * a + j)), anyCode⟩
def R.INTC.CLAIM_c.SOURCE (a : Nat) : Fld := ⟨(0x100600e0 + 4 * a), 0, 16, 65535, anyCode⟩
def R.INTC.DONE_c.SOURCE (a : Nat) : Fld := ⟨(0x100600f0 + 4 * a), 0, 16, 0, anyCode⟩
def R.INTC.LINE_c.ASSERTED (a : Nat) : Fld := ⟨(0x10060100 + 4 * a), 31, 1, 0, anyCode⟩
def R.INTC.LINE_c.IN_SERVICE (a : Nat) : Fld := ⟨(0x10060100 + 4 * a), 24, 1, 0, anyCode⟩
def R.INTC.LINE_c.SOURCE (a : Nat) : Fld := ⟨(0x10060100 + 4 * a), 16, 8, 0, anyCode⟩
def R.INTC.LINE_c.WAKE_CAUSE (a : Nat) : Fld := ⟨(0x10060100 + 4 * a), 9, 4, 0, anyCode⟩
def R.INTC.LINE_c.SLEEPING (a : Nat) : Fld := ⟨(0x10060100 + 4 * a), 8, 1, 0, anyCode⟩
def R.INTC.SLEEP_CFG.EN : Fld := ⟨0x10060110, 0, 4, 0, anyCode⟩
def R.INTC.WAKE_EN.EN : Fld := ⟨0x10060114, 0, 32, 0, anyCode⟩
def R.INTC.WAKE_m.SOURCE (a : Nat) (j : Nat) : Fld := ⟨(0x10060118 + 4 * a), (8 * j), 8, 0, anyCode⟩
def R.INTC.SLEEP_DEFERRED_c.COUNT (a : Nat) : Fld := ⟨(0x10060138 + 4 * a), 0, 32, 0, anyCode⟩
def R.INTC.WAKES_c.COUNT (a : Nat) : Fld := ⟨(0x10060148 + 4 * a), 0, 32, 0, anyCode⟩
def R.INTC.CLAIMS_c.COUNT (a : Nat) : Fld := ⟨(0x10060158 + 4 * a), 0, 32, 0, anyCode⟩
def R.INTC.MERGED.COUNT : Fld := ⟨0x10060168, 0, 32, 0, anyCode⟩
def R.INTC.STICKY.BAD_DONE : Fld := ⟨0x1006016c, 0, 4, 0, anyCode⟩
def R.INTC.OWNER_REFUSED.COUNT : Fld := ⟨0x10060170, 0, 32, 0, anyCode⟩
def R.INTC.IMPLICIT_DONES.COUNT : Fld := ⟨0x10060174, 0, 32, 0, anyCode⟩
def R.INTC.SUMMARY.SLEEPING : Fld := ⟨0x10060178, 4, 4, 0, anyCode⟩
def R.INTC.SUMMARY.ASSERTED : Fld := ⟨0x10060178, 0, 4, 0, anyCode⟩
def R.INTC.SENTRY.ENTRIES : Fld := ⟨0x1006017c, 0, 6, 0, anyCode⟩
def R.DRAM.CTRL.EN (n : Nat) : Fld := ⟨(0x10400000 + 0x10000 * n), 0, 1, 1, anyCode⟩
def R.DRAM.STATUS.POSTPONED (n : Nat) : Fld := ⟨(0x10400004 + 0x10000 * n), 16, 4, 0, anyCode⟩
def R.DRAM.STATUS.BAND (n : Nat) : Fld := ⟨(0x10400004 + 0x10000 * n), 8, 3, 0, anyCode⟩
def R.DRAM.STATUS.PHY_OK (n : Nat) : Fld := ⟨(0x10400004 + 0x10000 * n), 1, 1, 0, anyCode⟩
def R.DRAM.STATUS.READY (n : Nat) : Fld := ⟨(0x10400004 + 0x10000 * n), 0, 1, 0, anyCode⟩
def R.DRAM.STICKY.OFF_REFUSED (n : Nat) : Fld := ⟨(0x10400008 + 0x10000 * n), 4, 1, 0, anyCode⟩
def R.DRAM.STICKY.BAND_MISSED (n : Nat) : Fld := ⟨(0x10400008 + 0x10000 * n), 3, 1, 0, anyCode⟩
def R.DRAM.STICKY.REFRESH_FORCED_SEEN (n : Nat) : Fld := ⟨(0x10400008 + 0x10000 * n), 2, 1, 0, anyCode⟩
def R.DRAM.STICKY.UE_SEEN (n : Nat) : Fld := ⟨(0x10400008 + 0x10000 * n), 1, 1, 0, anyCode⟩
def R.DRAM.STICKY.CE_TH_SEEN (n : Nat) : Fld := ⟨(0x10400008 + 0x10000 * n), 0, 1, 0, anyCode⟩
def R.DRAM.CE_COUNT.COUNT (n : Nat) : Fld := ⟨(0x10400010 + 0x10000 * n), 0, 32, 0, anyCode⟩
def R.DRAM.UE_COUNT.COUNT (n : Nat) : Fld := ⟨(0x10400014 + 0x10000 * n), 0, 32, 0, anyCode⟩
def R.DRAM.UE_ADDR_LO.ADDR (n : Nat) : Fld := ⟨(0x10400018 + 0x10000 * n), 0, 32, 0, anyCode⟩
def R.DRAM.UE_ADDR_HI.ADDR (n : Nat) : Fld := ⟨(0x1040001c + 0x10000 * n), 0, 8, 0, anyCode⟩
def R.DRAM.REFRESH_FORCED.COUNT (n : Nat) : Fld := ⟨(0x10400020 + 0x10000 * n), 0, 32, 0, anyCode⟩
def R.DRAM.BAND_SWITCHES.COUNT (n : Nat) : Fld := ⟨(0x10400024 + 0x10000 * n), 0, 32, 0, anyCode⟩
def R.DRAM.SCRUB_CE.COUNT (n : Nat) : Fld := ⟨(0x10400028 + 0x10000 * n), 0, 32, 0, anyCode⟩
def R.DRAM.SCRUB_UE.COUNT (n : Nat) : Fld := ⟨(0x1040002c + 0x10000 * n), 0, 32, 0, anyCode⟩
def R.DRAM.RD_RETRIES.COUNT (n : Nat) : Fld := ⟨(0x10400030 + 0x10000 * n), 0, 32, 0, anyCode⟩
def R.DRAM.MAP.ORDER : Fld := ⟨0x10408000, 0, 2, 0, anyCode⟩
def R.DRAM.PANIC.HI : Fld := ⟨0x10408004, 16, 8, 192, rng 16 255⟩
def R.DRAM.PANIC.LO : Fld := ⟨0x10408004, 0, 8, 64, anyCode⟩
def R.DRAM.PANIC_STATUS.PORTS : Fld := ⟨0x10408008, 0, 5, 0, anyCode⟩
def R.DRAM.PANIC_STICKY.SEEN : Fld := ⟨0x1040800c, 0, 5, 0, anyCode⟩
def R.DRAM.BE_MAX.US : Fld := ⟨0x10408010, 0, 16, 20, rng 1 1000⟩
def R.DRAM.SCRUB.HOURS : Fld := ⟨0x10408014, 0, 8, 24, rng 0 168⟩
def R.DRAM.CE_TH.COUNT : Fld := ⟨0x10408018, 0, 16, 100, anyCode⟩
def R.DRAM.PANIC_EPISODES_r.COUNT (a : Nat) : Fld := ⟨(0x1040801c + 4 * a), 0, 32, 0, anyCode⟩
def R.DRAM.SCRUB_PASSES.COUNT : Fld := ⟨0x10408030, 0, 32, 0, anyCode⟩
def R.DRAM.JUNCTION.TJ : Fld := ⟨0x10408034, 0, 8, 0, anyCode⟩
def R.POOL.CTRL.FALLBACK_DRAM : Fld := ⟨0x10090000, 0, 1, 1, anyCode⟩
def R.POOL.STICKY.EMPTY_SEEN : Fld := ⟨0x10090004, 2, 6, 0, anyCode⟩
def R.POOL.STICKY.DOUBLE_FREE_SEEN : Fld := ⟨0x10090004, 1, 1, 0, anyCode⟩
def R.POOL.STICKY.NONE_SEEN : Fld := ⟨0x10090004, 0, 1, 0, anyCode⟩
def R.POOL.DOUBLE_FREES.COUNT : Fld := ⟨0x10090008, 0, 32, 0, anyCode⟩
def R.POOL.TAKE_FAILS.COUNT : Fld := ⟨0x1009000c, 0, 32, 0, anyCode⟩
def R.POOL.COUNT_k.COUNT (a : Nat) : Fld := ⟨(0x10090010 + 4 * a), 0, 15, (rstPoolCount a), anyCode⟩
def R.POOL.FREE_k.LOW (a : Nat) : Fld := ⟨(0x10090028 + 4 * a), 16, 15, 0, anyCode⟩
def R.POOL.FREE_k.FREE (a : Nat) : Fld := ⟨(0x10090028 + 4 * a), 0, 15, 0, anyCode⟩
def R.POOL.RES_m.N (a : Nat) (j : Nat) : Fld := ⟨(0x10090040 + 4 * a), (4 * j), 4, (rstPoolRes (8 * a + j)), anyCode⟩
def R.POWER.STATUS.RAILS_OK : Fld := ⟨0x10040000, 5, 1, 0, anyCode⟩
def R.POWER.STATUS.ALERT : Fld := ⟨0x10040000, 4, 1, 0, anyCode⟩
def R.POWER.STATUS.CHARGING : Fld := ⟨0x10040000, 3, 1, 0, anyCode⟩
def R.POWER.STATUS.HOLD_OK : Fld := ⟨0x10040000, 2, 1, 0, anyCode⟩
def R.POWER.STATUS.LOW_BAND : Fld := ⟨0x10040000, 1, 1, 0, anyCode⟩
def R.POWER.STATUS.ON_HOLD : Fld := ⟨0x10040000, 0, 1, 0, anyCode⟩
def R.POWER.STICKY.ON_HOLD_SEEN : Fld := ⟨0x10040004, 3, 1, 0, anyCode⟩
def R.POWER.STICKY.LOW_BAND_SEEN : Fld := ⟨0x10040004, 2, 1, 0, anyCode⟩
def R.POWER.STICKY.ALERT_SEEN : Fld := ⟨0x10040004, 1, 1, 0, anyCode⟩
def R.POWER.STICKY.HOLD_LOW_SEEN : Fld := ⟨0x10040004, 0, 1, 0, anyCode⟩
def R.POWER.VIN.MV : Fld := ⟨0x10040008, 0, 16, 0, anyCode⟩
def R.POWER.IIN.MA : Fld := ⟨0x1004000c, 0, 16, 0, anyCode⟩
def R.POWER.PIN.CW : Fld := ⟨0x10040010, 0, 16, 0, anyCode⟩
def R.POWER.HOLD_V.MV : Fld := ⟨0x10040014, 0, 16, 0, anyCode⟩
def R.POWER.TJ.MAX : Fld := ⟨0x10040018, 8, 8, 0, anyCode⟩
def R.POWER.TJ.TJ : Fld := ⟨0x10040018, 0, 8, 0, anyCode⟩
def R.POWER.HOLD_CFG.CHARGE_TO : Fld := ⟨0x1004001c, 0, 4, 2, rng 1 10⟩
def R.POWER.QUIESCE.DRAIN_MODE : Fld := ⟨0x10040020, 31, 1, 0, anyCode⟩
def R.POWER.QUIESCE.DRAIN_TO : Fld := ⟨0x10040020, 0, 20, 10000, rng 1 1000000⟩
def R.POWER.REQ_RESULT.DOMAIN : Fld := ⟨0x10040024, 16, 8, 0, anyCode⟩
def R.POWER.REQ_RESULT.REASON : Fld := ⟨0x10040024, 0, 8, 0, anyCode⟩
def R.POWER.SWITCHES.COUNT : Fld := ⟨0x10040028, 0, 32, 0, anyCode⟩
def R.POWER.REFUSALS.COUNT : Fld := ⟨0x1004002c, 0, 32, 0, anyCode⟩
def R.POWER.OFF_ACCESS.COUNT : Fld := ⟨0x10040030, 0, 32, 0, anyCode⟩
def R.POWER.OFF_ADDR_LO.ADDR : Fld := ⟨0x10040034, 0, 32, 0, anyCode⟩
def R.POWER.OFF_ADDR_HI.ADDR : Fld := ⟨0x10040038, 0, 8, 0, anyCode⟩
def R.POWER.RIDE_THROUGHS.COUNT : Fld := ⟨0x1004003c, 0, 32, 0, anyCode⟩
def R.POWER.CAP_TIME.MS : Fld := ⟨0x10040040, 0, 32, 0, anyCode⟩
def R.POWER.PWR_ON_SET_k.ON (a : Nat) : Fld := ⟨(0x10040100 + 4 * a), 0, 32, 0, anyCode⟩
def R.POWER.PWR_ON_CLR_k.ON (a : Nat) : Fld := ⟨(0x10040120 + 4 * a), 0, 32, 0, anyCode⟩
def R.POWER.DOM_STATE_k.STATE (a : Nat) (j : Nat) : Fld := ⟨(0x10040140 + 4 * a), (2 * j), 2, (rstDomState (16 * a + j)), anyCode⟩
def R.DEBUG.STATUS.FREEZE : Fld := ⟨0x10080000, 16, 4, 0, anyCode⟩
def R.DEBUG.STATUS.HALTED_CORES : Fld := ⟨0x10080000, 12, 4, 0, anyCode⟩
def R.DEBUG.STATUS.SCOPE : Fld := ⟨0x10080000, 8, 4, 0, anyCode⟩
def R.DEBUG.STATUS.DEBUG : Fld := ⟨0x10080000, 4, 2, 0, anyCode⟩
def R.DEBUG.STATUS.STEP_PENDING : Fld := ⟨0x10080000, 2, 1, 0, anyCode⟩
def R.DEBUG.STATUS.UNCLAIMED_OPEN : Fld := ⟨0x10080000, 1, 1, 0, anyCode⟩
def R.DEBUG.STATUS.ATTACHED : Fld := ⟨0x10080000, 0, 1, 0, anyCode⟩
def R.DEBUG.HALTED_c.THREADS (a : Nat) : Fld := ⟨(0x10080010 + 4 * a), 0, 16, 0, anyCode⟩
def R.DEBUG.LAST_HALT.CAUSE : Fld := ⟨0x10080020, 28, 4, 0, anyCode⟩
def R.DEBUG.LAST_HALT.INDEX : Fld := ⟨0x10080020, 24, 3, 0, anyCode⟩
def R.DEBUG.LAST_HALT.THREAD : Fld := ⟨0x10080020, 0, 6, 0, anyCode⟩
def R.DEBUG.PACKETS.COUNT : Fld := ⟨0x10080024, 0, 32, 0, anyCode⟩
def R.DEBUG.CRC_ERRORS.COUNT : Fld := ⟨0x10080028, 0, 32, 0, anyCode⟩
def R.DEBUG.LOCKED_REFUSALS.COUNT : Fld := ⟨0x1008002c, 0, 32, 0, anyCode⟩
def R.DEBUG.DEBUG_WRITES.COUNT : Fld := ⟨0x10080030, 0, 32, 0, anyCode⟩
def R.DEBUG.HITS.COUNT : Fld := ⟨0x10080034, 0, 32, 0, anyCode⟩
def R.DEBUG.DETACHES.COUNT : Fld := ⟨0x10080038, 0, 32, 0, anyCode⟩
def R.DEBUG.STICKY.WRITE_SEEN : Fld := ⟨0x1008003c, 2, 1, 0, anyCode⟩
def R.DEBUG.STICKY.CRC_ERR_SEEN : Fld := ⟨0x1008003c, 1, 1, 0, anyCode⟩
def R.DEBUG.STICKY.ATTACH_SEEN : Fld := ⟨0x1008003c, 0, 1, 0, anyCode⟩
def R.TP.TP_CMD.GO (b : Nat) : Fld := ⟨(b + 0x800), 31, 1, 0, anyCode⟩
def R.TP.TP_CMD.OP (b : Nat) : Fld := ⟨(b + 0x800), 28, 3, 0, anyCode⟩
def R.TP.TP_CMD.MEM (b : Nat) : Fld := ⟨(b + 0x800), 24, 4, 0, anyCode⟩
def R.TP.TP_CMD.INDEX (b : Nat) : Fld := ⟨(b + 0x800), 0, 16, 0, anyCode⟩
def R.TP.TP_STATUS.BUSY (b : Nat) : Fld := ⟨(b + 0x804), 31, 1, 0, anyCode⟩
def R.TP.TP_STATUS.RESULT (b : Nat) : Fld := ⟨(b + 0x804), 16, 4, 0, anyCode⟩
def R.TP.TP_STATUS.INDEX (b : Nat) : Fld := ⟨(b + 0x804), 0, 16, 0, anyCode⟩
def R.TP.TP_DATA_w.DATA (b : Nat) (a : Nat) : Fld := ⟨(b + 0x840 + 4 * a), 0, 32, 0, anyCode⟩
def R.TOP.ID.PART : Fld := ⟨0x10000000, 16, 16, 18528, anyCode⟩
def R.TOP.ID.VARIANT : Fld := ⟨0x10000000, 8, 8, 0, anyCode⟩
def R.TOP.ID.STEPPING : Fld := ⟨0x10000000, 0, 8, 0, anyCode⟩
def R.TOP.SERVICES_ROM.VERSION : Fld := ⟨0x10000004, 0, 32, 0, anyCode⟩
def R.TOP.DEALER_ROM.VERSION : Fld := ⟨0x10000008, 0, 32, 0, anyCode⟩
def R.TOP.UPTIME.MS : Fld := ⟨0x1000000c, 0, 64, 0, anyCode⟩
def R.TOP.SCRATCH.DATA : Fld := ⟨0x10000014, 0, 32, 0, anyCode⟩
def R.TOP.UNMAPPED.COUNT : Fld := ⟨0x10000018, 0, 32, 0, anyCode⟩
def R.TOP.UNMAPPED_ADDR.ADDR : Fld := ⟨0x1000001c, 0, 32, 0, anyCode⟩
def R.TOP.STICKY.MGMT_REFUSED : Fld := ⟨0x10000020, 1, 1, 0, anyCode⟩
def R.TOP.STICKY.UNMAPPED_SEEN : Fld := ⟨0x10000020, 0, 1, 0, anyCode⟩
def R.TOP.MDIO_CFG_m.DIV (a : Nat) : Fld := ⟨(0x10000040 + 16 * a), 0, 6, 19, rng 9 49⟩
def R.TOP.MDIO_CMD_m.GO (a : Nat) : Fld := ⟨(0x10000044 + 16 * a), 31, 1, 0, anyCode⟩
def R.TOP.MDIO_CMD_m.C45 (a : Nat) : Fld := ⟨(0x10000044 + 16 * a), 30, 1, 0, anyCode⟩
def R.TOP.MDIO_CMD_m.OP (a : Nat) : Fld := ⟨(0x10000044 + 16 * a), 28, 2, 0, anyCode⟩
def R.TOP.MDIO_CMD_m.PHYAD (a : Nat) : Fld := ⟨(0x10000044 + 16 * a), 21, 5, 0, anyCode⟩
def R.TOP.MDIO_CMD_m.REGAD (a : Nat) : Fld := ⟨(0x10000044 + 16 * a), 16, 5, 0, anyCode⟩
def R.TOP.MDIO_CMD_m.DATA (a : Nat) : Fld := ⟨(0x10000044 + 16 * a), 0, 16, 0, anyCode⟩
def R.TOP.MDIO_STATUS_m.BUSY (a : Nat) : Fld := ⟨(0x10000048 + 16 * a), 31, 1, 0, anyCode⟩
def R.TOP.MDIO_STATUS_m.BAD_CMD (a : Nat) : Fld := ⟨(0x10000048 + 16 * a), 30, 1, 0, anyCode⟩
def R.TOP.MDIO_STATUS_m.DATA (a : Nat) : Fld := ⟨(0x10000048 + 16 * a), 0, 16, 0, anyCode⟩
def R.TOP.I2C_CFG_i.FAST (a : Nat) : Fld := ⟨(0x10000080 + 32 * a), 0, 1, 0, anyCode⟩
def R.TOP.I2C_CMD_i.GO (a : Nat) : Fld := ⟨(0x10000084 + 32 * a), 31, 1, 0, anyCode⟩
def R.TOP.I2C_CMD_i.OP (a : Nat) : Fld := ⟨(0x10000084 + 32 * a), 29, 2, 0, anyCode⟩
def R.TOP.I2C_CMD_i.WLEN (a : Nat) : Fld := ⟨(0x10000084 + 32 * a), 26, 3, 0, anyCode⟩
def R.TOP.I2C_CMD_i.RLEN (a : Nat) : Fld := ⟨(0x10000084 + 32 * a), 23, 3, 0, anyCode⟩
def R.TOP.I2C_CMD_i.ADDR (a : Nat) : Fld := ⟨(0x10000084 + 32 * a), 16, 7, 0, anyCode⟩
def R.TOP.I2C_WDATA_i.DATA (a : Nat) : Fld := ⟨(0x10000088 + 32 * a), 0, 32, 0, anyCode⟩
def R.TOP.I2C_RDATA_i.DATA (a : Nat) : Fld := ⟨(0x1000008c + 32 * a), 0, 32, 0, anyCode⟩
def R.TOP.I2C_STATUS_i.BUSY (a : Nat) : Fld := ⟨(0x10000090 + 32 * a), 31, 1, 0, anyCode⟩
def R.TOP.I2C_STATUS_i.RESULT (a : Nat) : Fld := ⟨(0x10000090 + 32 * a), 0, 3, 0, anyCode⟩
def R.TOP.GPIO_DIR.DIR : Fld := ⟨0x100000c0, 0, 16, 0, anyCode⟩
def R.TOP.GPIO_OUT_SET.OUT : Fld := ⟨0x100000c4, 0, 16, 0, anyCode⟩
def R.TOP.GPIO_OUT_CLR.OUT : Fld := ⟨0x100000c8, 0, 16, 0, anyCode⟩
def R.TOP.GPIO_IN.IN : Fld := ⟨0x100000cc, 0, 16, 0, anyCode⟩
def R.TOP.LED_OUT.LED : Fld := ⟨0x100000d0, 0, 8, 0, anyCode⟩

end Sys2Proof.Machine
end

