-- ==== Sys2Proof/Machine/RegLayout.lean ====
section
/-! DEFINITION. The layout of every register block: one row per register of the tables of spec/, with its offset, its
family dimensions, whether it is a 64-bit counter (R44), and its fields with their access codes (R8). -/
namespace Sys2Proof.Machine

/-- The registers of CADENCE that its chapter lays out. -/
def layoutCADENCE : List RegRow := [
  ⟨0x0, 1, 0, 1, 0, false, [⟨.rw, true, 1, fun _ _ _ _ => R.CADENCE.CTRL.FIXED⟩, ⟨.dl, false, 1, fun _ _ _ _ => R.CADENCE.CTRL.LIGHT_EN⟩, ⟨.dl, false, 1, fun _ _ _ _ => R.CADENCE.CTRL.GOV_EN⟩]⟩,
  ⟨0x4, 1, 0, 1, 0, false, [⟨.dl, false, 1, fun _ _ _ _ => R.CADENCE.TARGET.TARGET⟩]⟩,
  ⟨0x8, 1, 0, 1, 0, false, [⟨.dl, false, 1, fun _ _ _ _ => R.CADENCE.LIGHT.BOOST_TH⟩, ⟨.dl, false, 1, fun _ _ _ _ => R.CADENCE.LIGHT.LIGHT_MIN⟩]⟩,
  ⟨0xc, 1, 0, 1, 0, false, [⟨.dl, false, 1, fun _ _ _ _ => R.CADENCE.LOOP.STEP_MAX⟩, ⟨.dl, false, 1, fun _ _ _ _ => R.CADENCE.LOOP.GAIN⟩]⟩,
  ⟨0x10, 1, 0, 1, 0, false, [⟨.ro, false, 1, fun _ _ _ _ => R.CADENCE.VCORE.CEILING⟩, ⟨.ro, false, 1, fun _ _ _ _ => R.CADENCE.VCORE.VCORE⟩]⟩,
  ⟨0x14, 1, 0, 1, 0, false, [⟨.rw, true, 1, fun _ _ _ _ => R.CADENCE.VSET.VSET⟩]⟩,
  ⟨0x18, 1, 0, 1, 0, false, [⟨.ro, false, 1, fun _ _ _ _ => R.CADENCE.STATUS.FIXED_ACTIVE⟩, ⟨.ro, false, 1, fun _ _ _ _ => R.CADENCE.STATUS.CAP_THERMAL⟩, ⟨.ro, false, 1, fun _ _ _ _ => R.CADENCE.STATUS.CAP_POWER⟩, ⟨.ro, false, 1, fun _ _ _ _ => R.CADENCE.STATUS.LIGHT_ACTIVE⟩, ⟨.ro, false, 1, fun _ _ _ _ => R.CADENCE.STATUS.BOOST⟩, ⟨.ro, false, 1, fun _ _ _ _ => R.CADENCE.STATUS.AT_CEILING⟩, ⟨.ro, false, 1, fun _ _ _ _ => R.CADENCE.STATUS.SHEDDING⟩, ⟨.ro, false, 1, fun _ _ _ _ => R.CADENCE.STATUS.BELOW_FLOOR⟩]⟩,
  ⟨0x1c, 1, 0, 1, 0, false, [⟨.w1c, false, 1, fun _ _ _ _ => R.CADENCE.STICKY.METRO_SPREAD⟩, ⟨.w1c, false, 1, fun _ _ _ _ => R.CADENCE.STICKY.SEEN⟩, ⟨.w1c, false, 1, fun _ _ _ _ => R.CADENCE.STICKY.SHED_SEEN⟩, ⟨.w1c, false, 1, fun _ _ _ _ => R.CADENCE.STICKY.BELOW_FLOOR_SEEN⟩]⟩,
  ⟨0x20, 4, 4, 1, 0, false, [⟨.ro, false, 1, fun _ a _ _ => R.CADENCE.LIVE_Pn.DEMAND a⟩, ⟨.ro, false, 1, fun _ a _ _ => R.CADENCE.LIVE_Pn.CAPACITY a⟩]⟩,
  ⟨0x30, 1, 0, 1, 0, false, [⟨.ro, false, 4, fun _ _ _ j => R.CADENCE.SVC_LIVE.CORE j⟩]⟩,
  ⟨0x34, 1, 0, 1, 0, false, [⟨.ro, false, 1, fun _ _ _ _ => R.CADENCE.LIMITER.SPREAD⟩, ⟨.ro, false, 1, fun _ _ _ _ => R.CADENCE.LIMITER.METRO⟩]⟩,
  ⟨0x40, 1, 0, 1, 0, false, [⟨.dl, false, 1, fun _ _ _ _ => R.CADENCE.SHED_TH.TH0⟩, ⟨.dl, false, 1, fun _ _ _ _ => R.CADENCE.SHED_TH.TH1⟩, ⟨.dl, false, 1, fun _ _ _ _ => R.CADENCE.SHED_TH.TH2⟩, ⟨.dl, false, 1, fun _ _ _ _ => R.CADENCE.SHED_TH.TH3⟩]⟩,
  ⟨0x44, 1, 0, 1, 0, false, [⟨.dl, false, 1, fun _ _ _ _ => R.CADENCE.TRUMP_TC.TC_MIN⟩]⟩,
  ⟨0x100, 4, 40, 5, 8, true, [⟨.ro, false, 1, fun _ a c _ => R.CADENCE.SHED_Pn_Ck.COUNT a c⟩]⟩]

/-- The registers of DEAL that its chapter lays out. -/
def layoutDEAL : List RegRow := [
  ⟨0x0, 1, 0, 1, 0, false, [⟨.ro, false, 1, fun _ _ _ _ => R.DEAL.STATUS.CODE⟩, ⟨.ro, false, 1, fun _ _ _ _ => R.DEAL.STATUS.STEP⟩, ⟨.ro, false, 1, fun _ _ _ _ => R.DEAL.STATUS.LOCKED⟩, ⟨.ro, false, 1, fun _ _ _ _ => R.DEAL.STATUS.FWD⟩, ⟨.ro, false, 1, fun _ _ _ _ => R.DEAL.STATUS.SVC⟩, ⟨.ro, false, 1, fun _ _ _ _ => R.DEAL.STATUS.CLAIMED⟩, ⟨.ro, false, 1, fun _ _ _ _ => R.DEAL.STATUS.SLOT_FAIL_SEEN⟩, ⟨.ro, false, 1, fun _ _ _ _ => R.DEAL.STATUS.CLAIM_DONE⟩, ⟨.ro, false, 1, fun _ _ _ _ => R.DEAL.STATUS.SLOT⟩, ⟨.ro, false, 1, fun _ _ _ _ => R.DEAL.STATUS.BAND⟩]⟩,
  ⟨0x4, 1, 0, 1, 0, false, [⟨.ro, false, 1, fun _ _ _ _ => R.DEAL.T_FWD.T_FWD⟩]⟩,
  ⟨0x8, 1, 0, 1, 0, false, [⟨.ro, false, 1, fun _ _ _ _ => R.DEAL.T_SVC.T_SVC⟩]⟩,
  ⟨0xc, 1, 0, 1, 0, false, [⟨.ro, false, 1, fun _ _ _ _ => R.DEAL.DEADLINE.DEADLINE⟩]⟩,
  ⟨0x10, 1, 0, 1, 0, false, [⟨.ro, false, 1, fun _ _ _ _ => R.DEAL.IMAGE_LEN.LEN⟩]⟩,
  ⟨0x14, 1, 0, 1, 0, false, [⟨.ro, false, 1, fun _ _ _ _ => R.DEAL.IMAGE_VER.VER⟩]⟩,
  ⟨0x18, 1, 0, 1, 0, false, [⟨.ro, false, 1, fun _ _ _ _ => R.DEAL.SLOT_A.VER⟩, ⟨.ro, false, 1, fun _ _ _ _ => R.DEAL.SLOT_A.RESULT⟩]⟩,
  ⟨0x1c, 1, 0, 1, 0, false, [⟨.ro, false, 1, fun _ _ _ _ => R.DEAL.SLOT_B.VER⟩, ⟨.ro, false, 1, fun _ _ _ _ => R.DEAL.SLOT_B.RESULT⟩]⟩,
  ⟨0x20, 1, 0, 1, 0, false, [⟨.ro, false, 1, fun _ _ _ _ => R.DEAL.FLOOR.FLOOR⟩]⟩,
  ⟨0x24, 1, 0, 1, 0, false, [⟨.ro, false, 1, fun _ _ _ _ => R.DEAL.JUNCTION.TJ⟩]⟩,
  ⟨0x28, 1, 0, 1, 0, false, [⟨.ro, false, 1, fun _ _ _ _ => R.DEAL.RST_CAUSE.CAUSE⟩]⟩,
  ⟨0x2c, 1, 0, 1, 0, false, [⟨.ro, false, 1, fun _ _ _ _ => R.DEAL.DEAL_COUNT.COUNT⟩]⟩,
  ⟨0x40, 12, 4, 1, 0, false, [⟨.ro, false, 1, fun _ a _ _ => R.DEAL.IMAGE_HASH_k.HASH a⟩]⟩,
  ⟨0x100, 1, 0, 1, 0, false, [⟨.ro, false, 1, fun _ _ _ _ => R.DEAL.DECK_STATE.UPDATE_BUSY⟩, ⟨.ro, false, 1, fun _ _ _ _ => R.DEAL.DECK_STATE.PWR_ON⟩, ⟨.ro, false, 1, fun _ _ _ _ => R.DEAL.DECK_STATE.JOURNAL_PAUSED⟩, ⟨.ro, false, 1, fun _ _ _ _ => R.DEAL.DECK_STATE.FOREIGN⟩, ⟨.ro, false, 1, fun _ _ _ _ => R.DEAL.DECK_STATE.DEALT⟩, ⟨.ro, false, 1, fun _ _ _ _ => R.DEAL.DECK_STATE.PRESENT⟩]⟩,
  ⟨0x104, 4, 4, 1, 0, false, [⟨.ro, false, 1, fun _ a _ _ => R.DEAL.DECK_SERIAL_k.SERIAL a⟩]⟩,
  ⟨0x114, 4, 4, 1, 0, false, [⟨.ro, false, 1, fun _ a _ _ => R.DEAL.OTHER_SERIAL_k.SERIAL a⟩]⟩,
  ⟨0x124, 1, 0, 1, 0, false, [⟨.ro, false, 1, fun _ _ _ _ => R.DEAL.JOURNAL.HEAD⟩, ⟨.ro, false, 1, fun _ _ _ _ => R.DEAL.JOURNAL.QUEUED⟩, ⟨.ro, false, 1, fun _ _ _ _ => R.DEAL.JOURNAL.BUDGET⟩]⟩,
  ⟨0x128, 1, 0, 1, 0, false, [⟨.ro, false, 1, fun _ _ _ _ => R.DEAL.JOURNAL_PASS.PASS⟩]⟩,
  ⟨0x12c, 1, 0, 1, 0, false, [⟨.ro, false, 1, fun _ _ _ _ => R.DEAL.JOURNAL_DROP.DROP⟩]⟩,
  ⟨0x130, 1, 0, 1, 0, false, [⟨.ro, false, 1, fun _ _ _ _ => R.DEAL.SLOT_WRITES.SLOT_B⟩, ⟨.ro, false, 1, fun _ _ _ _ => R.DEAL.SLOT_WRITES.SLOT_A⟩]⟩,
  ⟨0x134, 1, 0, 1, 0, false, [⟨.ro, false, 1, fun _ _ _ _ => R.DEAL.DECK_LIFE.SLOT_A⟩, ⟨.ro, false, 1, fun _ _ _ _ => R.DEAL.DECK_LIFE.SLOT_B⟩, ⟨.ro, false, 1, fun _ _ _ _ => R.DEAL.DECK_LIFE.JOURNAL⟩, ⟨.ro, false, 1, fun _ _ _ _ => R.DEAL.DECK_LIFE.LIFE⟩]⟩,
  ⟨0x138, 1, 0, 1, 0, false, [⟨.dl, false, 1, fun _ _ _ _ => R.DEAL.LIFE_TH.TH⟩]⟩,
  ⟨0x13c, 1, 0, 1, 0, false, [⟨.ro, false, 1, fun _ _ _ _ => R.DEAL.UPDATE.RESULT⟩, ⟨.ro, false, 1, fun _ _ _ _ => R.DEAL.UPDATE.PROGRESS⟩, ⟨.ro, false, 1, fun _ _ _ _ => R.DEAL.UPDATE.TARGET⟩]⟩,
  ⟨0x140, 1, 0, 1, 0, false, [⟨.ro, false, 1, fun _ _ _ _ => R.DEAL.REGSET_SKIP.LAST⟩, ⟨.ro, false, 1, fun _ _ _ _ => R.DEAL.REGSET_SKIP.COUNT⟩]⟩,
  ⟨0x144, 1, 0, 1, 0, false, [⟨.ro, false, 1, fun _ _ _ _ => R.DEAL.REMOVALS.COUNT⟩]⟩]

/-- The registers of SEC that its chapter lays out. -/
def layoutSEC : List RegRow := [
  ⟨0x0, 1, 0, 1, 0, false, [⟨.ro, false, 1, fun _ _ _ _ => R.SEC.STATUS.SCOPE⟩, ⟨.ro, false, 1, fun _ _ _ _ => R.SEC.STATUS.TAMPER_LATCHED⟩, ⟨.ro, false, 1, fun _ _ _ _ => R.SEC.STATUS.KEYSTORE_OK⟩, ⟨.ro, false, 1, fun _ _ _ _ => R.SEC.STATUS.DEBUG⟩, ⟨.ro, false, 1, fun _ _ _ _ => R.SEC.STATUS.FLOOR_PENDING⟩, ⟨.ro, false, 1, fun _ _ _ _ => R.SEC.STATUS.CLAIM_RESUMED⟩, ⟨.ro, false, 1, fun _ _ _ _ => R.SEC.STATUS.CLAIMED⟩]⟩,
  ⟨0x4, 4, 4, 1, 0, false, [⟨.ro, false, 1, fun _ a _ _ => R.SEC.DEVICE_ID_k.ID a⟩]⟩,
  ⟨0x14, 12, 4, 1, 0, false, [⟨.ro, false, 1, fun _ a _ _ => R.SEC.OWNER_HASH_k.HASH a⟩]⟩,
  ⟨0x44, 1, 0, 1, 0, false, [⟨.ro, false, 1, fun _ _ _ _ => R.SEC.FLOOR.TARGET⟩, ⟨.ro, false, 1, fun _ _ _ _ => R.SEC.FLOOR.FLOOR⟩]⟩,
  ⟨0x48, 1, 0, 1, 0, false, [⟨.dl, false, 1, fun _ _ _ _ => R.SEC.FLOOR_CFG.DELAY⟩]⟩,
  ⟨0x4c, 1, 0, 1, 0, false, [⟨.ro, false, 1, fun _ _ _ _ => R.SEC.DEBUG_TIME.REMAIN⟩]⟩,
  ⟨0x50, 1, 0, 1, 0, false, [⟨.ro, false, 1, fun _ _ _ _ => R.SEC.UNLOCKS.FAILS⟩, ⟨.ro, false, 1, fun _ _ _ _ => R.SEC.UNLOCKS.COUNT⟩]⟩,
  ⟨0x54, 2, 4, 1, 0, false, [⟨.ro, false, 1, fun _ a _ _ => R.SEC.LAST_CHALLENGE_k.ID a⟩]⟩,
  ⟨0x5c, 1, 0, 1, 0, false, [⟨.ro, false, 1, fun _ _ _ _ => R.SEC.TAMPER.MON_TEMP⟩, ⟨.ro, false, 1, fun _ _ _ _ => R.SEC.TAMPER.MON_SUPPLY⟩, ⟨.ro, false, 1, fun _ _ _ _ => R.SEC.TAMPER.LEVEL⟩, ⟨.ro, false, 1, fun _ _ _ _ => R.SEC.TAMPER.SEEN⟩]⟩,
  ⟨0x60, 1, 0, 1, 0, false, [⟨.ro, false, 1, fun _ _ _ _ => R.SEC.ATTEST_COUNT.SEQ⟩]⟩,
  ⟨0x64, 1, 0, 1, 0, false, [⟨.ro, false, 1, fun _ _ _ _ => R.SEC.DELEGATES.COUNT⟩]⟩]

/-- The registers of LANE that its chapter lays out. -/
def layoutLANE : List RegRow := [
  ⟨0x0, 1, 0, 1, 0, false, [⟨.dl, false, 1, fun n _ _ _ => R.LANE.CTRL.RX_INV n⟩, ⟨.dl, false, 1, fun n _ _ _ => R.LANE.CTRL.TX_INV n⟩, ⟨.rw, true, 1, fun n _ _ _ => R.LANE.CTRL.LOOPBACK n⟩, ⟨.dl, false, 1, fun n _ _ _ => R.LANE.CTRL.FEC n⟩, ⟨.dl, false, 1, fun n _ _ _ => R.LANE.CTRL.MODE n⟩]⟩,
  ⟨0x4, 1, 0, 1, 0, false, [⟨.ro, false, 1, fun n _ _ _ => R.LANE.STATUS.GANGED n⟩, ⟨.ro, false, 1, fun n _ _ _ => R.LANE.STATUS.FEC_ALIGN n⟩, ⟨.ro, false, 1, fun n _ _ _ => R.LANE.STATUS.HI_BER n⟩, ⟨.ro, false, 1, fun n _ _ _ => R.LANE.STATUS.LOCK n⟩, ⟨.ro, false, 1, fun n _ _ _ => R.LANE.STATUS.SIGNAL n⟩, ⟨.ro, false, 1, fun n _ _ _ => R.LANE.STATUS.POWERED n⟩]⟩,
  ⟨0x8, 1, 0, 1, 0, false, [⟨.w1c, false, 1, fun n _ _ _ => R.LANE.STICKY.SEEN n⟩]⟩,
  ⟨0x10, 1, 0, 1, 0, false, [⟨.rw, false, 1, fun n _ _ _ => R.LANE.TX_EQ.POST n⟩, ⟨.rw, false, 1, fun n _ _ _ => R.LANE.TX_EQ.MAIN n⟩, ⟨.rw, false, 1, fun n _ _ _ => R.LANE.TX_EQ.PRE n⟩]⟩,
  ⟨0x14, 1, 0, 1, 0, false, [⟨.rw, false, 1, fun n _ _ _ => R.LANE.RX_EQ.CTLE n⟩, ⟨.rw, false, 1, fun n _ _ _ => R.LANE.RX_EQ.ADAPT n⟩]⟩,
  ⟨0x20, 1, 0, 1, 0, false, [⟨.ro, false, 1, fun n _ _ _ => R.LANE.FEC_CORR.COUNT n⟩]⟩,
  ⟨0x24, 1, 0, 1, 0, false, [⟨.ro, false, 1, fun n _ _ _ => R.LANE.FEC_UNCORR.COUNT n⟩]⟩,
  ⟨0x28, 1, 0, 1, 0, false, [⟨.ro, false, 1, fun n _ _ _ => R.LANE.ERR_BLOCKS.COUNT n⟩]⟩]

/-- The registers of PORT that its chapter lays out. -/
def layoutPORT : List RegRow := [
  ⟨0x0, 1, 0, 1, 0, false, [⟨.dl, false, 1, fun n _ _ _ => R.PORT.CTRL.SGMII_SPEED n⟩, ⟨.rw, false, 1, fun n _ _ _ => R.PORT.CTRL.CUT_OUT_EN n⟩, ⟨.rw, false, 1, fun n _ _ _ => R.PORT.CTRL.CUT_IN_EN n⟩, ⟨.rw, false, 1, fun n _ _ _ => R.PORT.CTRL.DRAIN_MODE n⟩, ⟨.dl, false, 1, fun n _ _ _ => R.PORT.CTRL.AN n⟩, ⟨.rw, false, 1, fun n _ _ _ => R.PORT.CTRL.EN n⟩]⟩,
  ⟨0x4, 1, 0, 1, 0, false, [⟨.dl, false, 1, fun n _ _ _ => R.PORT.CFG.MAX_LEN n⟩]⟩,
  ⟨0x8, 1, 0, 1, 0, false, [⟨.rw, false, 1, fun n _ _ _ => R.PORT.LINK_HOLD.HOLD_UP n⟩, ⟨.rw, false, 1, fun n _ _ _ => R.PORT.LINK_HOLD.HOLD_DOWN n⟩]⟩,
  ⟨0xc, 1, 0, 1, 0, false, [⟨.rw, false, 1, fun n _ _ _ => R.PORT.DRAIN_TO.TIMEOUT n⟩]⟩,
  ⟨0x10, 1, 0, 1, 0, false, [⟨.ro, false, 1, fun n _ _ _ => R.PORT.STATUS.QUIESCED n⟩, ⟨.ro, false, 1, fun n _ _ _ => R.PORT.STATUS.CTRL_OPER n⟩, ⟨.ro, false, 1, fun n _ _ _ => R.PORT.STATUS.SPEED n⟩, ⟨.ro, false, 1, fun n _ _ _ => R.PORT.STATUS.DOWN_REASON n⟩, ⟨.ro, false, 1, fun n _ _ _ => R.PORT.STATUS.HOLDING n⟩, ⟨.ro, false, 1, fun n _ _ _ => R.PORT.STATUS.LINK n⟩]⟩,
  ⟨0x14, 1, 0, 1, 0, false, [⟨.w1c, false, 1, fun n _ _ _ => R.PORT.STICKY.DRAIN_TIMEOUT_SEEN n⟩, ⟨.w1c, false, 1, fun n _ _ _ => R.PORT.STICKY.PN_TH_SEEN n⟩, ⟨.w1c, false, 1, fun n _ _ _ => R.PORT.STICKY.LINK_UP_SEEN n⟩, ⟨.w1c, false, 1, fun n _ _ _ => R.PORT.STICKY.LINK_DOWN_SEEN n⟩]⟩,
  ⟨0x18, 1, 0, 1, 0, false, [⟨.ro, false, 1, fun n _ _ _ => R.PORT.LINK_DOWNS.COUNT n⟩]⟩,
  ⟨0x20, 1, 0, 1, 0, false, [⟨.dl, false, 1, fun n _ _ _ => R.PORT.PRECLASS.TRUST n⟩, ⟨.dl, false, 1, fun n _ _ _ => R.PORT.PRECLASS.DEFAULT_TC n⟩, ⟨.dl, false, 1, fun n _ _ _ => R.PORT.PRECLASS.DEFAULT_DP n⟩]⟩,
  ⟨0x24, 4, 4, 1, 0, false, [⟨.dl, false, 4, fun n a _ j => R.PORT.PCP_MAP_k.ENTRY n a j⟩]⟩,
  ⟨0x34, 1, 0, 1, 0, false, [⟨.dl, false, 1, fun n _ _ _ => R.PORT.MAC_LO.MAC n⟩]⟩,
  ⟨0x38, 1, 0, 1, 0, false, [⟨.dl, false, 1, fun n _ _ _ => R.PORT.MAC_HI.MAC n⟩]⟩,
  ⟨0x40, 16, 4, 1, 0, false, [⟨.dl, false, 4, fun n a _ j => R.PORT.DSCP_MAP_k.ENTRY n a j⟩]⟩,
  ⟨0x80, 8, 4, 1, 0, false, [⟨.dl, false, 1, fun n a _ _ => R.PORT.ETYPE_k.EN n a⟩, ⟨.dl, false, 1, fun n a _ _ => R.PORT.ETYPE_k.DP n a⟩, ⟨.dl, false, 1, fun n a _ _ => R.PORT.ETYPE_k.TC n a⟩, ⟨.dl, false, 1, fun n a _ _ => R.PORT.ETYPE_k.ETYPE n a⟩]⟩,
  ⟨0x100, 1, 0, 1, 0, true, [⟨.ro, false, 1, fun n _ _ _ => R.PORT.RX_FRAMES.COUNT n⟩]⟩,
  ⟨0x108, 1, 0, 1, 0, true, [⟨.ro, false, 1, fun n _ _ _ => R.PORT.RX_BYTES.COUNT n⟩]⟩,
  ⟨0x110, 1, 0, 1, 0, true, [⟨.ro, false, 1, fun n _ _ _ => R.PORT.TX_FRAMES.COUNT n⟩]⟩,
  ⟨0x118, 1, 0, 1, 0, true, [⟨.ro, false, 1, fun n _ _ _ => R.PORT.TX_BYTES.COUNT n⟩]⟩,
  ⟨0x120, 8, 4, 1, 0, false, [⟨.ro, false, 1, fun n a _ _ => R.PORT.RX_ERR_k.COUNT n a⟩]⟩,
  ⟨0x200, 18, 8, 1, 0, true, [⟨.ro, false, 1, fun n a _ _ => R.PORT.DISC_c.COUNT n a⟩]⟩,
  ⟨0x400, 1, 0, 1, 0, false, [⟨.dl, false, 1, fun n _ _ _ => R.PORT.SECY_CTRL.USE_SCB n⟩, ⟨.dl, false, 1, fun n _ _ _ => R.PORT.SECY_CTRL.USE_ES n⟩, ⟨.dl, false, 1, fun n _ _ _ => R.PORT.SECY_CTRL.INCLUDE_SCI n⟩, ⟨.dl, false, 1, fun n _ _ _ => R.PORT.SECY_CTRL.REPLAY n⟩, ⟨.dl, false, 1, fun n _ _ _ => R.PORT.SECY_CTRL.PROTECT_ONLY n⟩, ⟨.dl, false, 1, fun n _ _ _ => R.PORT.SECY_CTRL.CONF_OFFSET n⟩, ⟨.dl, false, 1, fun n _ _ _ => R.PORT.SECY_CTRL.VALIDATE n⟩, ⟨.dl, false, 1, fun n _ _ _ => R.PORT.SECY_CTRL.CIPHER n⟩, ⟨.dl, false, 1, fun n _ _ _ => R.PORT.SECY_CTRL.EN n⟩]⟩,
  ⟨0x404, 1, 0, 1, 0, false, [⟨.dl, false, 1, fun n _ _ _ => R.PORT.REPLAY_WINDOW.WINDOW n⟩]⟩,
  ⟨0x408, 1, 0, 1, 0, false, [⟨.dl, false, 1, fun n _ _ _ => R.PORT.PN_TH.TH n⟩]⟩,
  ⟨0x40c, 1, 0, 1, 0, false, [⟨.ro, false, 1, fun n _ _ _ => R.PORT.SECY_STATUS.RX_SCS n⟩, ⟨.ro, false, 1, fun n _ _ _ => R.PORT.SECY_STATUS.TX_SA_VALID n⟩, ⟨.ro, false, 1, fun n _ _ _ => R.PORT.SECY_STATUS.TX_AN n⟩]⟩,
  ⟨0x440, 14, 8, 1, 0, true, [⟨.ro, false, 1, fun n a _ _ => R.PORT.MACSEC_STAT_k.COUNT n a⟩]⟩]

/-- The registers of TIME that its chapter lays out. -/
def layoutTIME : List RegRow := [
  ⟨0x0, 1, 0, 1, 0, false, [⟨.dl, false, 1, fun _ _ _ _ => R.TIME.OSC.SRC⟩, ⟨.dl, false, 1, fun _ _ _ _ => R.TIME.OSC.PTP_INST⟩, ⟨.ro, false, 1, fun _ _ _ _ => R.TIME.OSC.REF_LOCK⟩, ⟨.ro, false, 1, fun _ _ _ _ => R.TIME.OSC.TCXO_OK⟩]⟩,
  ⟨0x4, 1, 0, 1, 0, false, [⟨.rw, true, 1, fun _ _ _ _ => R.TIME.OSC_TRIM.TRIM⟩]⟩,
  ⟨0x8, 1, 0, 1, 0, false, [⟨.dl, false, 1, fun _ _ _ _ => R.TIME.GATE.GATE_INST⟩]⟩,
  ⟨0xc, 1, 0, 1, 0, false, [⟨.wo, false, 1, fun _ _ _ _ => R.TIME.CAPTURE.GO⟩]⟩,
  ⟨0x40, 4, 32, 1, 0, false, [⟨.wo, true, 1, fun _ a _ _ => R.TIME.INST_i.CMD.CMD a⟩]⟩,
  ⟨0x44, 4, 32, 1, 0, false, [⟨.rw, true, 1, fun _ a _ _ => R.TIME.INST_i.SET_SEC_LO.SEC a⟩]⟩,
  ⟨0x48, 4, 32, 1, 0, false, [⟨.rw, true, 1, fun _ a _ _ => R.TIME.INST_i.SET_SEC_HI.SEC a⟩]⟩,
  ⟨0x4c, 4, 32, 1, 0, false, [⟨.rw, true, 1, fun _ a _ _ => R.TIME.INST_i.SET_NS.NS a⟩]⟩,
  ⟨0x50, 4, 32, 1, 0, false, [⟨.rw, true, 1, fun _ a _ _ => R.TIME.INST_i.OFFSET.NS a⟩]⟩,
  ⟨0x54, 4, 32, 1, 0, false, [⟨.rw, true, 1, fun _ a _ _ => R.TIME.INST_i.RATE.RATE a⟩]⟩,
  ⟨0x58, 4, 32, 1, 0, false, [⟨.rw, true, 1, fun _ a _ _ => R.TIME.INST_i.STATUS.SYNC a⟩, ⟨.ro, false, 1, fun _ a _ _ => R.TIME.INST_i.STATUS.RATE_LIMIT a⟩, ⟨.w1c, false, 1, fun _ a _ _ => R.TIME.INST_i.STATUS.STEP_SEEN a⟩]⟩,
  ⟨0x5c, 4, 32, 1, 0, false, [⟨.ro, false, 1, fun _ a _ _ => R.TIME.INST_i.STEPS.COUNT a⟩]⟩,
  ⟨0xc0, 4, 16, 1, 0, false, [⟨.ro, false, 1, fun _ a _ _ => R.TIME.SNAP_i.SEC_LO.SEC a⟩]⟩,
  ⟨0xc4, 4, 16, 1, 0, false, [⟨.ro, false, 1, fun _ a _ _ => R.TIME.SNAP_i.SEC_HI.SEC a⟩]⟩,
  ⟨0xc8, 4, 16, 1, 0, false, [⟨.ro, false, 1, fun _ a _ _ => R.TIME.SNAP_i.NS.NS a⟩]⟩,
  ⟨0xcc, 4, 16, 1, 0, false, [⟨.ro, false, 1, fun _ a _ _ => R.TIME.SNAP_i.FRAC.FRAC a⟩]⟩,
  ⟨0x100, 1, 0, 1, 0, false, [⟨.dl, false, 1, fun _ _ _ _ => R.TIME.PPS_OUT.EN⟩, ⟨.dl, false, 1, fun _ _ _ _ => R.TIME.PPS_OUT.INST⟩, ⟨.dl, false, 1, fun _ _ _ _ => R.TIME.PPS_OUT.WIDTH⟩]⟩,
  ⟨0x104, 1, 0, 1, 0, false, [⟨.dl, false, 1, fun _ _ _ _ => R.TIME.PPS_OUT_OFFSET.NS⟩]⟩,
  ⟨0x108, 1, 0, 1, 0, false, [⟨.dl, false, 1, fun _ _ _ _ => R.TIME.PPS_IN.EN⟩]⟩,
  ⟨0x10c, 1, 0, 1, 0, false, [⟨.ro, false, 1, fun _ _ _ _ => R.TIME.PPS_IN_SEQ.COUNT⟩]⟩,
  ⟨0x110, 4, 16, 1, 0, false, [⟨.ro, false, 1, fun _ a _ _ => R.TIME.PPS_IN_i.SEC_LO.SEC_LO a⟩]⟩,
  ⟨0x114, 4, 16, 1, 0, false, [⟨.ro, false, 1, fun _ a _ _ => R.TIME.PPS_IN_i.SEC_HI.SEC_HI a⟩]⟩,
  ⟨0x118, 4, 16, 1, 0, false, [⟨.ro, false, 1, fun _ a _ _ => R.TIME.PPS_IN_i.NS.NS a⟩]⟩,
  ⟨0x11c, 4, 16, 1, 0, false, [⟨.ro, false, 1, fun _ a _ _ => R.TIME.PPS_IN_i.FRAC.FRAC a⟩]⟩,
  ⟨0x150, 1, 0, 1, 0, false, [⟨.ro, false, 1, fun _ _ _ _ => R.TIME.PPS_IN_IGNORED.COUNT⟩]⟩,
  ⟨0x180, 1, 0, 1, 0, false, [⟨.ro, false, 1, fun _ _ _ _ => R.TIME.ETS_HEAD.VALID⟩, ⟨.ro, false, 1, fun _ _ _ _ => R.TIME.ETS_HEAD.PORT⟩, ⟨.ro, false, 1, fun _ _ _ _ => R.TIME.ETS_HEAD.INST⟩, ⟨.ro, false, 1, fun _ _ _ _ => R.TIME.ETS_HEAD.TAG⟩]⟩,
  ⟨0x184, 1, 0, 1, 0, false, [⟨.ro, false, 1, fun _ _ _ _ => R.TIME.ETS_SEC_LO.SEC⟩]⟩,
  ⟨0x188, 1, 0, 1, 0, false, [⟨.ro, false, 1, fun _ _ _ _ => R.TIME.ETS_SEC_HI.SEC⟩]⟩,
  ⟨0x18c, 1, 0, 1, 0, false, [⟨.ro, false, 1, fun _ _ _ _ => R.TIME.ETS_NS.NS⟩]⟩,
  ⟨0x190, 1, 0, 1, 0, false, [⟨.wo, false, 1, fun _ _ _ _ => R.TIME.ETS_POP.POP⟩]⟩,
  ⟨0x194, 1, 0, 1, 0, false, [⟨.ro, false, 1, fun _ _ _ _ => R.TIME.ETS_LOST.COUNT⟩]⟩,
  ⟨0x1a0, 3, 4, 1, 0, false, [⟨.dl, false, 16, fun _ a _ j => R.TIME.PORT_INST_k.INST a j⟩]⟩,
  ⟨0x200, 48, 4, 1, 0, false, [⟨.dl, false, 1, fun _ a _ _ => R.TIME.PORT_ADJ_n.RX a⟩, ⟨.dl, false, 1, fun _ a _ _ => R.TIME.PORT_ADJ_n.TX a⟩]⟩]

/-- The registers of PARSE that its chapter lays out. -/
def layoutPARSE : List RegRow := [
  ⟨0x10, 12, 4, 1, 0, false, [⟨.dl, false, 4, fun _ a _ j => R.PARSE.START_k.NODE a j⟩]⟩,
  ⟨0x40, 1, 0, 1, 0, false, [⟨.dl, false, 1, fun _ _ _ _ => R.PARSE.START_RECIRC.NODE⟩]⟩,
  ⟨0x44, 1, 0, 1, 0, false, [⟨.ro, false, 1, fun _ _ _ _ => R.PARSE.STATUS.PAT_OFF⟩]⟩,
  ⟨0x80, 16, 8, 1, 0, false, [⟨.dl, false, 1, fun _ a _ _ => R.PARSE.XPOL_RATE_q.EN a⟩, ⟨.dl, false, 1, fun _ a _ _ => R.PARSE.XPOL_RATE_q.RATE a⟩]⟩,
  ⟨0x84, 16, 8, 1, 0, false, [⟨.dl, false, 1, fun _ a _ _ => R.PARSE.XPOL_BURST_q.BURST a⟩]⟩,
  ⟨0x100, 4, 32, 6, 4, false, [⟨.ro, false, 1, fun _ a c _ => R.PARSE.OUTCOME_Pp_c.COUNT a c⟩]⟩,
  ⟨0x118, 4, 32, 1, 0, false, [⟨.ro, false, 1, fun _ a _ _ => R.PARSE.OUTCOME_Pp_DEFERRED.COUNT a⟩]⟩,
  ⟨0x11c, 4, 32, 1, 0, false, [⟨.ro, false, 1, fun _ a _ _ => R.PARSE.OUTCOME_Pp_CSUM_SKIPPED.COUNT a⟩]⟩,
  ⟨0x180, 16, 4, 1, 0, false, [⟨.ro, false, 1, fun _ a _ _ => R.PARSE.XPOL_DROP_q.COUNT a⟩]⟩]

/-- The registers of TABLES that its chapter lays out. -/
def layoutTABLES : List RegRow := [
  ⟨0x0, 1, 0, 1, 0, false, [⟨.rw, false, 1, fun _ _ _ _ => R.TABLES.RULESET_ACTIVE.BANK⟩]⟩,
  ⟨0x4, 1, 0, 1, 0, false, [⟨.ro, false, 1, fun _ _ _ _ => R.TABLES.RULESET_STATUS.SWAP_PENDING⟩, ⟨.ro, false, 4, fun _ _ _ j => R.TABLES.RULESET_STATUS.STATE j⟩]⟩,
  ⟨0x8, 4, 4, 1, 0, false, [⟨.ro, false, 1, fun _ a _ _ => R.TABLES.INFLIGHT_k.COUNT a⟩]⟩,
  ⟨0x18, 1, 0, 1, 0, false, [⟨.dl, false, 1, fun _ _ _ _ => R.TABLES.RULE_BANKS.SIZE3⟩, ⟨.dl, false, 1, fun _ _ _ _ => R.TABLES.RULE_BANKS.SIZE2⟩, ⟨.dl, false, 1, fun _ _ _ _ => R.TABLES.RULE_BANKS.SIZE1⟩, ⟨.dl, false, 1, fun _ _ _ _ => R.TABLES.RULE_BANKS.SIZE0⟩]⟩,
  ⟨0x1c, 1, 0, 1, 0, false, [⟨.dl, false, 1, fun _ _ _ _ => R.TABLES.DRAIN_LIMIT.LIMIT⟩]⟩,
  ⟨0x20, 1, 0, 1, 0, false, [⟨.w1c, false, 1, fun _ _ _ _ => R.TABLES.STICKY.LEARN_DROP_SEEN⟩, ⟨.w1c, false, 1, fun _ _ _ _ => R.TABLES.STICKY.LEARN_FULL_SEEN⟩, ⟨.w1c, false, 1, fun _ _ _ _ => R.TABLES.STICKY.SWAP_REFUSED⟩, ⟨.w1c, false, 1, fun _ _ _ _ => R.TABLES.STICKY.DRAIN_LIMIT_SEEN⟩]⟩,
  ⟨0x24, 1, 0, 1, 0, true, [⟨.ro, false, 1, fun _ _ _ _ => R.TABLES.SEQ_LO.COUNT⟩]⟩,
  ⟨0x30, 1, 0, 1, 0, false, [⟨.dl, false, 1, fun _ _ _ _ => R.TABLES.MAC_AGE.TIME⟩]⟩,
  ⟨0x34, 1, 0, 1, 0, false, [⟨.dl, false, 1, fun _ _ _ _ => R.TABLES.MAC_CFG.REMOTE_LEARN⟩, ⟨.dl, false, 1, fun _ _ _ _ => R.TABLES.MAC_CFG.FLUSH_ON_DOWN⟩]⟩,
  ⟨0x38, 1, 0, 1, 0, false, [⟨.ro, false, 1, fun _ _ _ _ => R.TABLES.MAC_COUNT.VALID⟩]⟩,
  ⟨0x3c, 1, 0, 1, 0, false, [⟨.ro, false, 1, fun _ _ _ _ => R.TABLES.MAC_STATIC.COUNT⟩]⟩,
  ⟨0x40, 1, 0, 1, 0, false, [⟨.ro, false, 1, fun _ _ _ _ => R.TABLES.LEARNS.COUNT⟩]⟩,
  ⟨0x44, 1, 0, 1, 0, false, [⟨.ro, false, 1, fun _ _ _ _ => R.TABLES.MAC_MOVES.COUNT⟩]⟩,
  ⟨0x48, 1, 0, 1, 0, false, [⟨.ro, false, 1, fun _ _ _ _ => R.TABLES.LEARN_FULL.COUNT⟩]⟩,
  ⟨0x4c, 1, 0, 1, 0, false, [⟨.ro, false, 1, fun _ _ _ _ => R.TABLES.LEARN_DROP.COUNT⟩]⟩,
  ⟨0x50, 1, 0, 1, 0, false, [⟨.ro, false, 1, fun _ _ _ _ => R.TABLES.LPM_COUNT.VALID⟩]⟩,
  ⟨0x54, 1, 0, 1, 0, false, [⟨.dl, false, 1, fun _ _ _ _ => R.TABLES.HROLE.ETH⟩, ⟨.dl, false, 1, fun _ _ _ _ => R.TABLES.HROLE.VLAN_A⟩, ⟨.dl, false, 1, fun _ _ _ _ => R.TABLES.HROLE.VLAN_B⟩, ⟨.dl, false, 1, fun _ _ _ _ => R.TABLES.HROLE.IPV4⟩, ⟨.dl, false, 1, fun _ _ _ _ => R.TABLES.HROLE.IPV6⟩]⟩,
  ⟨0x58, 1, 0, 1, 0, false, [⟨.dl, false, 1, fun _ _ _ _ => R.TABLES.UPORT_MODE.OWNER⟩]⟩,
  ⟨0x5c, 1, 0, 1, 0, false, [⟨.ro, false, 1, fun _ _ _ _ => R.TABLES.UPORT_STATUS.FULL⟩, ⟨.ro, false, 1, fun _ _ _ _ => R.TABLES.UPORT_STATUS.READY⟩]⟩,
  ⟨0x80, 24, 4, 1, 0, false, [⟨.dl, false, 1, fun _ a _ _ => R.TABLES.PORT_KEY_k.KPROF_ODD a⟩, ⟨.dl, false, 1, fun _ a _ _ => R.TABLES.PORT_KEY_k.PVID_ODD a⟩, ⟨.dl, false, 1, fun _ a _ _ => R.TABLES.PORT_KEY_k.KPROF_EVEN a⟩, ⟨.dl, false, 1, fun _ a _ _ => R.TABLES.PORT_KEY_k.PVID_EVEN a⟩]⟩,
  ⟨0x100, 16, 16, 1, 0, false, [⟨.dl, false, 1, fun _ a _ _ => R.TABLES.KPROF_p.CTRL.MAC_EN a⟩, ⟨.dl, false, 1, fun _ a _ _ => R.TABLES.KPROF_p.CTRL.LEARN_EN a⟩, ⟨.dl, false, 1, fun _ a _ _ => R.TABLES.KPROF_p.CTRL.LPM_EN a⟩, ⟨.dl, false, 1, fun _ a _ _ => R.TABLES.KPROF_p.CTRL.LPM_SRC a⟩, ⟨.dl, false, 1, fun _ a _ _ => R.TABLES.KPROF_p.CTRL.RULE_EN a⟩, ⟨.dl, false, 1, fun _ a _ _ => R.TABLES.KPROF_p.CTRL.SF_EN a⟩, ⟨.dl, false, 1, fun _ a _ _ => R.TABLES.KPROF_p.CTRL.FLOW_EN a⟩, ⟨.dl, false, 1, fun _ a _ _ => R.TABLES.KPROF_p.CTRL.FLOW_PROF a⟩, ⟨.dl, false, 1, fun _ a _ _ => R.TABLES.KPROF_p.CTRL.VRF a⟩]⟩,
  ⟨0x104, 16, 16, 1, 0, false, [⟨.dl, false, 1, fun _ a _ _ => R.TABLES.KPROF_p.FRAG_01.FRAG1 a⟩, ⟨.dl, false, 1, fun _ a _ _ => R.TABLES.KPROF_p.FRAG_01.FRAG0 a⟩]⟩,
  ⟨0x108, 16, 16, 1, 0, false, [⟨.dl, false, 1, fun _ a _ _ => R.TABLES.KPROF_p.FRAG_23.FRAG3 a⟩, ⟨.dl, false, 1, fun _ a _ _ => R.TABLES.KPROF_p.FRAG_23.FRAG2 a⟩]⟩,
  ⟨0x10c, 16, 16, 1, 0, false, [⟨.dl, false, 1, fun _ a _ _ => R.TABLES.KPROF_p.FRAG_45.FRAG5 a⟩, ⟨.dl, false, 1, fun _ a _ _ => R.TABLES.KPROF_p.FRAG_45.FRAG4 a⟩]⟩]

/-- The registers of FLOW that its chapter lays out. -/
def layoutFLOW : List RegRow := [
  ⟨0x0, 1, 0, 1, 0, false, [⟨.rw, false, 1, fun _ _ _ _ => R.FLOW.CTRL.CACHE_EN⟩, ⟨.rw, false, 1, fun _ _ _ _ => R.FLOW.CTRL.SLICE_EN⟩, ⟨.rw, false, 1, fun _ _ _ _ => R.FLOW.CTRL.EXPORT_EN⟩, ⟨.rw, false, 1, fun _ _ _ _ => R.FLOW.CTRL.SWEEP_EN⟩]⟩,
  ⟨0x4, 1, 0, 1, 0, false, [⟨.dl, false, 1, fun _ _ _ _ => R.FLOW.CFG.DEADLINE⟩, ⟨.dl, false, 1, fun _ _ _ _ => R.FLOW.CFG.RELOC_DEPTH⟩]⟩,
  ⟨0x8, 1, 0, 1, 0, false, [⟨.dl, false, 1, fun _ _ _ _ => R.FLOW.STASH_TH.TH⟩]⟩,
  ⟨0xc, 1, 0, 1, 0, false, [⟨.dl, false, 1, fun _ _ _ _ => R.FLOW.SWEEP.PASS⟩]⟩,
  ⟨0x10, 1, 0, 1, 0, false, [⟨.dl, false, 1, fun _ _ _ _ => R.FLOW.EXPORT.FLUSH⟩, ⟨.dl, false, 1, fun _ _ _ _ => R.FLOW.EXPORT.CHANNEL⟩]⟩,
  ⟨0x14, 1, 0, 1, 0, false, [⟨.dl, false, 1, fun _ _ _ _ => R.FLOW.EXPORT_STALL.TIME⟩]⟩,
  ⟨0x18, 1, 0, 1, 0, false, [⟨.ro, false, 1, fun _ _ _ _ => R.FLOW.STATUS.FLUSH_BUSY⟩, ⟨.ro, false, 1, fun _ _ _ _ => R.FLOW.STATUS.CACHE_QUIESCED⟩, ⟨.ro, false, 1, fun _ _ _ _ => R.FLOW.STATUS.SLICE_QUIESCED⟩, ⟨.ro, false, 1, fun _ _ _ _ => R.FLOW.STATUS.PANIC⟩, ⟨.ro, false, 1, fun _ _ _ _ => R.FLOW.STATUS.STASH_HIGH⟩, ⟨.ro, false, 1, fun _ _ _ _ => R.FLOW.STATUS.FULL⟩]⟩,
  ⟨0x1c, 1, 0, 1, 0, false, [⟨.w1c, false, 1, fun _ _ _ _ => R.FLOW.STICKY.SEEN⟩]⟩,
  ⟨0x20, 4, 4, 1, 0, false, [⟨.ro, false, 1, fun _ a _ _ => R.FLOW.SLICE_s_RECORDS.COUNT a⟩]⟩,
  ⟨0x30, 4, 4, 1, 0, false, [⟨.ro, false, 1, fun _ a _ _ => R.FLOW.SLICE_s_STASH.COUNT a⟩]⟩,
  ⟨0x40, 4, 4, 1, 0, false, [⟨.ro, false, 1, fun _ a _ _ => R.FLOW.SLICE_s_POISON.COUNT a⟩]⟩,
  ⟨0x100, 10, 8, 1, 0, true, [⟨.ro, false, 1, fun _ a _ _ => R.FLOW.RESULT_r.COUNT a⟩]⟩,
  ⟨0x150, 1, 0, 1, 0, true, [⟨.ro, false, 1, fun _ _ _ _ => R.FLOW.RESULT_RETRIED.COUNT⟩]⟩,
  ⟨0x180, 5, 8, 1, 0, true, [⟨.ro, false, 1, fun _ a _ _ => R.FLOW.EXPIRED_r.COUNT a⟩]⟩,
  ⟨0x1a8, 1, 0, 1, 0, true, [⟨.ro, false, 1, fun _ _ _ _ => R.FLOW.NOT_EXPORTED.COUNT⟩]⟩,
  ⟨0x1b0, 1, 0, 1, 0, false, [⟨.ro, false, 1, fun _ _ _ _ => R.FLOW.EXPORT_BATCHES.COUNT⟩]⟩,
  ⟨0x1b4, 1, 0, 1, 0, false, [⟨.ro, false, 1, fun _ _ _ _ => R.FLOW.RELOC_FAIL.COUNT⟩]⟩,
  ⟨0x1b8, 1, 0, 1, 0, false, [⟨.ro, false, 1, fun _ _ _ _ => R.FLOW.QUARANTINED.COUNT⟩]⟩,
  ⟨0x300, 1, 0, 1, 0, false, [⟨.wo, false, 1, fun _ _ _ _ => R.FLOW.KILL.GO⟩, ⟨.wo, false, 1, fun _ _ _ _ => R.FLOW.KILL.INDEX⟩]⟩,
  ⟨0x304, 1, 0, 1, 0, false, [⟨.wo, false, 1, fun _ _ _ _ => R.FLOW.FLUSH.GO⟩, ⟨.wo, false, 1, fun _ _ _ _ => R.FLOW.FLUSH.ALL⟩, ⟨.wo, false, 1, fun _ _ _ _ => R.FLOW.FLUSH.PROFILE⟩]⟩,
  ⟨0x310, 1, 0, 1, 0, false, [⟨.rw, false, 1, fun _ _ _ _ => R.FLOW.PEEK_INDEX.INDEX⟩]⟩,
  ⟨0x380, 32, 4, 1, 0, false, [⟨.ro, false, 1, fun _ a _ _ => R.FLOW.PEEK_k.DATA a⟩]⟩,
  ⟨0x200, 16, 4, 1, 0, false, [⟨.dl, false, 1, fun _ a _ _ => R.FLOW.KPARAM_p.TWIN a⟩, ⟨.dl, false, 1, fun _ a _ _ => R.FLOW.KPARAM_p.SET a⟩, ⟨.dl, false, 1, fun _ a _ _ => R.FLOW.KPARAM_p.EDIT a⟩, ⟨.dl, false, 1, fun _ a _ _ => R.FLOW.KPARAM_p.CLOSE_ON_FIN a⟩, ⟨.dl, false, 1, fun _ a _ _ => R.FLOW.KPARAM_p.STRICT a⟩, ⟨.dl, false, 1, fun _ a _ _ => R.FLOW.KPARAM_p.DIR a⟩]⟩,
  ⟨0x240, 8, 8, 1, 0, false, [⟨.dl, false, 1, fun _ a _ _ => R.FLOW.NATPOOL_k.ADDR.ADDR a⟩]⟩,
  ⟨0x244, 8, 8, 1, 0, false, [⟨.dl, false, 1, fun _ a _ _ => R.FLOW.NATPOOL_k.PORTS.HIGH a⟩, ⟨.dl, false, 1, fun _ a _ _ => R.FLOW.NATPOOL_k.PORTS.LOW a⟩]⟩,
  ⟨0x280, 8, 4, 1, 0, false, [⟨.rw, false, 1, fun _ a _ _ => R.FLOW.LB_g.VALID a⟩, ⟨.dl, false, 1, fun _ a _ _ => R.FLOW.LB_g.ACTION_BASE a⟩]⟩,
  ⟨0x2a0, 4, 12, 1, 0, false, [⟨.rw, true, 1, fun _ a _ _ => R.FLOW.RNAT_m.LOCAL.PREFIX a⟩]⟩,
  ⟨0x2a4, 4, 12, 1, 0, false, [⟨.rw, true, 1, fun _ a _ _ => R.FLOW.RNAT_m.TRAIN.PREFIX a⟩]⟩,
  ⟨0x2a8, 4, 12, 1, 0, false, [⟨.rw, true, 1, fun _ a _ _ => R.FLOW.RNAT_m.LEN.LEN a⟩]⟩,
  ⟨0x2d0, 1, 0, 1, 0, false, [⟨.dl, false, 1, fun _ _ _ _ => R.FLOW.SAMPLE_CFG.N_MAX⟩, ⟨.dl, false, 1, fun _ _ _ _ => R.FLOW.SAMPLE_CFG.STEP⟩, ⟨.dl, false, 1, fun _ _ _ _ => R.FLOW.SAMPLE_CFG.RELAX⟩]⟩,
  ⟨0x2d4, 1, 0, 1, 0, false, [⟨.dl, false, 1, fun _ _ _ _ => R.FLOW.DEFER_CFG.DEFER_AFTER⟩]⟩,
  ⟨0x2d8, 1, 0, 1, 0, false, [⟨.ro, false, 1, fun _ _ _ _ => R.FLOW.SAMPLE_STATE.DEFER⟩, ⟨.ro, false, 4, fun _ _ _ j => R.FLOW.SAMPLE_STATE.LOG2N j⟩]⟩,
  ⟨0x2dc, 1, 0, 1, 0, false, [⟨.dl, false, 1, fun _ _ _ _ => R.FLOW.TCP.HTYPE⟩]⟩,
  ⟨0x2e0, 1, 0, 1, 0, false, [⟨.ro, false, 1, fun _ _ _ _ => R.FLOW.NAT_EXHAUST.COUNT⟩]⟩,
  ⟨0x2e4, 1, 0, 1, 0, false, [⟨.ro, false, 1, fun _ _ _ _ => R.FLOW.CT_REFUSED.COUNT⟩]⟩,
  ⟨0x2e8, 1, 0, 1, 0, false, [⟨.ro, false, 1, fun _ _ _ _ => R.FLOW.REPINS.COUNT⟩]⟩,
  ⟨0x2ec, 1, 0, 1, 0, false, [⟨.ro, false, 1, fun _ _ _ _ => R.FLOW.SAMPLE_SKIPS.COUNT⟩]⟩,
  ⟨0x2f0, 1, 0, 1, 0, false, [⟨.ro, false, 1, fun _ _ _ _ => R.FLOW.DEFER_EPISODES.COUNT⟩]⟩,
  ⟨0x2f4, 1, 0, 1, 0, false, [⟨.ro, false, 1, fun _ _ _ _ => R.FLOW.TWIN_LOST.COUNT⟩]⟩,
  ⟨0x2f8, 1, 0, 1, 0, false, [⟨.ro, false, 1, fun _ _ _ _ => R.FLOW.LATE_BYTES.COUNT⟩]⟩]

/-- The registers of EDIT that its chapter lays out. -/
def layoutEDIT : List RegRow := [
  ⟨0x0, 1, 0, 1, 0, false, [⟨.w1c, false, 1, fun _ _ _ _ => R.EDIT.STICKY.MIRROR_DROP_SEEN⟩, ⟨.w1c, false, 1, fun _ _ _ _ => R.EDIT.STICKY.FRER_ROGUE_SEEN⟩, ⟨.w1c, false, 1, fun _ _ _ _ => R.EDIT.STICKY.EDIT_FAULT_SEEN⟩]⟩,
  ⟨0x10, 12, 4, 1, 0, false, [⟨.dl, false, 4, fun _ a _ j => R.EDIT.PORT_TPL_k.EN a j⟩, ⟨.dl, false, 4, fun _ a _ j => R.EDIT.PORT_TPL_k.TPL a j⟩]⟩,
  ⟨0x40, 2, 4, 1, 0, false, [⟨.dl, false, 8, fun _ a _ j => R.EDIT.PCP_REMARK_k.PCP a j⟩]⟩,
  ⟨0x48, 4, 4, 1, 0, false, [⟨.dl, false, 4, fun _ a _ j => R.EDIT.DSCP_REMARK_k.DSCP a j⟩]⟩,
  ⟨0x60, 1, 0, 1, 0, false, [⟨.dl, false, 1, fun _ _ _ _ => R.EDIT.FRER_CFG.HISTORY⟩, ⟨.dl, false, 1, fun _ _ _ _ => R.EDIT.FRER_CFG.RESET_MS⟩]⟩,
  ⟨0x64, 1, 0, 1, 0, false, [⟨.wo, false, 1, fun _ _ _ _ => R.EDIT.FRER_RESET.GO⟩, ⟨.wo, false, 1, fun _ _ _ _ => R.EDIT.FRER_RESET.STREAM⟩]⟩,
  ⟨0x68, 1, 0, 1, 0, false, [⟨.rw, false, 1, fun _ _ _ _ => R.EDIT.FRER_PEEK_INDEX.STREAM⟩]⟩,
  ⟨0x70, 1, 0, 1, 0, false, [⟨.ro, false, 1, fun _ _ _ _ => R.EDIT.FRER_PEEK_0.GEN_SEQ⟩, ⟨.ro, false, 1, fun _ _ _ _ => R.EDIT.FRER_PEEK_0.RCV_SEQ⟩]⟩,
  ⟨0x74, 1, 0, 1, 0, false, [⟨.ro, false, 1, fun _ _ _ _ => R.EDIT.FRER_PEEK_1.HISTORY⟩]⟩,
  ⟨0x78, 1, 0, 1, 0, false, [⟨.ro, false, 1, fun _ _ _ _ => R.EDIT.FRER_PEEK_2.TAKE_ANY⟩, ⟨.ro, false, 1, fun _ _ _ _ => R.EDIT.FRER_PEEK_2.ROGUE⟩]⟩,
  ⟨0x7c, 1, 0, 1, 0, false, [⟨.ro, false, 1, fun _ _ _ _ => R.EDIT.FRER_PEEK_3.PASSED⟩]⟩,
  ⟨0x80, 1, 0, 1, 0, false, [⟨.ro, false, 1, fun _ _ _ _ => R.EDIT.FRER_PEEK_4.DISCARDED⟩]⟩,
  ⟨0x84, 1, 0, 1, 0, false, [⟨.ro, false, 1, fun _ _ _ _ => R.EDIT.FRER_PEEK_5.LOST⟩]⟩,
  ⟨0xc0, 8, 8, 1, 0, false, [⟨.rw, false, 1, fun _ a _ _ => R.EDIT.MIRROR_m.DEST.KIND a⟩, ⟨.rw, false, 1, fun _ a _ _ => R.EDIT.MIRROR_m.DEST.SEAT a⟩, ⟨.rw, false, 1, fun _ a _ _ => R.EDIT.MIRROR_m.DEST.QUEUE a⟩, ⟨.rw, false, 1, fun _ a _ _ => R.EDIT.MIRROR_m.DEST.PORT a⟩]⟩,
  ⟨0xc4, 8, 8, 1, 0, false, [⟨.rw, false, 1, fun _ a _ _ => R.EDIT.MIRROR_m.CFG.CAUSE a⟩, ⟨.rw, false, 1, fun _ a _ _ => R.EDIT.MIRROR_m.CFG.TPL_EN a⟩, ⟨.rw, false, 1, fun _ a _ _ => R.EDIT.MIRROR_m.CFG.TPL a⟩, ⟨.rw, false, 1, fun _ a _ _ => R.EDIT.MIRROR_m.CFG.TRUNC a⟩]⟩,
  ⟨0x100, 1, 0, 1, 0, false, [⟨.ro, false, 1, fun _ _ _ _ => R.EDIT.EDIT_FAULTS.COUNT⟩]⟩,
  ⟨0x104, 1, 0, 1, 0, false, [⟨.ro, false, 1, fun _ _ _ _ => R.EDIT.EDIT_SKIPS.COUNT⟩]⟩,
  ⟨0x108, 1, 0, 1, 0, false, [⟨.ro, false, 1, fun _ _ _ _ => R.EDIT.MIRROR_DROP.COUNT⟩]⟩]

/-- The registers of BUF that its chapter lays out. -/
def layoutBUF : List RegRow := [
  ⟨0x0, 1, 0, 1, 0, false, [⟨.dl, false, 1, fun _ _ _ _ => R.BUF.CFG.MODE⟩]⟩,
  ⟨0x4, 1, 0, 1, 0, false, [⟨.dl, false, 1, fun _ _ _ _ => R.BUF.HEADROOM.CELLS⟩]⟩,
  ⟨0x8, 1, 0, 1, 0, false, [⟨.dl, false, 1, fun _ _ _ _ => R.BUF.SHARED.SIZE⟩]⟩,
  ⟨0xc, 1, 0, 1, 0, false, [⟨.ro, false, 1, fun _ _ _ _ => R.BUF.SHARED_EFF.SIZE⟩]⟩,
  ⟨0x10, 1, 0, 1, 0, false, [⟨.dl, false, 16, fun _ _ _ j => R.BUF.PG_MAP.PG j⟩]⟩,
  ⟨0x14, 1, 0, 1, 0, false, [⟨.dl, false, 4, fun _ _ _ j => R.BUF.DP_SCALE.SCALE j⟩]⟩,
  ⟨0x20, 6, 4, 1, 0, false, [⟨.dl, false, 10, fun _ a _ j => R.BUF.SRC_PROF_k.PROF a j⟩]⟩,
  ⟨0x40, 8, 16, 4, 4, false, [⟨.dl, false, 1, fun _ a c _ => R.BUF.ILIMIT_f_g.CELLS a c⟩]⟩,
  ⟨0xc0, 1, 0, 1, 0, false, [⟨.ro, false, 1, fun _ _ _ _ => R.BUF.COMMITTED.CELLS⟩]⟩,
  ⟨0xc4, 1, 0, 1, 0, false, [⟨.ro, false, 1, fun _ _ _ _ => R.BUF.FREE.CELLS⟩]⟩,
  ⟨0xc8, 1, 0, 1, 0, false, [⟨.ro, false, 1, fun _ _ _ _ => R.BUF.SHARED_USED.CELLS⟩]⟩,
  ⟨0xcc, 1, 0, 1, 0, false, [⟨.ro, false, 1, fun _ _ _ _ => R.BUF.SPARE.BANK⟩]⟩,
  ⟨0xd0, 3, 4, 1, 0, false, [⟨.ro, false, 8, fun _ a _ j => R.BUF.BANK_STATE_k.STATE a j⟩]⟩,
  ⟨0xe0, 1, 0, 1, 0, false, [⟨.rw, false, 1, fun _ _ _ _ => R.BUF.ROT_CFG.DRAIN_TO⟩, ⟨.rw, false, 1, fun _ _ _ _ => R.BUF.ROT_CFG.PERIOD⟩]⟩,
  ⟨0xe4, 1, 0, 1, 0, false, [⟨.wo, false, 1, fun _ _ _ _ => R.BUF.TEST_REQ.GO⟩, ⟨.wo, false, 1, fun _ _ _ _ => R.BUF.TEST_REQ.ALL⟩, ⟨.wo, false, 1, fun _ _ _ _ => R.BUF.TEST_REQ.BANK⟩]⟩,
  ⟨0xe8, 1, 0, 1, 0, false, [⟨.ro, false, 1, fun _ _ _ _ => R.BUF.TEST_STATUS.RESULT⟩, ⟨.ro, false, 1, fun _ _ _ _ => R.BUF.TEST_STATUS.BANK⟩, ⟨.ro, false, 1, fun _ _ _ _ => R.BUF.TEST_STATUS.QUEUED⟩, ⟨.ro, false, 1, fun _ _ _ _ => R.BUF.TEST_STATUS.CURRENT⟩]⟩,
  ⟨0xec, 1, 0, 1, 0, false, [⟨.w1c, false, 1, fun _ _ _ _ => R.BUF.STICKY.STOMP_SEEN⟩, ⟨.w1c, false, 1, fun _ _ _ _ => R.BUF.STICKY.NO_CELL_SEEN⟩, ⟨.w1c, false, 1, fun _ _ _ _ => R.BUF.STICKY.CRC_RETRY_SEEN⟩, ⟨.w1c, false, 1, fun _ _ _ _ => R.BUF.STICKY.DRAIN_TIMEOUT_SEEN⟩, ⟨.w1c, false, 1, fun _ _ _ _ => R.BUF.STICKY.RECIRC_YIELD_SEEN⟩]⟩,
  ⟨0xf0, 1, 0, 1, 0, false, [⟨.rw, false, 1, fun _ _ _ _ => R.BUF.QPEEK_INDEX.QUEUE⟩]⟩,
  ⟨0xf4, 1, 0, 1, 0, false, [⟨.ro, false, 1, fun _ _ _ _ => R.BUF.QPEEK_FILL.CELLS⟩]⟩,
  ⟨0xf8, 1, 0, 1, 0, false, [⟨.ro, false, 1, fun _ _ _ _ => R.BUF.QPEEK_SHARED.CELLS⟩]⟩,
  ⟨0xfc, 1, 0, 1, 0, false, [⟨.rw, false, 1, fun _ _ _ _ => R.BUF.IPEEK_INDEX.INDEX⟩]⟩,
  ⟨0x100, 1, 0, 1, 0, false, [⟨.ro, false, 1, fun _ _ _ _ => R.BUF.IPEEK_FILL.CELLS⟩]⟩,
  ⟨0x140, 17, 4, 1, 0, false, [⟨.ro, false, 1, fun _ a _ _ => R.BUF.CRC_RETRIES_b.COUNT a⟩]⟩,
  ⟨0x184, 1, 0, 1, 0, false, [⟨.ro, false, 1, fun _ _ _ _ => R.BUF.CRC_PERSIST.COUNT⟩]⟩,
  ⟨0x188, 1, 0, 1, 0, false, [⟨.ro, false, 1, fun _ _ _ _ => R.BUF.NO_CELL.COUNT⟩]⟩,
  ⟨0x18c, 1, 0, 1, 0, false, [⟨.ro, false, 1, fun _ _ _ _ => R.BUF.COPY_DROP.COUNT⟩]⟩,
  ⟨0x190, 1, 0, 1, 0, false, [⟨.ro, false, 1, fun _ _ _ _ => R.BUF.ROTATIONS.COUNT⟩]⟩,
  ⟨0x194, 1, 0, 1, 0, false, [⟨.ro, false, 1, fun _ _ _ _ => R.BUF.RECIRC_YIELD.COUNT⟩]⟩,
  ⟨0x200, 56, 4, 1, 0, false, [⟨.ro, false, 1, fun _ a _ _ => R.BUF.STOMPED_p.COUNT a⟩]⟩]

/-- The registers of TM that its chapter lays out. -/
def layoutTM : List RegRow := [
  ⟨0x0, 1, 0, 1, 0, false, [⟨.rw, false, 1, fun n _ _ _ => R.TM.CTRL.QUANTUM n⟩, ⟨.rw, false, 1, fun n _ _ _ => R.TM.CTRL.PORT_TB_EN n⟩, ⟨.rw, false, 1, fun n _ _ _ => R.TM.CTRL.GATE_EN n⟩, ⟨.dl, false, 1, fun n _ _ _ => R.TM.CTRL.TRUMP_COUNT n⟩]⟩,
  ⟨0x4, 1, 0, 1, 0, false, [⟨.dl, false, 1, fun n _ _ _ => R.TM.OVERHEAD.OVERHEAD n⟩]⟩,
  ⟨0x8, 1, 0, 1, 0, false, [⟨.rw, false, 1, fun n _ _ _ => R.TM.PORT_RATE.RATE n⟩]⟩,
  ⟨0xc, 1, 0, 1, 0, false, [⟨.rw, false, 1, fun n _ _ _ => R.TM.PORT_BURST.BURST n⟩]⟩,
  ⟨0x10, 1, 0, 1, 0, false, [⟨.rw, false, 1, fun n _ _ _ => R.TM.ADMIN_SEC_LO.SEC n⟩]⟩,
  ⟨0x14, 1, 0, 1, 0, false, [⟨.rw, false, 1, fun n _ _ _ => R.TM.ADMIN_SEC_HI.COUNT n⟩, ⟨.rw, false, 1, fun n _ _ _ => R.TM.ADMIN_SEC_HI.SEC n⟩]⟩,
  ⟨0x18, 1, 0, 1, 0, false, [⟨.rw, false, 1, fun n _ _ _ => R.TM.ADMIN_NS.NS n⟩]⟩,
  ⟨0x1c, 1, 0, 1, 0, false, [⟨.rw, false, 1, fun n _ _ _ => R.TM.ADMIN_CYCLE.CYCLE n⟩]⟩,
  ⟨0x20, 1, 0, 1, 0, false, [⟨.wo, false, 1, fun n _ _ _ => R.TM.GATE_CMD.CANCEL n⟩, ⟨.wo, false, 1, fun n _ _ _ => R.TM.GATE_CMD.ARM n⟩]⟩,
  ⟨0x24, 1, 0, 1, 0, false, [⟨.ro, false, 1, fun n _ _ _ => R.TM.OPER_SEC_LO.SEC n⟩]⟩,
  ⟨0x28, 1, 0, 1, 0, false, [⟨.ro, false, 1, fun n _ _ _ => R.TM.OPER_SEC_HI.COUNT n⟩, ⟨.ro, false, 1, fun n _ _ _ => R.TM.OPER_SEC_HI.SEC n⟩]⟩,
  ⟨0x2c, 1, 0, 1, 0, false, [⟨.ro, false, 1, fun n _ _ _ => R.TM.OPER_NS.NS n⟩]⟩,
  ⟨0x30, 1, 0, 1, 0, false, [⟨.ro, false, 1, fun n _ _ _ => R.TM.OPER_CYCLE.CYCLE n⟩]⟩,
  ⟨0x34, 1, 0, 1, 0, false, [⟨.ro, false, 1, fun n _ _ _ => R.TM.GATE_STATUS.GATES n⟩, ⟨.ro, false, 1, fun n _ _ _ => R.TM.GATE_STATUS.ENTRY n⟩, ⟨.ro, false, 1, fun n _ _ _ => R.TM.GATE_STATUS.RESTARTING n⟩, ⟨.ro, false, 1, fun n _ _ _ => R.TM.GATE_STATUS.PENDING n⟩]⟩,
  ⟨0x38, 1, 0, 1, 0, false, [⟨.w1c, false, 1, fun n _ _ _ => R.TM.STICKY.RETURN_SEEN n⟩, ⟨.w1c, false, 1, fun n _ _ _ => R.TM.STICKY.OVERRUN_SEEN n⟩, ⟨.w1c, false, 1, fun n _ _ _ => R.TM.STICKY.ADMIN_LOCKED n⟩, ⟨.w1c, false, 1, fun n _ _ _ => R.TM.STICKY.LIST_ERROR n⟩, ⟨.w1c, false, 1, fun n _ _ _ => R.TM.STICKY.BASE_IN_PAST n⟩]⟩,
  ⟨0x3c, 1, 0, 1, 0, false, [⟨.ro, false, 1, fun n _ _ _ => R.TM.QSTATUS.NONEMPTY n⟩, ⟨.ro, false, 1, fun n _ _ _ => R.TM.QSTATUS.HELD n⟩]⟩]

/-- The registers of TMX56 that its chapter lays out. -/
def layoutTMX56 : List RegRow := [
  ⟨0x0, 1, 0, 1, 0, false, [⟨.rw, false, 1, fun _ _ _ _ => R.TM.SF_PEEK_INDEX.FILTER⟩]⟩,
  ⟨0x4, 1, 0, 1, 0, false, [⟨.ro, false, 1, fun _ _ _ _ => R.TM.SF_MATCHED.COUNT⟩]⟩,
  ⟨0x8, 1, 0, 1, 0, false, [⟨.ro, false, 1, fun _ _ _ _ => R.TM.SF_PASSED.COUNT⟩]⟩,
  ⟨0xc, 1, 0, 1, 0, false, [⟨.ro, false, 1, fun _ _ _ _ => R.TM.SF_SDU_DROP.COUNT⟩]⟩,
  ⟨0x10, 1, 0, 1, 0, false, [⟨.ro, false, 1, fun _ _ _ _ => R.TM.SF_GATE_DROP.COUNT⟩]⟩,
  ⟨0x14, 1, 0, 1, 0, false, [⟨.ro, false, 1, fun _ _ _ _ => R.TM.SF_OCTET_DROP.COUNT⟩]⟩,
  ⟨0x18, 1, 0, 1, 0, false, [⟨.ro, false, 1, fun _ _ _ _ => R.TM.SF_RED_DROP.COUNT⟩]⟩,
  ⟨0x1c, 1, 0, 1, 0, false, [⟨.ro, false, 1, fun _ _ _ _ => R.TM.SF_STATE.BLOCKED⟩]⟩,
  ⟨0x20, 1, 0, 1, 0, false, [⟨.wo, false, 1, fun _ _ _ _ => R.TM.SF_UNBLOCK.GO⟩, ⟨.wo, false, 1, fun _ _ _ _ => R.TM.SF_UNBLOCK.FILTER⟩]⟩,
  ⟨0x24, 1, 0, 1, 0, false, [⟨.rw, false, 1, fun _ _ _ _ => R.TM.SG_PEEK_INDEX.LIST⟩]⟩,
  ⟨0x28, 1, 0, 1, 0, false, [⟨.ro, false, 1, fun _ _ _ _ => R.TM.SG_STATE.OPEN⟩, ⟨.ro, false, 1, fun _ _ _ _ => R.TM.SG_STATE.ENTRY⟩]⟩,
  ⟨0x2c, 1, 0, 1, 0, false, [⟨.ro, false, 1, fun _ _ _ _ => R.TM.SG_OCTETS.BYTES⟩]⟩,
  ⟨0x30, 1, 0, 1, 0, false, [⟨.ro, false, 1, fun _ _ _ _ => R.TM.SF_MISSES.COUNT⟩]⟩,
  ⟨0x34, 1, 0, 1, 0, false, [⟨.w1c, false, 1, fun _ _ _ _ => R.TM.POLICE_STICKY.BLOCKED_SEEN⟩, ⟨.w1c, false, 1, fun _ _ _ _ => R.TM.POLICE_STICKY.RED_SEEN⟩, ⟨.w1c, false, 1, fun _ _ _ _ => R.TM.POLICE_STICKY.GATE_DROP_SEEN⟩, ⟨.w1c, false, 1, fun _ _ _ _ => R.TM.POLICE_STICKY.SDU_SEEN⟩]⟩,
  ⟨0x38, 1, 0, 1, 0, false, [⟨.ro, false, 1, fun _ _ _ _ => R.TM.SF_YELLOW.COUNT⟩]⟩,
  ⟨0x3c, 1, 0, 1, 0, false, [⟨.ro, false, 1, fun _ _ _ _ => R.TM.SG_CYCLE.NS⟩]⟩]

/-- The registers of TMX57 that its chapter lays out. -/
def layoutTMX57 : List RegRow := [
  ⟨0x0, 1, 0, 1, 0, false, [⟨.rw, false, 1, fun _ _ _ _ => R.TM.METER_PEEK_INDEX.METER⟩]⟩,
  ⟨0x4, 1, 0, 1, 0, false, [⟨.ro, false, 1, fun _ _ _ _ => R.TM.METER_GREEN.COUNT⟩]⟩,
  ⟨0x8, 1, 0, 1, 0, false, [⟨.ro, false, 1, fun _ _ _ _ => R.TM.METER_YELLOW.COUNT⟩]⟩,
  ⟨0xc, 1, 0, 1, 0, false, [⟨.ro, false, 1, fun _ _ _ _ => R.TM.METER_RED.COUNT⟩]⟩,
  ⟨0x10, 1, 0, 1, 0, false, [⟨.ro, false, 1, fun _ _ _ _ => R.TM.METER_TC.BYTES⟩]⟩,
  ⟨0x14, 1, 0, 1, 0, false, [⟨.ro, false, 1, fun _ _ _ _ => R.TM.METER_TE.BYTES⟩]⟩,
  ⟨0x18, 1, 0, 1, 0, false, [⟨.ro, false, 1, fun _ _ _ _ => R.TM.METER_STATE.MARK_ALL_RED⟩]⟩,
  ⟨0x1c, 1, 0, 1, 0, false, [⟨.wo, false, 1, fun _ _ _ _ => R.TM.METER_CLEAR_RED.GO⟩, ⟨.wo, false, 1, fun _ _ _ _ => R.TM.METER_CLEAR_RED.METER⟩]⟩,
  ⟨0x20, 4, 4, 1, 0, false, [⟨.ro, false, 1, fun _ a _ _ => R.TM.RECIRC_FRAMES_Pn.COUNT a⟩]⟩,
  ⟨0x30, 1, 0, 1, 0, false, [⟨.ro, false, 1, fun _ _ _ _ => R.TM.CBS_CLAMPS.COUNT⟩]⟩,
  ⟨0x34, 1, 0, 1, 0, false, [⟨.w1c, false, 1, fun _ _ _ _ => R.TM.TM_STICKY.CLAMP_SEEN⟩, ⟨.w1c, false, 1, fun _ _ _ _ => R.TM.TM_STICKY.SWAP_SEEN⟩]⟩,
  ⟨0x38, 1, 0, 1, 0, false, [⟨.ro, false, 1, fun _ _ _ _ => R.TM.GATE_RETURNS.COUNT⟩]⟩,
  ⟨0x3c, 1, 0, 1, 0, false, [⟨.ro, false, 1, fun _ _ _ _ => R.TM.GATE_SWAPS.COUNT⟩]⟩]

/-- The registers of NLINK that its chapter lays out. -/
def layoutNLINK : List RegRow := [
  ⟨0x0, 1, 0, 1, 0, false, [⟨.dl, false, 1, fun n _ _ _ => R.NLINK.CTRL.FEC n⟩, ⟨.dl, false, 1, fun n _ _ _ => R.NLINK.CTRL.REACH n⟩, ⟨.rw, false, 1, fun n _ _ _ => R.NLINK.CTRL.EN n⟩]⟩,
  ⟨0x4, 1, 0, 1, 0, false, [⟨.ro, false, 1, fun n _ _ _ => R.NLINK.STATE.LAST_CAUSE n⟩, ⟨.ro, false, 1, fun n _ _ _ => R.NLINK.STATE.QUIESCED n⟩, ⟨.ro, false, 1, fun n _ _ _ => R.NLINK.STATE.KEY_PHASE n⟩, ⟨.ro, false, 1, fun n _ _ _ => R.NLINK.STATE.LONG_WINDOW n⟩, ⟨.ro, false, 1, fun n _ _ _ => R.NLINK.STATE.STATE n⟩]⟩,
  ⟨0x8, 1, 0, 1, 0, false, [⟨.ro, false, 1, fun n _ _ _ => R.NLINK.PEER.VALID n⟩, ⟨.ro, false, 1, fun n _ _ _ => R.NLINK.PEER.SEAT n⟩]⟩,
  ⟨0xc, 4, 4, 1, 0, false, [⟨.ro, false, 1, fun n a _ _ => R.NLINK.PEER_ID_k.ID n a⟩]⟩,
  ⟨0x20, 1, 0, 1, 0, false, [⟨.ro, false, 1, fun n _ _ _ => R.NLINK.RTT.NS n⟩]⟩,
  ⟨0x24, 1, 0, 1, 0, false, [⟨.dl, false, 1, fun n _ _ _ => R.NLINK.TIMERS.DOWN_TO n⟩, ⟨.dl, false, 1, fun n _ _ _ => R.NLINK.TIMERS.STOP_TO n⟩]⟩,
  ⟨0x28, 1, 0, 1, 0, false, [⟨.dl, false, 1, fun n _ _ _ => R.NLINK.ACK_MARGIN.US n⟩]⟩,
  ⟨0x2c, 1, 0, 1, 0, false, [⟨.dl, false, 1, fun n _ _ _ => R.NLINK.STALE_AGE.MS n⟩]⟩,
  ⟨0x30, 1, 0, 1, 0, false, [⟨.ro, false, 1, fun n _ _ _ => R.NLINK.WINDOW.BLOCKS n⟩]⟩,
  ⟨0x40, 8, 4, 1, 0, false, [⟨.dl, false, 1, fun n a _ _ => R.NLINK.SHARE_k.BLOCKS n a⟩]⟩,
  ⟨0x60, 1, 0, 1, 0, false, [⟨.dl, false, 16, fun n _ _ j => R.NLINK.CLASS_MAP.DP n j⟩]⟩,
  ⟨0x64, 1, 0, 1, 0, false, [⟨.w1c, false, 1, fun n _ _ _ => R.NLINK.STICKY.AUTH_FAIL_SEEN n⟩, ⟨.w1c, false, 1, fun n _ _ _ => R.NLINK.STICKY.RESEND_SEEN n⟩, ⟨.w1c, false, 1, fun n _ _ _ => R.NLINK.STICKY.DOWN_SEEN n⟩, ⟨.w1c, false, 1, fun n _ _ _ => R.NLINK.STICKY.UP_SEEN n⟩]⟩,
  ⟨0x80, 1, 0, 1, 0, false, [⟨.ro, false, 1, fun n _ _ _ => R.NLINK.RESENT.COUNT n⟩]⟩,
  ⟨0x84, 1, 0, 1, 0, false, [⟨.ro, false, 1, fun n _ _ _ => R.NLINK.CRC_ERR.COUNT n⟩]⟩,
  ⟨0x88, 1, 0, 1, 0, false, [⟨.ro, false, 1, fun n _ _ _ => R.NLINK.AUTH_FAIL.COUNT n⟩]⟩,
  ⟨0x8c, 1, 0, 1, 0, false, [⟨.ro, false, 1, fun n _ _ _ => R.NLINK.OUT_OF_SEQ.COUNT n⟩]⟩,
  ⟨0x90, 1, 0, 1, 0, false, [⟨.ro, false, 1, fun n _ _ _ => R.NLINK.BAD_TYPE.COUNT n⟩]⟩,
  ⟨0x94, 1, 0, 1, 0, false, [⟨.ro, false, 1, fun n _ _ _ => R.NLINK.SESSIONS.COUNT n⟩]⟩,
  ⟨0x98, 1, 0, 1, 0, false, [⟨.ro, false, 1, fun n _ _ _ => R.NLINK.REKEYS.COUNT n⟩]⟩,
  ⟨0x9c, 1, 0, 1, 0, false, [⟨.ro, false, 1, fun n _ _ _ => R.NLINK.RX_PARTIAL.COUNT n⟩]⟩,
  ⟨0xa0, 1, 0, 1, 0, false, [⟨.ro, false, 1, fun n _ _ _ => R.NLINK.RX_ABORT.COUNT n⟩]⟩,
  ⟨0xc0, 1, 0, 1, 0, true, [⟨.ro, false, 1, fun n _ _ _ => R.NLINK.TX_BLOCKS.COUNT n⟩]⟩,
  ⟨0xc8, 1, 0, 1, 0, true, [⟨.ro, false, 1, fun n _ _ _ => R.NLINK.RX_BLOCKS.COUNT n⟩]⟩,
  ⟨0xd0, 1, 0, 1, 0, true, [⟨.ro, false, 1, fun n _ _ _ => R.NLINK.TX_FRAMES.COUNT n⟩]⟩,
  ⟨0xd8, 1, 0, 1, 0, true, [⟨.ro, false, 1, fun n _ _ _ => R.NLINK.RX_FRAMES.COUNT n⟩]⟩,
  ⟨0x200, 18, 8, 1, 0, true, [⟨.ro, false, 1, fun n a _ _ => R.NLINK.DISC_c.COUNT n a⟩]⟩]

/-- The registers of NLINK0 that its chapter lays out. -/
def layoutNLINK0 : List RegRow := [
  ⟨0x8000, 1, 0, 1, 0, false, [⟨.dl, false, 1, fun _ _ _ _ => R.NLINK.SEAT.SEAT⟩]⟩,
  ⟨0x8004, 1, 0, 1, 0, false, [⟨.dl, false, 1, fun _ _ _ _ => R.NLINK.TABLE_ID.ID⟩]⟩,
  ⟨0x8008, 1, 0, 1, 0, false, [⟨.dl, false, 1, fun _ _ _ _ => R.NLINK.HOP_INIT.HOPS⟩]⟩,
  ⟨0x800c, 1, 0, 1, 0, false, [⟨.dl, false, 1, fun _ _ _ _ => R.NLINK.GUARD_TO.US⟩]⟩,
  ⟨0x8010, 1, 0, 1, 0, false, [⟨.rw, true, 1, fun _ _ _ _ => R.NLINK.FLOOD_TREE.LINKS⟩]⟩,
  ⟨0x8014, 1, 0, 1, 0, false, [⟨.rw, false, 1, fun _ _ _ _ => R.NLINK.RT_INDEX.SEAT⟩]⟩,
  ⟨0x8018, 1, 0, 1, 0, false, [⟨.rw, true, 1, fun _ _ _ _ => R.NLINK.RT_ENTRY.ENTRY⟩]⟩,
  ⟨0x801c, 1, 0, 1, 0, false, [⟨.ro, false, 1, fun _ _ _ _ => R.NLINK.GUARDS.COUNT⟩]⟩,
  ⟨0x8020, 1, 0, 1, 0, false, [⟨.ro, false, 1, fun _ _ _ _ => R.NLINK.GUARD_ECHO.COUNT⟩]⟩,
  ⟨0x8024, 1, 0, 1, 0, false, [⟨.ro, false, 1, fun _ _ _ _ => R.NLINK.GUARD_TIMEOUT.COUNT⟩]⟩,
  ⟨0x8028, 1, 0, 1, 0, false, [⟨.ro, false, 1, fun _ _ _ _ => R.NLINK.FAILOVERS.COUNT⟩]⟩,
  ⟨0x802c, 1, 0, 1, 0, false, [⟨.w1c, false, 1, fun _ _ _ _ => R.NLINK.SEAT_STICKY.DUP_SEAT_SEEN⟩, ⟨.w1c, false, 1, fun _ _ _ _ => R.NLINK.SEAT_STICKY.NO_ROUTE_SEEN⟩]⟩]

/-- The registers of FAULT that its chapter lays out. -/
def layoutFAULT : List RegRow := [
  ⟨0x0, 1, 0, 1, 0, false, [⟨.ro, false, 1, fun _ _ _ _ => R.FAULT.STATE.EXITING⟩, ⟨.ro, false, 1, fun _ _ _ _ => R.FAULT.STATE.FORCED⟩, ⟨.ro, false, 1, fun _ _ _ _ => R.FAULT.STATE.SVC_HELD⟩, ⟨.ro, false, 1, fun _ _ _ _ => R.FAULT.STATE.GRAVE_LATCHED⟩, ⟨.ro, false, 1, fun _ _ _ _ => R.FAULT.STATE.BYP⟩, ⟨.ro, false, 1, fun _ _ _ _ => R.FAULT.STATE.FAULT_N⟩, ⟨.ro, false, 1, fun _ _ _ _ => R.FAULT.STATE.PULSING⟩, ⟨.ro, false, 1, fun _ _ _ _ => R.FAULT.STATE.FOLD⟩]⟩,
  ⟨0x4, 1, 0, 1, 0, false, [⟨.dl, false, 1, fun _ _ _ _ => R.FAULT.CTRL.FAULT_PULSE⟩, ⟨.rw, false, 1, fun _ _ _ _ => R.FAULT.CTRL.FAULT_N_SW⟩, ⟨.rw, false, 1, fun _ _ _ _ => R.FAULT.CTRL.BYP_FORCE⟩]⟩,
  ⟨0x8, 1, 0, 1, 0, false, [⟨.wo, false, 1, fun _ _ _ _ => R.FAULT.FOLD_EXIT.GO⟩]⟩,
  ⟨0xc, 1, 0, 1, 0, false, [⟨.wo, false, 1, fun _ _ _ _ => R.FAULT.FOLD_REQ.GO⟩]⟩,
  ⟨0x10, 4, 4, 1, 0, false, [⟨.dl, false, 1, fun _ a _ _ => R.FAULT.COUNTDOWN_c.US a⟩]⟩,
  ⟨0x20, 1, 0, 1, 0, false, [⟨.ro, false, 1, fun _ _ _ _ => R.FAULT.EXIT_REFUSED.REASON⟩, ⟨.ro, false, 1, fun _ _ _ _ => R.FAULT.EXIT_REFUSED.COUNT⟩]⟩,
  ⟨0x24, 1, 0, 1, 0, false, [⟨.ro, false, 1, fun _ _ _ _ => R.FAULT.SUMMARY.CLASS_SET⟩]⟩,
  ⟨0x28, 1, 0, 1, 0, false, [⟨.ro, false, 1, fun _ _ _ _ => R.FAULT.FREEZE.CORES⟩]⟩,
  ⟨0x2c, 1, 0, 1, 0, false, [⟨.ro, false, 1, fun _ _ _ _ => R.FAULT.PARITY.STATE_PAR⟩, ⟨.ro, false, 1, fun _ _ _ _ => R.FAULT.PARITY.CFG_PAR⟩]⟩,
  ⟨0x30, 4, 4, 1, 0, false, [⟨.ro, false, 1, fun _ a _ _ => R.FAULT.SET_COUNT_c.COUNT a⟩]⟩,
  ⟨0x40, 1, 0, 1, 0, false, [⟨.ro, false, 1, fun _ _ _ _ => R.FAULT.FOLD_COUNT.COUNT⟩]⟩,
  ⟨0x44, 1, 0, 1, 0, false, [⟨.ro, false, 1, fun _ _ _ _ => R.FAULT.EXIT_COUNT.COUNT⟩]⟩,
  ⟨0x48, 1, 0, 1, 0, false, [⟨.ro, false, 1, fun _ _ _ _ => R.FAULT.ESCALATIONS.TO_FOLD⟩, ⟨.ro, false, 1, fun _ _ _ _ => R.FAULT.ESCALATIONS.TO_RESTART⟩]⟩,
  ⟨0x4c, 1, 0, 1, 0, false, [⟨.ro, false, 1, fun _ _ _ _ => R.FAULT.RESTARTS.COUNT⟩]⟩,
  ⟨0x50, 1, 0, 1, 0, false, [⟨.ro, false, 1, fun _ _ _ _ => R.FAULT.T_FOLD.NS⟩]⟩,
  ⟨0x54, 1, 0, 1, 0, false, [⟨.ro, false, 1, fun _ _ _ _ => R.FAULT.T_BYP.NS⟩]⟩,
  ⟨0x58, 1, 0, 1, 0, false, [⟨.ro, false, 1, fun _ _ _ _ => R.FAULT.T_EXIT.NS⟩]⟩,
  ⟨0x5c, 1, 0, 1, 0, false, [⟨.ro, false, 1, fun _ _ _ _ => R.FAULT.FOLD_TIME.MS⟩]⟩,
  ⟨0x60, 1, 0, 1, 0, false, [⟨.ro, false, 1, fun _ _ _ _ => R.FAULT.PULSE_COUNT.COUNT⟩]⟩,
  ⟨0x64, 1, 0, 1, 0, false, [⟨.ro, false, 1, fun _ _ _ _ => R.FAULT.BYP_MISMATCH.COUNT⟩]⟩,
  ⟨0x68, 1, 0, 1, 0, false, [⟨.ro, false, 1, fun _ _ _ _ => R.FAULT.FORCED_FOLDS.COUNT⟩]⟩,
  ⟨0x6c, 1, 0, 1, 0, false, [⟨.ro, false, 1, fun _ _ _ _ => R.FAULT.REQ_COUNT.COUNT⟩]⟩,
  ⟨0x70, 1, 0, 1, 0, false, [⟨.ro, false, 1, fun _ _ _ _ => R.FAULT.CLEAR_REFUSED.COUNT⟩]⟩,
  ⟨0x74, 1, 0, 1, 0, false, [⟨.ro, false, 1, fun _ _ _ _ => R.FAULT.SELFTEST.PASS⟩]⟩,
  ⟨0x80, 10, 4, 1, 0, false, [⟨.ro, false, 1, fun _ a _ _ => R.FAULT.GROUP_COUNT_k.COUNT a⟩]⟩,
  ⟨0x100, 10, 4, 1, 0, false, [⟨.w1c, false, 1, fun _ a _ _ => R.FAULT.STICKY_k.STICKY a⟩]⟩,
  ⟨0x140, 10, 4, 1, 0, false, [⟨.as, true, 1, fun _ a _ _ => R.FAULT.INJECT_k.INJECT a⟩]⟩,
  ⟨0x180, 10, 4, 1, 0, false, [⟨.ro, false, 1, fun _ a _ _ => R.FAULT.PRESENT_k.PRESENT a⟩]⟩,
  ⟨0x1c0, 10, 4, 1, 0, false, [⟨.ro, false, 1, fun _ a _ _ => R.FAULT.RUNNING_k.RUNNING a⟩]⟩,
  ⟨0x200, 10, 4, 1, 0, false, [⟨.ro, false, 1, fun _ a _ _ => R.FAULT.LATCHED_k.LATCHED a⟩]⟩,
  ⟨0x240, 10, 4, 1, 0, false, [⟨.ro, false, 1, fun _ a _ _ => R.FAULT.FIXED_k.FIXED a⟩]⟩,
  ⟨0x300, 80, 4, 1, 0, false, [⟨.dl, false, 4, fun _ a _ j => R.FAULT.CFG_k.CORE a j⟩, ⟨.dl, false, 4, fun _ a _ j => R.FAULT.CFG_k.ESC a j⟩, ⟨.dl, false, 4, fun _ a _ j => R.FAULT.CFG_k.CD a j⟩, ⟨.dl, false, 4, fun _ a _ j => R.FAULT.CFG_k.CLASS a j⟩]⟩]

/-- The registers of SVC that its chapter lays out. -/
def layoutSVC : List RegRow := [
  ⟨0x0, 1, 0, 1, 0, false, [⟨.ro, false, 1, fun n _ _ _ => R.SVC.STATUS.OWNER n⟩, ⟨.ro, false, 1, fun n _ _ _ => R.SVC.STATUS.VENDOR n⟩]⟩,
  ⟨0x4, 1, 0, 1, 0, false, [⟨.ro, false, 1, fun n _ _ _ => R.SVC.READY.READY n⟩]⟩,
  ⟨0x8, 1, 0, 1, 0, true, [⟨.ro, false, 1, fun n _ _ _ => R.SVC.ISSUED.COUNT n⟩]⟩,
  ⟨0x10, 1, 0, 1, 0, false, [⟨.ro, false, 1, fun n _ _ _ => R.SVC.EVENT_HOLDER.HELD n⟩, ⟨.ro, false, 1, fun n _ _ _ => R.SVC.EVENT_HOLDER.THREAD n⟩]⟩,
  ⟨0x40, 16, 16, 1, 0, false, [⟨.ro, false, 1, fun n a _ _ => R.SVC.THREAD_t.STATE.TRAP_CAUSE n a⟩, ⟨.ro, false, 1, fun n a _ _ => R.SVC.THREAD_t.STATE.WAIT n a⟩, ⟨.ro, false, 1, fun n a _ _ => R.SVC.THREAD_t.STATE.MODE n a⟩, ⟨.ro, false, 1, fun n a _ _ => R.SVC.THREAD_t.STATE.STATE n a⟩]⟩,
  ⟨0x44, 16, 16, 1, 0, false, [⟨.ro, false, 1, fun n a _ _ => R.SVC.THREAD_t.PC_LO.PC n a⟩]⟩,
  ⟨0x48, 16, 16, 1, 0, false, [⟨.ro, false, 1, fun n a _ _ => R.SVC.THREAD_t.PC_HI.PC n a⟩]⟩,
  ⟨0x4c, 16, 16, 1, 0, false, [⟨.wo, false, 1, fun n a _ _ => R.SVC.THREAD_t.CMD.CMD n a⟩]⟩,
  ⟨0x200, 16, 16, 1, 0, false, [⟨.dl, false, 1, fun n a _ _ => R.SVC.REGION_r.BASE.BASE n a⟩]⟩,
  ⟨0x204, 16, 16, 1, 0, false, [⟨.dl, false, 1, fun n a _ _ => R.SVC.REGION_r.SIZE.SIZE n a⟩]⟩,
  ⟨0x208, 16, 16, 1, 0, false, [⟨.dl, false, 1, fun n a _ _ => R.SVC.REGION_r.CTRL.THREADS n a⟩, ⟨.dl, false, 1, fun n a _ _ => R.SVC.REGION_r.CTRL.X n a⟩, ⟨.dl, false, 1, fun n a _ _ => R.SVC.REGION_r.CTRL.W n a⟩, ⟨.dl, false, 1, fun n a _ _ => R.SVC.REGION_r.CTRL.R n a⟩, ⟨.dl, false, 1, fun n a _ _ => R.SVC.REGION_r.CTRL.EN n a⟩]⟩,
  ⟨0x400, 16, 8, 1, 0, true, [⟨.ro, false, 1, fun n a _ _ => R.SVC.FAULT_ADDR_t.COUNT n a⟩]⟩,
  ⟨0x600, 1, 0, 1, 0, false, [⟨.ro, false, 1, fun n _ _ _ => R.SVC.MC_STATUS.PATCH_OFF n⟩, ⟨.ro, false, 1, fun n _ _ _ => R.SVC.MC_STATUS.MATCH_COUNT n⟩, ⟨.ro, false, 1, fun n _ _ _ => R.SVC.MC_STATUS.WORD_COUNT n⟩]⟩,
  ⟨0x604, 1, 0, 1, 0, false, [⟨.ro, false, 1, fun n _ _ _ => R.SVC.ROM_VERSION.VERSION n⟩]⟩,
  ⟨0x608, 1, 0, 1, 0, false, [⟨.ro, false, 1, fun n _ _ _ => R.SVC.PATCH_PARITY.COUNT n⟩]⟩,
  ⟨0x60c, 1, 0, 1, 0, false, [⟨.ro, false, 1, fun n _ _ _ => R.SVC.ROM_PARITY.COUNT n⟩]⟩,
  ⟨0x610, 1, 0, 1, 0, false, [⟨.ro, false, 1, fun n _ _ _ => R.SVC.PATCH_RELOADS.COUNT n⟩]⟩,
  ⟨0x680, 32, 4, 1, 0, false, [⟨.ro, false, 1, fun n a _ _ => R.SVC.MC_MATCH_k.VALID n a⟩, ⟨.ro, false, 1, fun n a _ _ => R.SVC.MC_MATCH_k.ROM_ADDR n a⟩, ⟨.ro, false, 1, fun n a _ _ => R.SVC.MC_MATCH_k.PATCH_ADDR n a⟩]⟩]

/-- The registers of SVC0 that its chapter lays out. -/
def layoutSVC0 : List RegRow := [
  ⟨0x800, 1, 0, 1, 0, false, [⟨.wo, true, 1, fun _ _ _ _ => R.SVC.RESTART.GO⟩]⟩,
  ⟨0x804, 1, 0, 1, 0, false, [⟨.ro, false, 1, fun _ _ _ _ => R.SVC.DEADLOCK.NOW⟩]⟩,
  ⟨0x808, 1, 0, 1, 0, false, [⟨.rw, false, 1, fun _ _ _ _ => R.SVC.CH_PEEK_INDEX.CHANNEL⟩]⟩,
  ⟨0x80c, 1, 0, 1, 0, false, [⟨.ro, false, 1, fun _ _ _ _ => R.SVC.CH_PEEK.OWNED⟩, ⟨.ro, false, 1, fun _ _ _ _ => R.SVC.CH_PEEK.OWNER⟩, ⟨.ro, false, 1, fun _ _ _ _ => R.SVC.CH_PEEK.HW_WRITER⟩, ⟨.ro, false, 1, fun _ _ _ _ => R.SVC.CH_PEEK.WORDS⟩, ⟨.ro, false, 1, fun _ _ _ _ => R.SVC.CH_PEEK.MESSAGES⟩, ⟨.ro, false, 1, fun _ _ _ _ => R.SVC.CH_PEEK.WAITERS⟩]⟩,
  ⟨0x810, 1, 0, 1, 0, false, [⟨.ro, false, 1, fun _ _ _ _ => R.SVC.CH_ABANDONS.COUNT⟩]⟩,
  ⟨0x814, 1, 0, 1, 0, false, [⟨.ro, false, 1, fun _ _ _ _ => R.SVC.DEADLOCKS.COUNT⟩]⟩,
  ⟨0x818, 1, 0, 1, 0, false, [⟨.dl, false, 1, fun _ _ _ _ => R.SVC.TIMER_OWNER_LO.OWNER⟩]⟩,
  ⟨0x81c, 1, 0, 1, 0, false, [⟨.dl, false, 1, fun _ _ _ _ => R.SVC.TIMER_OWNER_HI.OWNER⟩]⟩,
  ⟨0x820, 1, 0, 1, 0, false, [⟨.ro, false, 1, fun _ _ _ _ => R.SVC.INJECT_REFUSED.COUNT⟩]⟩,
  ⟨0x824, 1, 0, 1, 0, true, [⟨.ro, false, 1, fun _ _ _ _ => R.SVC.INJECTED.COUNT⟩]⟩]

/-- The registers of INTC that its chapter lays out. -/
def layoutINTC : List RegRow := [
  ⟨0x0, 8, 4, 1, 0, false, [⟨.as, false, 1, fun _ a _ _ => R.INTC.PEND_SET_k.PEND a⟩]⟩,
  ⟨0x20, 8, 4, 1, 0, false, [⟨.ac, false, 1, fun _ a _ _ => R.INTC.PEND_CLR_k.PEND a⟩]⟩,
  ⟨0x40, 8, 4, 1, 0, false, [⟨.as, false, 1, fun _ a _ _ => R.INTC.MASK_SET_k.MASK a⟩]⟩,
  ⟨0x60, 8, 4, 1, 0, false, [⟨.ac, false, 1, fun _ a _ _ => R.INTC.MASK_CLR_k.MASK a⟩]⟩,
  ⟨0x80, 8, 4, 1, 0, false, [⟨.ro, false, 1, fun _ a _ _ => R.INTC.LOCK_k.LOCK a⟩]⟩,
  ⟨0xa0, 16, 4, 1, 0, false, [⟨.rw, false, 16, fun _ a _ j => R.INTC.ROUTE_k.CORE a j⟩]⟩,
  ⟨0xe0, 4, 4, 1, 0, false, [⟨.ro, false, 1, fun _ a _ _ => R.INTC.CLAIM_c.SOURCE a⟩]⟩,
  ⟨0xf0, 4, 4, 1, 0, false, [⟨.wo, false, 1, fun _ a _ _ => R.INTC.DONE_c.SOURCE a⟩]⟩,
  ⟨0x100, 4, 4, 1, 0, false, [⟨.ro, false, 1, fun _ a _ _ => R.INTC.LINE_c.ASSERTED a⟩, ⟨.ro, false, 1, fun _ a _ _ => R.INTC.LINE_c.IN_SERVICE a⟩, ⟨.ro, false, 1, fun _ a _ _ => R.INTC.LINE_c.SOURCE a⟩, ⟨.ro, false, 1, fun _ a _ _ => R.INTC.LINE_c.WAKE_CAUSE a⟩, ⟨.ro, false, 1, fun _ a _ _ => R.INTC.LINE_c.SLEEPING a⟩]⟩,
  ⟨0x110, 1, 0, 1, 0, false, [⟨.dl, false, 1, fun _ _ _ _ => R.INTC.SLEEP_CFG.EN⟩]⟩,
  ⟨0x114, 1, 0, 1, 0, false, [⟨.rw, false, 1, fun _ _ _ _ => R.INTC.WAKE_EN.EN⟩]⟩,
  ⟨0x118, 8, 4, 1, 0, false, [⟨.rw, false, 4, fun _ a _ j => R.INTC.WAKE_m.SOURCE a j⟩]⟩,
  ⟨0x138, 4, 4, 1, 0, false, [⟨.ro, false, 1, fun _ a _ _ => R.INTC.SLEEP_DEFERRED_c.COUNT a⟩]⟩,
  ⟨0x148, 4, 4, 1, 0, false, [⟨.ro, false, 1, fun _ a _ _ => R.INTC.WAKES_c.COUNT a⟩]⟩,
  ⟨0x158, 4, 4, 1, 0, false, [⟨.ro, false, 1, fun _ a _ _ => R.INTC.CLAIMS_c.COUNT a⟩]⟩,
  ⟨0x168, 1, 0, 1, 0, false, [⟨.ro, false, 1, fun _ _ _ _ => R.INTC.MERGED.COUNT⟩]⟩,
  ⟨0x16c, 1, 0, 1, 0, false, [⟨.w1c, false, 1, fun _ _ _ _ => R.INTC.STICKY.BAD_DONE⟩]⟩,
  ⟨0x170, 1, 0, 1, 0, false, [⟨.ro, false, 1, fun _ _ _ _ => R.INTC.OWNER_REFUSED.COUNT⟩]⟩,
  ⟨0x174, 1, 0, 1, 0, false, [⟨.ro, false, 1, fun _ _ _ _ => R.INTC.IMPLICIT_DONES.COUNT⟩]⟩,
  ⟨0x178, 1, 0, 1, 0, false, [⟨.ro, false, 1, fun _ _ _ _ => R.INTC.SUMMARY.SLEEPING⟩, ⟨.ro, false, 1, fun _ _ _ _ => R.INTC.SUMMARY.ASSERTED⟩]⟩,
  ⟨0x17c, 1, 0, 1, 0, false, [⟨.ro, false, 1, fun _ _ _ _ => R.INTC.SENTRY.ENTRIES⟩]⟩]

/-- The registers of DRAM that its chapter lays out. -/
def layoutDRAM : List RegRow := [
  ⟨0x0, 1, 0, 1, 0, false, [⟨.rw, false, 1, fun n _ _ _ => R.DRAM.CTRL.EN n⟩]⟩,
  ⟨0x4, 1, 0, 1, 0, false, [⟨.ro, false, 1, fun n _ _ _ => R.DRAM.STATUS.POSTPONED n⟩, ⟨.ro, false, 1, fun n _ _ _ => R.DRAM.STATUS.BAND n⟩, ⟨.ro, false, 1, fun n _ _ _ => R.DRAM.STATUS.PHY_OK n⟩, ⟨.ro, false, 1, fun n _ _ _ => R.DRAM.STATUS.READY n⟩]⟩,
  ⟨0x8, 1, 0, 1, 0, false, [⟨.w1c, false, 1, fun n _ _ _ => R.DRAM.STICKY.OFF_REFUSED n⟩, ⟨.w1c, false, 1, fun n _ _ _ => R.DRAM.STICKY.BAND_MISSED n⟩, ⟨.w1c, false, 1, fun n _ _ _ => R.DRAM.STICKY.REFRESH_FORCED_SEEN n⟩, ⟨.w1c, false, 1, fun n _ _ _ => R.DRAM.STICKY.UE_SEEN n⟩, ⟨.w1c, false, 1, fun n _ _ _ => R.DRAM.STICKY.CE_TH_SEEN n⟩]⟩,
  ⟨0x10, 1, 0, 1, 0, false, [⟨.ro, false, 1, fun n _ _ _ => R.DRAM.CE_COUNT.COUNT n⟩]⟩,
  ⟨0x14, 1, 0, 1, 0, false, [⟨.ro, false, 1, fun n _ _ _ => R.DRAM.UE_COUNT.COUNT n⟩]⟩,
  ⟨0x18, 1, 0, 1, 0, false, [⟨.ro, false, 1, fun n _ _ _ => R.DRAM.UE_ADDR_LO.ADDR n⟩]⟩,
  ⟨0x1c, 1, 0, 1, 0, false, [⟨.ro, false, 1, fun n _ _ _ => R.DRAM.UE_ADDR_HI.ADDR n⟩]⟩,
  ⟨0x20, 1, 0, 1, 0, false, [⟨.ro, false, 1, fun n _ _ _ => R.DRAM.REFRESH_FORCED.COUNT n⟩]⟩,
  ⟨0x24, 1, 0, 1, 0, false, [⟨.ro, false, 1, fun n _ _ _ => R.DRAM.BAND_SWITCHES.COUNT n⟩]⟩,
  ⟨0x28, 1, 0, 1, 0, false, [⟨.ro, false, 1, fun n _ _ _ => R.DRAM.SCRUB_CE.COUNT n⟩]⟩,
  ⟨0x2c, 1, 0, 1, 0, false, [⟨.ro, false, 1, fun n _ _ _ => R.DRAM.SCRUB_UE.COUNT n⟩]⟩,
  ⟨0x30, 1, 0, 1, 0, false, [⟨.ro, false, 1, fun n _ _ _ => R.DRAM.RD_RETRIES.COUNT n⟩]⟩]

/-- The registers of DRAM0 that its chapter lays out. -/
def layoutDRAM0 : List RegRow := [
  ⟨0x8000, 1, 0, 1, 0, false, [⟨.dl, false, 1, fun _ _ _ _ => R.DRAM.MAP.ORDER⟩]⟩,
  ⟨0x8004, 1, 0, 1, 0, false, [⟨.dl, false, 1, fun _ _ _ _ => R.DRAM.PANIC.HI⟩, ⟨.dl, false, 1, fun _ _ _ _ => R.DRAM.PANIC.LO⟩]⟩,
  ⟨0x8008, 1, 0, 1, 0, false, [⟨.ro, false, 1, fun _ _ _ _ => R.DRAM.PANIC_STATUS.PORTS⟩]⟩,
  ⟨0x800c, 1, 0, 1, 0, false, [⟨.w1c, false, 1, fun _ _ _ _ => R.DRAM.PANIC_STICKY.SEEN⟩]⟩,
  ⟨0x8010, 1, 0, 1, 0, false, [⟨.dl, false, 1, fun _ _ _ _ => R.DRAM.BE_MAX.US⟩]⟩,
  ⟨0x8014, 1, 0, 1, 0, false, [⟨.dl, false, 1, fun _ _ _ _ => R.DRAM.SCRUB.HOURS⟩]⟩,
  ⟨0x8018, 1, 0, 1, 0, false, [⟨.dl, false, 1, fun _ _ _ _ => R.DRAM.CE_TH.COUNT⟩]⟩,
  ⟨0x801c, 5, 4, 1, 0, false, [⟨.ro, false, 1, fun _ a _ _ => R.DRAM.PANIC_EPISODES_r.COUNT a⟩]⟩,
  ⟨0x8030, 1, 0, 1, 0, false, [⟨.ro, false, 1, fun _ _ _ _ => R.DRAM.SCRUB_PASSES.COUNT⟩]⟩,
  ⟨0x8034, 1, 0, 1, 0, false, [⟨.ro, false, 1, fun _ _ _ _ => R.DRAM.JUNCTION.TJ⟩]⟩]

/-- The registers of POOL that its chapter lays out. -/
def layoutPOOL : List RegRow := [
  ⟨0x0, 1, 0, 1, 0, false, [⟨.dl, false, 1, fun _ _ _ _ => R.POOL.CTRL.FALLBACK_DRAM⟩]⟩,
  ⟨0x4, 1, 0, 1, 0, false, [⟨.w1c, false, 1, fun _ _ _ _ => R.POOL.STICKY.EMPTY_SEEN⟩, ⟨.w1c, false, 1, fun _ _ _ _ => R.POOL.STICKY.DOUBLE_FREE_SEEN⟩, ⟨.w1c, false, 1, fun _ _ _ _ => R.POOL.STICKY.NONE_SEEN⟩]⟩,
  ⟨0x8, 1, 0, 1, 0, false, [⟨.ro, false, 1, fun _ _ _ _ => R.POOL.DOUBLE_FREES.COUNT⟩]⟩,
  ⟨0xc, 1, 0, 1, 0, false, [⟨.ro, false, 1, fun _ _ _ _ => R.POOL.TAKE_FAILS.COUNT⟩]⟩,
  ⟨0x10, 6, 4, 1, 0, false, [⟨.dl, false, 1, fun _ a _ _ => R.POOL.COUNT_k.COUNT a⟩]⟩,
  ⟨0x28, 6, 4, 1, 0, false, [⟨.ro, false, 1, fun _ a _ _ => R.POOL.FREE_k.LOW a⟩, ⟨.ro, false, 1, fun _ a _ _ => R.POOL.FREE_k.FREE a⟩]⟩,
  ⟨0x40, 48, 4, 1, 0, false, [⟨.dl, false, 8, fun _ a _ j => R.POOL.RES_m.N a j⟩]⟩]

/-- The registers of POWER that its chapter lays out. -/
def layoutPOWER : List RegRow := [
  ⟨0x0, 1, 0, 1, 0, false, [⟨.ro, false, 1, fun _ _ _ _ => R.POWER.STATUS.RAILS_OK⟩, ⟨.ro, false, 1, fun _ _ _ _ => R.POWER.STATUS.ALERT⟩, ⟨.ro, false, 1, fun _ _ _ _ => R.POWER.STATUS.CHARGING⟩, ⟨.ro, false, 1, fun _ _ _ _ => R.POWER.STATUS.HOLD_OK⟩, ⟨.ro, false, 1, fun _ _ _ _ => R.POWER.STATUS.LOW_BAND⟩, ⟨.ro, false, 1, fun _ _ _ _ => R.POWER.STATUS.ON_HOLD⟩]⟩,
  ⟨0x4, 1, 0, 1, 0, false, [⟨.w1c, false, 1, fun _ _ _ _ => R.POWER.STICKY.ON_HOLD_SEEN⟩, ⟨.w1c, false, 1, fun _ _ _ _ => R.POWER.STICKY.LOW_BAND_SEEN⟩, ⟨.w1c, false, 1, fun _ _ _ _ => R.POWER.STICKY.ALERT_SEEN⟩, ⟨.w1c, false, 1, fun _ _ _ _ => R.POWER.STICKY.HOLD_LOW_SEEN⟩]⟩,
  ⟨0x8, 1, 0, 1, 0, false, [⟨.ro, false, 1, fun _ _ _ _ => R.POWER.VIN.MV⟩]⟩,
  ⟨0xc, 1, 0, 1, 0, false, [⟨.ro, false, 1, fun _ _ _ _ => R.POWER.IIN.MA⟩]⟩,
  ⟨0x10, 1, 0, 1, 0, false, [⟨.ro, false, 1, fun _ _ _ _ => R.POWER.PIN.CW⟩]⟩,
  ⟨0x14, 1, 0, 1, 0, false, [⟨.ro, false, 1, fun _ _ _ _ => R.POWER.HOLD_V.MV⟩]⟩,
  ⟨0x18, 1, 0, 1, 0, false, [⟨.ro, false, 1, fun _ _ _ _ => R.POWER.TJ.MAX⟩, ⟨.ro, false, 1, fun _ _ _ _ => R.POWER.TJ.TJ⟩]⟩,
  ⟨0x1c, 1, 0, 1, 0, false, [⟨.dl, false, 1, fun _ _ _ _ => R.POWER.HOLD_CFG.CHARGE_TO⟩]⟩,
  ⟨0x20, 1, 0, 1, 0, false, [⟨.rw, false, 1, fun _ _ _ _ => R.POWER.QUIESCE.DRAIN_MODE⟩, ⟨.rw, false, 1, fun _ _ _ _ => R.POWER.QUIESCE.DRAIN_TO⟩]⟩,
  ⟨0x24, 1, 0, 1, 0, false, [⟨.ro, false, 1, fun _ _ _ _ => R.POWER.REQ_RESULT.DOMAIN⟩, ⟨.ro, false, 1, fun _ _ _ _ => R.POWER.REQ_RESULT.REASON⟩]⟩,
  ⟨0x28, 1, 0, 1, 0, false, [⟨.ro, false, 1, fun _ _ _ _ => R.POWER.SWITCHES.COUNT⟩]⟩,
  ⟨0x2c, 1, 0, 1, 0, false, [⟨.ro, false, 1, fun _ _ _ _ => R.POWER.REFUSALS.COUNT⟩]⟩,
  ⟨0x30, 1, 0, 1, 0, false, [⟨.ro, false, 1, fun _ _ _ _ => R.POWER.OFF_ACCESS.COUNT⟩]⟩,
  ⟨0x34, 1, 0, 1, 0, false, [⟨.ro, false, 1, fun _ _ _ _ => R.POWER.OFF_ADDR_LO.ADDR⟩]⟩,
  ⟨0x38, 1, 0, 1, 0, false, [⟨.ro, false, 1, fun _ _ _ _ => R.POWER.OFF_ADDR_HI.ADDR⟩]⟩,
  ⟨0x3c, 1, 0, 1, 0, false, [⟨.ro, false, 1, fun _ _ _ _ => R.POWER.RIDE_THROUGHS.COUNT⟩]⟩,
  ⟨0x40, 1, 0, 1, 0, false, [⟨.ro, false, 1, fun _ _ _ _ => R.POWER.CAP_TIME.MS⟩]⟩,
  ⟨0x100, 6, 4, 1, 0, false, [⟨.as, false, 1, fun _ a _ _ => R.POWER.PWR_ON_SET_k.ON a⟩]⟩,
  ⟨0x120, 6, 4, 1, 0, false, [⟨.ac, false, 1, fun _ a _ _ => R.POWER.PWR_ON_CLR_k.ON a⟩]⟩,
  ⟨0x140, 11, 4, 1, 0, false, [⟨.ro, false, 16, fun _ a _ j => R.POWER.DOM_STATE_k.STATE a j⟩]⟩]

/-- The registers of DEBUG that its chapter lays out. -/
def layoutDEBUG : List RegRow := [
  ⟨0x0, 1, 0, 1, 0, false, [⟨.ro, false, 1, fun _ _ _ _ => R.DEBUG.STATUS.FREEZE⟩, ⟨.ro, false, 1, fun _ _ _ _ => R.DEBUG.STATUS.HALTED_CORES⟩, ⟨.ro, false, 1, fun _ _ _ _ => R.DEBUG.STATUS.SCOPE⟩, ⟨.ro, false, 1, fun _ _ _ _ => R.DEBUG.STATUS.DEBUG⟩, ⟨.ro, false, 1, fun _ _ _ _ => R.DEBUG.STATUS.STEP_PENDING⟩, ⟨.ro, false, 1, fun _ _ _ _ => R.DEBUG.STATUS.UNCLAIMED_OPEN⟩, ⟨.ro, false, 1, fun _ _ _ _ => R.DEBUG.STATUS.ATTACHED⟩]⟩,
  ⟨0x10, 4, 4, 1, 0, false, [⟨.ro, false, 1, fun _ a _ _ => R.DEBUG.HALTED_c.THREADS a⟩]⟩,
  ⟨0x20, 1, 0, 1, 0, false, [⟨.ro, false, 1, fun _ _ _ _ => R.DEBUG.LAST_HALT.CAUSE⟩, ⟨.ro, false, 1, fun _ _ _ _ => R.DEBUG.LAST_HALT.INDEX⟩, ⟨.ro, false, 1, fun _ _ _ _ => R.DEBUG.LAST_HALT.THREAD⟩]⟩,
  ⟨0x24, 1, 0, 1, 0, false, [⟨.ro, false, 1, fun _ _ _ _ => R.DEBUG.PACKETS.COUNT⟩]⟩,
  ⟨0x28, 1, 0, 1, 0, false, [⟨.ro, false, 1, fun _ _ _ _ => R.DEBUG.CRC_ERRORS.COUNT⟩]⟩,
  ⟨0x2c, 1, 0, 1, 0, false, [⟨.ro, false, 1, fun _ _ _ _ => R.DEBUG.LOCKED_REFUSALS.COUNT⟩]⟩,
  ⟨0x30, 1, 0, 1, 0, false, [⟨.ro, false, 1, fun _ _ _ _ => R.DEBUG.DEBUG_WRITES.COUNT⟩]⟩,
  ⟨0x34, 1, 0, 1, 0, false, [⟨.ro, false, 1, fun _ _ _ _ => R.DEBUG.HITS.COUNT⟩]⟩,
  ⟨0x38, 1, 0, 1, 0, false, [⟨.ro, false, 1, fun _ _ _ _ => R.DEBUG.DETACHES.COUNT⟩]⟩,
  ⟨0x3c, 1, 0, 1, 0, false, [⟨.w1c, false, 1, fun _ _ _ _ => R.DEBUG.STICKY.WRITE_SEEN⟩, ⟨.w1c, false, 1, fun _ _ _ _ => R.DEBUG.STICKY.CRC_ERR_SEEN⟩, ⟨.w1c, false, 1, fun _ _ _ _ => R.DEBUG.STICKY.ATTACH_SEEN⟩]⟩]

/-- The registers of TP that its chapter lays out. -/
def layoutTP : List RegRow := [
  ⟨0x800, 1, 0, 1, 0, false, [⟨.wo, false, 1, fun n _ _ _ => R.TP.TP_CMD.GO n⟩, ⟨.wo, false, 1, fun n _ _ _ => R.TP.TP_CMD.OP n⟩, ⟨.wo, false, 1, fun n _ _ _ => R.TP.TP_CMD.MEM n⟩, ⟨.wo, false, 1, fun n _ _ _ => R.TP.TP_CMD.INDEX n⟩]⟩,
  ⟨0x804, 1, 0, 1, 0, false, [⟨.ro, false, 1, fun n _ _ _ => R.TP.TP_STATUS.BUSY n⟩, ⟨.ro, false, 1, fun n _ _ _ => R.TP.TP_STATUS.RESULT n⟩, ⟨.ro, false, 1, fun n _ _ _ => R.TP.TP_STATUS.INDEX n⟩]⟩,
  ⟨0x840, 18, 4, 1, 0, false, [⟨.rw, false, 1, fun n a _ _ => R.TP.TP_DATA_w.DATA n a⟩]⟩]

/-- The registers of TOP that its chapter lays out. -/
def layoutTOP : List RegRow := [
  ⟨0x0, 1, 0, 1, 0, false, [⟨.ro, false, 1, fun _ _ _ _ => R.TOP.ID.PART⟩, ⟨.ro, false, 1, fun _ _ _ _ => R.TOP.ID.VARIANT⟩, ⟨.ro, false, 1, fun _ _ _ _ => R.TOP.ID.STEPPING⟩]⟩,
  ⟨0x4, 1, 0, 1, 0, false, [⟨.ro, false, 1, fun _ _ _ _ => R.TOP.SERVICES_ROM.VERSION⟩]⟩,
  ⟨0x8, 1, 0, 1, 0, false, [⟨.ro, false, 1, fun _ _ _ _ => R.TOP.DEALER_ROM.VERSION⟩]⟩,
  ⟨0xc, 1, 0, 1, 0, true, [⟨.ro, false, 1, fun _ _ _ _ => R.TOP.UPTIME.MS⟩]⟩,
  ⟨0x14, 1, 0, 1, 0, false, [⟨.rw, false, 1, fun _ _ _ _ => R.TOP.SCRATCH.DATA⟩]⟩,
  ⟨0x18, 1, 0, 1, 0, false, [⟨.ro, false, 1, fun _ _ _ _ => R.TOP.UNMAPPED.COUNT⟩]⟩,
  ⟨0x1c, 1, 0, 1, 0, false, [⟨.ro, false, 1, fun _ _ _ _ => R.TOP.UNMAPPED_ADDR.ADDR⟩]⟩,
  ⟨0x20, 1, 0, 1, 0, false, [⟨.w1c, false, 1, fun _ _ _ _ => R.TOP.STICKY.MGMT_REFUSED⟩, ⟨.w1c, false, 1, fun _ _ _ _ => R.TOP.STICKY.UNMAPPED_SEEN⟩]⟩,
  ⟨0x40, 2, 16, 1, 0, false, [⟨.rw, false, 1, fun _ a _ _ => R.TOP.MDIO_CFG_m.DIV a⟩]⟩,
  ⟨0x44, 2, 16, 1, 0, false, [⟨.wo, false, 1, fun _ a _ _ => R.TOP.MDIO_CMD_m.GO a⟩, ⟨.wo, false, 1, fun _ a _ _ => R.TOP.MDIO_CMD_m.C45 a⟩, ⟨.wo, false, 1, fun _ a _ _ => R.TOP.MDIO_CMD_m.OP a⟩, ⟨.wo, false, 1, fun _ a _ _ => R.TOP.MDIO_CMD_m.PHYAD a⟩, ⟨.wo, false, 1, fun _ a _ _ => R.TOP.MDIO_CMD_m.REGAD a⟩, ⟨.wo, false, 1, fun _ a _ _ => R.TOP.MDIO_CMD_m.DATA a⟩]⟩,
  ⟨0x48, 2, 16, 1, 0, false, [⟨.ro, false, 1, fun _ a _ _ => R.TOP.MDIO_STATUS_m.BUSY a⟩, ⟨.ro, false, 1, fun _ a _ _ => R.TOP.MDIO_STATUS_m.BAD_CMD a⟩, ⟨.ro, false, 1, fun _ a _ _ => R.TOP.MDIO_STATUS_m.DATA a⟩]⟩,
  ⟨0x80, 2, 32, 1, 0, false, [⟨.rw, false, 1, fun _ a _ _ => R.TOP.I2C_CFG_i.FAST a⟩]⟩,
  ⟨0x84, 2, 32, 1, 0, false, [⟨.wo, false, 1, fun _ a _ _ => R.TOP.I2C_CMD_i.GO a⟩, ⟨.wo, false, 1, fun _ a _ _ => R.TOP.I2C_CMD_i.OP a⟩, ⟨.wo, false, 1, fun _ a _ _ => R.TOP.I2C_CMD_i.WLEN a⟩, ⟨.wo, false, 1, fun _ a _ _ => R.TOP.I2C_CMD_i.RLEN a⟩, ⟨.wo, false, 1, fun _ a _ _ => R.TOP.I2C_CMD_i.ADDR a⟩]⟩,
  ⟨0x88, 2, 32, 1, 0, false, [⟨.rw, false, 1, fun _ a _ _ => R.TOP.I2C_WDATA_i.DATA a⟩]⟩,
  ⟨0x8c, 2, 32, 1, 0, false, [⟨.ro, false, 1, fun _ a _ _ => R.TOP.I2C_RDATA_i.DATA a⟩]⟩,
  ⟨0x90, 2, 32, 1, 0, false, [⟨.ro, false, 1, fun _ a _ _ => R.TOP.I2C_STATUS_i.BUSY a⟩, ⟨.ro, false, 1, fun _ a _ _ => R.TOP.I2C_STATUS_i.RESULT a⟩]⟩,
  ⟨0xc0, 1, 0, 1, 0, false, [⟨.rw, false, 1, fun _ _ _ _ => R.TOP.GPIO_DIR.DIR⟩]⟩,
  ⟨0xc4, 1, 0, 1, 0, false, [⟨.as, false, 1, fun _ _ _ _ => R.TOP.GPIO_OUT_SET.OUT⟩]⟩,
  ⟨0xc8, 1, 0, 1, 0, false, [⟨.ac, false, 1, fun _ _ _ _ => R.TOP.GPIO_OUT_CLR.OUT⟩]⟩,
  ⟨0xcc, 1, 0, 1, 0, false, [⟨.ro, false, 1, fun _ _ _ _ => R.TOP.GPIO_IN.IN⟩]⟩,
  ⟨0xd0, 1, 0, 1, 0, false, [⟨.rw, false, 1, fun _ _ _ _ => R.TOP.LED_OUT.LED⟩]⟩]

/-- The registers that one instance of a block holds (R589): `TM[56]` and `TM[57]` hold the policing registers (R357), the
first `SVC`, `NLINK` and `DRAM` instances hold the module-wide ones too, and the table ports lie in PARSE and `TM[0]`-`TM[55]`
(R597). -/
def layout (b : Blk) (n : Nat) : List RegRow :=
  match b with
  | .top => layoutTOP
  | .deal => layoutDEAL
  | .sec => layoutSEC
  | .cadence => layoutCADENCE
  | .power => layoutPOWER
  | .fault => layoutFAULT
  | .intc => layoutINTC
  | .time => layoutTIME
  | .debug => layoutDEBUG
  | .pool => layoutPOOL
  | .parse => layoutPARSE ++ layoutTP
  | .tables => layoutTABLES
  | .flow => layoutFLOW
  | .edit => layoutEDIT
  | .buf => layoutBUF
  | .tm => if n = 56 then layoutTMX56 else if n = 57 then layoutTMX57 else layoutTM ++ layoutTP
  | .pipe => []
  | .svc => if n = 0 then layoutSVC ++ layoutSVC0 else layoutSVC
  | .dram => if n = 0 then layoutDRAM ++ layoutDRAM0 else layoutDRAM
  | .nlink => if n = 0 then layoutNLINK ++ layoutNLINK0 else layoutNLINK
  | .lane => layoutLANE
  | .port => layoutPORT

end Sys2Proof.Machine
end

