-- ==== Sys2Proof/Machine/State.lean ====
section
/-! DEFINITION. The state of the module, as plain data: the register store, and every buffer, queue, table and piece of
hidden state that the spec names, one structure per unit.  INVENTORY.md lists each field with its rule and reset value. -/
namespace Sys2Proof.Machine

/-- Raised by no command: every command of the block has a next state.  Kept as the host's interface asks for a type of
faults; safe, since nothing answers with it. -/
inductive Fault where
  /-- Never raised.  Safe. -/
  | none
  deriving DecidableEq, Repr

/-- Why a command has no meaning.  Safe: the model stops. -/
inductive Refusal where
  /-- Raised by an arm of `exec` whose command has no meaning yet.  Safe. -/
  | notModelled (mnemonic : String)
  deriving DecidableEq, Repr

/-- What a command answers. -/
abbrev Out (σ : Type) := Host.Outcome σ Fault Refusal

/-- The two variants (R3). -/
inductive Variant where
  | v32 | v16
  deriving DecidableEq, Repr

/-- Everything that runs for a time the spec gives, from an event to another: the model holds the period at which it is due. -/
inductive Tmr where
  /-- a countdown of a handled source (R414) -/
  | countdown (src : Nat)
  /-- the FAULT_N pulse in progress (R422) -/
  | pulse
  /-- the 2 ms after a FAULT_N pulse (R422) -/
  | pulseGap
  /-- the 50 ms before the identity page is read again (R98) -/
  | deckSettle
  /-- the journal budget's 300 s (R94) -/
  | journal
  /-- the Deal watchdog (R52) -/
  | dealWatch
  /-- an outstanding unlock challenge's 60 s (R125) -/
  | challenge
  /-- the back-off after a refused response (R128) -/
  | backoff
  /-- the unlock's DURATION (R127) -/
  | unlock
  /-- the 20 ms between two statements (R123) -/
  | attest
  /-- FLOOR_CFG.DELAY since commit (R118) -/
  | floorDelay
  /-- charge limit of HOLD (R550) -/
  | charge
  /-- drain timeout of a domain (R560) -/
  | drain (dom : Nat)
  /-- acknowledgement limit of a domain (R560) -/
  | quiesceAck (dom : Nat)
  /-- the switch of a domain that has acknowledged (R560) -/
  | switch (dom : Nat)
  /-- hold-down, hold-up and drain of a port (R156, R159) -/
  | holdDown (p : Nat)
  | holdUp (p : Nat)
  | portDrain (p : Nat)
  /-- an Elvon timer (R447) -/
  | etimer (i : Nat)
  /-- a thread's private SLEEP timer (R458) -/
  | sleep (t : Nat)
  /-- the 1 ms of a blocked stepped instruction (R577) -/
  | step
  /-- boost's 100 us (R32) -/
  | boost
  /-- the 1 s before a band switch that was missed is tried again (R529) -/
  | bandRetry (c : Nat)
  deriving DecidableEq, Repr

/-- The deadlines that are running: each timer at most once, with the period (20 ns) at which it is due. -/
abbrev Deadlines := List (Tmr × Nat)

/-! ## The collector -/

/-- The collector beside its registers (R407-R428). -/
structure Collector where
  /-- remaining periods of a countdown frozen under R415 -/
  frozen : List (Nat × Nat)
  /-- sources whose countdown has escalated to a restart once without a clear (R414) -/
  escalated : List Nat
  /-- the forced windows that are open (R416): 0 start-up, 1 whole-buffer test, 2 Fold exit, 3 restart, 4 collector self-test -/
  windows : List Nat
  /-- a Fold entry has been decided and is performed at the end of the command (R416) -/
  foldReq : Bool
  /-- a service-complex restart has been decided (R414) -/
  restartReq : Bool
  /-- pulse triggers that wait to merge into one further pulse (R422) -/
  pulseMore : Bool
  /-- Fold has been entered by a trigger of R416 and not left; `STATE.FOLD` also reads 1 before forwarding begins (R46, R428) -/
  inFold : Bool
  /-- the outputs of start-up are held as static levels (R46, R623) -/
  staticOut : Bool
  /-- the period at which the present stay in Fold began, and the periods of earlier stays, for FOLD_TIME -/
  foldAt : Nat
  foldTotal : Nat
  /-- the period of the accepted Fold exit, for T_EXIT -/
  exitAt : Nat
  deriving DecidableEq, Repr

/-! ## Supply and pins -/

/-- The raw feed, the hold-up and the pins that the supply monitor watches (R546-R555, R61, R130). -/
structure Supply where
  vinPresent : Bool
  /-- HOLD carries the module (R551) -/
  onHold : Bool
  /-- HOLD has been discharged below 12 V and the module waits for a new t0 (R551) -/
  brownedOut : Bool
  /-- SYS_RST_N, TAMPER_N, THERM_ALERT_N, DECK_PRES_N and DBG_PRES_N as the pins stand -/
  sysRstN : Bool
  tamperN : Bool
  thermAlertN : Bool
  deckPresN : Bool
  dbgPresN : Bool
  /-- the always-on domain has powered up since the power cycle (R168) -/
  live : Bool
  /-- t0 has been taken since power-up (R45) -/
  started : Bool
  /-- input-power samples of the last 100 us, in units of 10 mW, newest first (R548) -/
  samples : List Nat
  /-- the highest junction since t0 in tenths of a degree Celsius (R565), none before the first reading -/
  tjMax : Option Int
  /-- the junction in tenths of a degree Celsius, as last read (R548) -/
  tj : Int
  /-- the supply and the temperature monitor of the key store are tripped (R130) -/
  monSupply : Bool
  monTemp : Bool
  deriving DecidableEq, Repr

/-- A power domain's switching beside `DOM_STATE` (R556-R564). -/
structure DomainOps where
  /-- domains asked to switch on while QUIESCING (R562) -/
  backOn : List Nat
  /-- domains asked to switch off while switching on (R562) -/
  offNext : List Nat
  /-- domains whose SWITCHING leads to ON -/
  turningOn : List Nat
  deriving DecidableEq, Repr

/-! ## Cadence -/

/-- The cadence governor beside its registers (R29-R43). -/
structure Cadence where
  /-- VCORE in units of 0.5 mV -/
  v : Nat
  /-- millivolts by which the power rule lowers the ceiling (R31) -/
  powDrop : Nat
  /-- the period from which CAP_POWER has been 1, and the periods of earlier stays, for CAP_TIME -/
  capAt : Nat
  capTotal : Nat
  /-- heads offered to each pipeline since the last update (R29), and the period of each pipeline's last shed (R44) -/
  offered : Tbl Nat
  shedAt : Tbl (Option Nat)
  /-- the largest demand of each of the last 32 updates, newest first: 64 us (R30) -/
  peaks : List Nat
  /-- the period from which two metronomes of each pipeline have disagreed by more than 15 % (R43) -/
  spreadAt : Tbl (Option Nat)
  /-- the period of the last report, and the one at which the slew of the boost in force has raised VCORE to the ceiling (R32, R40) -/
  reportAt : Nat
  riseEnd : Option Nat
  deriving DecidableEq, Repr

/-! ## Time -/

/-- One clock instance (R168): seconds, nanoseconds and 2^-16 nanoseconds, and the part of a 2^-16 nanosecond that RATE
has accumulated (in units of 1/50,000,000, R169). -/
structure Inst where
  sec : Nat
  ns : Nat
  frac : Nat
  rest : Int
  deriving DecidableEq, Repr

/-! ## Deck, journal, Deal and trust -/

/-- A journal record waiting for its append (R91, R95). -/
structure JRec where
  typ : Nat
  merged : Nat
  payload : List Byte
  deriving DecidableEq, Repr

/-- What the Deck port is doing (R102). -/
inductive PortOp where
  /-- erasing the journal block of page `page`, for `r` -/
  | eraseJournal (page : Nat) (r : JRec)
  /-- programming journal page `page` with `r` -/
  | programJournal (page : Nat) (r : JRec)
  /-- reading journal page `page` back, for the unlock record `r` (R96) -/
  | readJournal (page : Nat) (r : JRec)
  /-- erasing block `blk` of the update's slot -/
  | eraseSlot (blk : Nat)
  /-- programming page `page` of the update's slot -/
  | programSlot (page : Nat)
  /-- reading page `page` of the update's slot back (R100) -/
  | verifySlot (page : Nat)
  deriving DecidableEq, Repr

/-- An update that writes its slot (R99-R101). -/
structure Update where
  /-- 1 slot A, 2 slot B -/
  slot : Nat
  image : List Byte
  /-- bytes of the slot read back so far -/
  back : List Byte
  /-- what the update asks of the Deck port next (R100, R102) -/
  next : PortOp
  deriving DecidableEq, Repr

/-- The Deck as the module knows it (R66-R104). -/
structure Deck where
  /-- pages that the module has read in this Deal, by page number -/
  pages : Tbl (List Byte)
  /-- the address whose first read failed its CRC (R70) -/
  retry : Option Nat
  /-- identity-page figures of the dealt Deck (R72) -/
  slotCycles : Nat
  journalCycles : Nat
  /-- an identity page that meets R73 has been read in this Deal -/
  known : Bool
  /-- sequence number of the newest journal page, whether any page is valid, and the page of the next append (R91) -/
  seq : Nat
  anyPage : Bool
  next : Nat
  queue : List JRec
  port : Option PortOp
  update : Option Update
  /-- the first block of the target slot is to be erased, so that a failed update leaves the slot invalid (R101) -/
  wipe : Bool
  /-- LIFE has been reported below its threshold in this Deal (R103) -/
  lifeRaised : Bool
  /-- UPTIME at the removal, and the other Deck's serial and the UPTIME it was seen (R92) -/
  removedAt : Option Nat
  otherSeen : Option (Nat × Nat)
  deriving DecidableEq, Repr

/-- One of the two staged images of a Deal, or none: its slot, its bytes, and its plaintext sections (R47). -/
structure Staged where
  slot : Nat
  bytes : List Byte
  /-- the decrypted region, none where the key does not unwrap or the tag fails (R80) -/
  plain : Option (List Byte)
  /-- NOT_CLAIMED or DECRYPT found during step 5 (R111), 0 where neither -/
  code : Nat
  deriving DecidableEq, Repr

/-- The Deal in progress (R47). -/
structure Deal where
  running : Bool
  /-- the Deal has ended without forwarding (R56) -/
  failed : Bool
  dramReady : Bool
  memOk : Bool
  bucketsClear : Bool
  /-- the slots still to try, first first (R58, R75) -/
  toTry : List Nat
  /-- the slots tried so far, for the deadline of R51 -/
  tried : List Nat
  staged : Option Staged
  /-- step 7 has passed -/
  checked : Bool
  /-- step 8 has been done -/
  applied : Bool
  claimed : Bool
  /-- BUILD_SERIAL of the accepted image (R76), and the owner code kept for reload (R433) -/
  buildSerial : Nat
  programs : List (List Byte)
  /-- the MICROPATCH section plaintext kept in DRAM (R471) -/
  patch : Option (List Byte)
  /-- service parameters, by service x 65536 + PARAM (R86, R495) -/
  params : Tbl (List Byte)
  /-- fault-free since commit (R118), and the highest VERSION a valid slot carries -/
  foldSince : Bool
  maxVersion : Nat
  deriving DecidableEq, Repr

/-- The OTP fields that trust uses (R108).  A bit only goes from 0 to 1. -/
structure Otp where
  /-- bits set among CLAIMED's three -/
  claimedBits : Nat
  ownerHash : Nat
  /-- the bits of FLEET_KEY, and the fleet Deck key that they seal, none before a claim has fused the whole field -/
  fleetKey : Nat
  fleet : Option (List Byte)
  floor : Nat
  deriving DecidableEq, Repr

/-- A delegate that the module keeps (R114-R116). -/
structure Delegate where
  pos : Nat
  usage : Nat
  verMin : Nat
  verMax : Nat
  notAfter : Nat
  depth : Nat
  key : List Byte
  deriving DecidableEq, Repr

/-- A peer of the management endpoint: its IPv4 address, its UDP port, and the REQ_ID of its request (R513). -/
structure NetPeer where
  ip : Nat
  port : Nat
  req : Nat
  deriving DecidableEq, Repr

/-- An attestation request in the queue (R121, R123), from a peer of the endpoint or (none) from the debug port. -/
structure AttReq where
  nonce : List Byte
  cert : Bool
  peer : Option NetPeer
  deriving DecidableEq, Repr

/-- The key store and the unlock (R106-R132). -/
structure Trust where
  otp : Otp
  fleetKey : Option (List Byte)
  /-- the owner root public key of the accepted image, or the one that ROOT_KEY gave (R116, R129) -/
  rootKey : Option (List Byte)
  delegates : List Delegate
  /-- the outstanding challenge (R125) -/
  challenge : Option (List Byte)
  /-- the next back-off in seconds (R128), 0 for the first -/
  backoff : Nat
  /-- unlocks since t0 (R122) -/
  unlocks : Nat
  /-- a response that waits for its journal record: scope, minutes (R126) -/
  unlocking : Option (Nat × Nat)
  attQ : List AttReq
  deriving DecidableEq, Repr

/-! ## The service complex -/

/-- The thread states of R429. -/
inductive ThSt where
  | stopped | ready | waitChannel | waitPort | waitEvent | halted | trapped
  deriving DecidableEq, Repr

/-- One service thread (R429, R454). -/
structure Thread where
  st : ThSt
  pc : Addr
  /-- g1-g31, by number; unlisted reads 0 -/
  g : Tbl Word64
  entry : Addr
  /-- the channel or port waited on, and the place in the order of waiting (R431) -/
  wait : Nat
  waitSeq : Nat
  /-- the blocked instruction, which has not yet executed (R465) -/
  blocked : Option Elv
  /-- cause and address of the last trap (R435) -/
  trapCause : Nat
  faultAddr : Nat
  /-- the port of a multi-word POUT in progress, and the words written so far (R443) -/
  pout : Option (Nat × List Word64)
  /-- the port of an item that PIN is returning, and its unread words (R444) -/
  pin : Option (Nat × List Word64)
  /-- the result of the last take, while unread, and a take that waits for a buffer (R539) -/
  take : Option Word64
  takeWaits : Bool
  /-- the thread has reached its first wait since it started (R432) -/
  waited : Bool
  /-- the next instruction executes without its breakpoint firing (R576) -/
  skipBp : Bool
  /-- chunks of the long instruction at PC have been committed (R466) -/
  midLong : Bool
  /-- a step of the debug port is pending (R577) -/
  stepping : Bool
  /-- a HALT or RESUME that waits for the pending step: 0 none, 1 HALT, 2 RESUME (R577) -/
  afterStep : Nat
  deriving DecidableEq, Repr

/-- A thread that has never started. -/
def Thread.init : Thread :=
  { st := .stopped, pc := 0, g := [], entry := 0, wait := 0, waitSeq := 0, blocked := none, trapCause := 0, faultAddr := 0,
    pout := none, pin := none, take := none, takeWaits := false, waited := false, skipBp := false, midLong := false,
    stepping := false, afterStep := 0 }

/-- A complete message: its words, and whether a hardware writer wrote it (R436, R451). -/
structure Msg where
  words : List Word64
  hw : Bool
  deriving DecidableEq, Repr

/-- One channel (R436-R442). -/
structure Chan where
  /-- complete messages, oldest first -/
  msgs : List Msg
  /-- the thread that owns a partly written message, with the PC of its first CHOUT -/
  owner : Option (Nat × Addr)
  part : List Word64
  /-- the thread that owns the message at the head, and its unread words -/
  reader : Option (Nat × List Word64)
  deriving DecidableEq, Repr

/-- An empty channel. -/
def Chan.init : Chan := { msgs := [], owner := none, part := [], reader := none }

/-- An Elvon timer (R447). -/
structure ETimer where
  armed : Bool
  /-- the thread that armed it -/
  thread : Nat
  periodic : Bool
  event : Bool
  interval : Nat
  count : Nat
  deriving DecidableEq, Repr

/-- A timer that was never armed. -/
def ETimer.init : ETimer := { armed := false, thread := 0, periodic := false, event := false, interval := 0, count := 0 }

/-- The service complex beside its registers (ch. 18-20). -/
structure Svc where
  threads : Tbl Thread
  chans : Tbl Chan
  timers : Tbl ETimer
  /-- the order in which threads begin to wait (R431) -/
  seq : Nat
  /-- the event port's holder of each core, as thread number (R448) -/
  holder : Tbl (Option Nat)
  /-- the source in service on each core (R479) -/
  service : Tbl (Option Nat)
  /-- the service-complex restart: 0 none, 1 steps 1 to 4 done, 2 vendor threads started (R451) -/
  restarting : Nat
  /-- the complex has started its vendor and its owner threads in this Deal (R432) -/
  vendorUp : Bool
  ownerUp : Bool
  /-- the buffer of the sweeper's open export batch (R259) -/
  openBatch : Option Nat
  deriving DecidableEq, Repr

/-! ## The debug port -/

/-- A breakpoint that is enabled (R578): core x 8 + index, its PC and thread mask. -/
structure Brk where
  slot : Nat
  pc : Addr
  mask : Nat
  deriving DecidableEq, Repr

/-- A watchpoint that is enabled (R578): core x 4 + index. -/
structure Wtc where
  slot : Nat
  addr : Nat
  log2 : Nat
  r : Bool
  w : Bool
  mask : Nat
  deriving DecidableEq, Repr

/-- A response of the debug port: its status code and its data words (R568). -/
structure Resp where
  status : Nat
  words : List Nat
  deriving DecidableEq, Repr

/-- The debug port beside its registers (ch. 24). -/
structure Dbg where
  /-- SEQ of the last request executed, with its stored response (R569) -/
  seq : Option (Bool × Resp)
  /-- the response on the wire, and the SEQ of an executed request whose response is still to come (R571, R577) -/
  out : Resp
  late : Option Bool
  /-- the result buffer (R572) -/
  buf : List Byte
  brks : List Brk
  wtcs : List Wtc
  deriving DecidableEq, Repr

/-! ## DRAM and the pools -/

/-- A take that waits (R539): its thread and its request word. -/
structure Waiter where
  thread : Nat
  word : Word64
  deriving DecidableEq, Repr

/-- The buffer pools (R536-R541). -/
structure Pools where
  /-- the owner of each HELD buffer, plus 1, by pool x 65536 + index -/
  held : Tbl Nat
  waiting : List Waiter
  deriving DecidableEq, Repr

/-- The DRAM controllers beside their registers (R519-R534). -/
structure Dram where
  /-- blocks with a correctable and with an uncorrectable error, by block address / 64 (R521, R522) -/
  soft : List Nat
  hard : List Nat
  /-- requests of real-time port r issued and not completed (R532) -/
  queue : Tbl Nat
  /-- the band that controller c is to take (R529), where one is due -/
  want : Tbl Nat
  /-- the band task's present band -/
  band : Nat
  /-- `CE_COUNT` of each controller at the last check of R542 -/
  ceMark : Tbl Nat
  /-- the next block of the patrol scrub -/
  scrubAt : Nat
  /-- MR4 refresh-rate field of each channel (R530) -/
  mr4 : Tbl Nat
  deriving DecidableEq, Repr

/-! ## Frames -/

/-- A header on the parse stack (R188): its type, start, end and HFLAGS, and the LENCHK of its node. -/
structure Hdr where
  typ : Nat
  start : Nat
  stop : Nat
  flags : Nat
  chk : Nat
  deriving DecidableEq, Repr

/-- The parser's result (R189, R198, R209). -/
structure Parsed where
  outcome : Nat
  stack : List Hdr
  eoh : Nat
  cskip : Bool
  /-- MATCH, PAT_FIRST and the position of a floating PAT_FIRST -/
  hits : Nat
  first : Nat
  firstPos : Nat
  /-- ends that a deferred comparison holds against the frame end (R198) -/
  deferred : List Nat
  deriving DecidableEq, Repr

/-- The result of a frame that no parser has read. -/
def Parsed.init : Parsed :=
  { outcome := 0, stack := [], eoh := 0, cskip := false, hits := 0, first := 64, firstPos := 0, deferred := [] }

/-- A record that still awaits the bytes of a frame whose length the flow stage did not know (R279). -/
structure Late where
  index : Nat
  /-- N_HIT of the hit, and whether the record has expired since -/
  nHit : Nat
  gone : Bool
  deriving DecidableEq, Repr

/-- A frame that the seat holds.  `src` is the ingress source of its first pass: 0-47 a port, 48-55 a link, 64 the service
complex (R446). -/
structure Frm where
  src : Nat
  /-- its cells in order (R307), and the bytes written into them -/
  cells : List Nat
  got : Nat
  /-- its head, which the pipeline works on (R18) -/
  head : List Byte
  /-- the frame length with FCS (R186), none while it is not known -/
  len : Option Nat
  /-- its last byte has been received -/
  whole : Bool
  /-- a lane island write found no free cell (R313), or met a persistent CRC failure (R325) -/
  noCell : Bool
  crcBad : Bool
  /-- pre-classified traffic class and drop precedence (R35) -/
  tc : Nat
  dp : Nat
  /-- ingress timestamp: instance, seconds, nanoseconds (R173) -/
  ts : Option (Nat × Nat × Nat)
  pass2 : Bool
  epoch : Nat
  /-- it counts in `INFLIGHT` of its epoch (R233) -/
  counted : Bool
  hash : Nat
  marked : Bool
  /-- RECIRC_KPROF of the second pass (R211) -/
  kprof : Nat
  shim : Option Nat
  parsed : Parsed
  late : Option Late
  /-- 1 + the cause under which it is discarded when its head leaves the flow stage; 0 none (R141, R322) -/
  doom : Nat
  /-- it has been counted in its disposition (R24) -/
  settled : Bool
  /-- the table commits that had been made when its head entered its pipeline (R230, R397) -/
  rows : Nat
  deriving DecidableEq, Repr

/-- A decision of action resolution (R227).  `fwd` is 0 none, 1 forward, 2 discard, 3 exception, 4 recirculate. -/
structure Dec where
  fwd : Nat
  /-- discard cause, for `fwd` 2 -/
  cause : Nat
  seat : Nat
  port : Nat
  group : Option Nat
  /-- flooded by R217 -/
  flood : Bool
  q : Option Nat
  /-- queue set by the flow record's action, which comes after the stream filter -/
  qFlow : Option Nat
  dp : Option Nat
  meter : Option Nat
  flowProf : Option Nat
  edit : Option Nat
  editData : Nat
  mirror : Nat
  xq : Nat
  xcause : Nat
  kprof : Nat
  ets : Bool
  noLearn : Bool
  sf : Option Nat
  flowMiss : Bool
  flowRes : Nat
  /-- the link of the seat route that a forward to another seat takes, and of the seats of its mirror sessions (R382) -/
  link : Option Nat
  mlinks : List (Nat × Option Nat)
  deriving DecidableEq, Repr

/-- No decision yet. -/
def Dec.init : Dec :=
  { fwd := 0, cause := 0, seat := 0, port := 0, group := none, flood := false, q := none, qFlow := none, dp := none,
    meter := none, flowProf := none, edit := none, editData := 0, mirror := 0, xq := 0, xcause := 0, kprof := 0,
    ets := false, noLearn := false, sf := none, flowMiss := false, flowRes := 0, link := none, mlinks := [] }

/-- How a head's flow lookup stands (R245-R250). -/
inductive Look where
  /-- it makes none -/
  | none
  /-- its bucket reads are out; whether a move touched its buckets, and whether this is the retry -/
  | reading (moved retried : Bool)
  /-- it waits for its retry (R250) -/
  | retry
  /-- merged with the lookup of another frame (R248) -/
  | merged (frame : Nat)
  /-- ended with a result of R246 -/
  | ended (r : Nat)
  deriving DecidableEq, Repr

/-- A learn request (R219): FID, address, seat and port. -/
structure Learn where
  fid : Nat
  mac : Nat
  seat : Nat
  port : Nat
  deriving DecidableEq, Repr

/-- A head in the flow stage (R247). -/
structure FlowHead where
  frame : Nat
  dec : Dec
  look : Look
  prof : Nat
  key : List Byte
  /-- the key builder swapped the pairs (R240) -/
  swap : Bool
  /-- N_HIT of the lookup (R281) -/
  nHit : Nat
  since : Nat
  /-- how many route writes had completed when the head entered (R382) -/
  route : Nat
  /-- the learn request of its SA, which waits until the decision is final (R219, R226) -/
  learn : Option Learn
  deriving DecidableEq, Repr

/-- A copy in a queue, a ready slot or on the wire (R392). -/
structure Copy where
  /-- the frame, none for a drain marker or an echo (R384) -/
  frame : Option Nat
  unit : List Byte
  port : Nat
  q : Nat
  /-- the class it was staged under (R336) -/
  cls : Nat
  /-- template and EDIT_DATA -/
  tpl : Option (Nat × Nat)
  trunc : Nat
  mirror : Bool
  since : Nat
  /-- egress timestamp request with its tag (R175) -/
  ets : Option Nat
  uncontrolled : Bool
  /-- the shim it takes on a link, and the seat of the route it follows with that route's number of changes (R383) -/
  shim : Option Nat
  seat : Option (Nat × Nat)
  oldPath : Bool
  /-- FRER numbers taken at commit, by stream (R297) -/
  gen : List (Nat × Nat)
  /-- cause, flow-miss flag and result of an exception (R444) -/
  xcause : Nat
  xmiss : Bool
  xres : Nat
  deriving DecidableEq, Repr

/-- A cell (R307): its data bytes, the BAD bit, its reference count and the poison mark (R325). -/
structure Cell where
  data : List Byte
  bad : Bool
  refs : Nat
  poison : Bool
  deriving DecidableEq, Repr

/-- The buffer (R306-R329). -/
structure Buf where
  /-- the allocated cells, by cell number; none where free -/
  cells : Tbl (Option Cell)
  frames : Tbl (Option Frm)
  nextFrame : Nat
  /-- the bank that the rotation stands at (R310) -/
  rot : Nat
  /-- H of each queue (R316) -/
  shared : Tbl Nat
  /-- requests that wait for a test: a bank, or 31 for the whole buffer (R326) -/
  tests : List Nat
  /-- banks that wait with a failure mark, and the last bank rotated -/
  lastRot : Nat
  /-- the period at which the bank under test began to drain -/
  drainAt : Option Nat
  /-- banks whose next cell write has been reported to fail persistently (R325) -/
  badNext : List Nat
  deriving DecidableEq, Repr

/-! ## MACs, SecYs and pipelines -/

/-- A frame in reception on an Ethernet port: its bytes so far, as received, its number once its head has entered, and whether
it is ignored to its end (R159). -/
structure Rx where
  bytes : List Byte
  frame : Option Nat
  dead : Bool
  deriving DecidableEq, Repr

/-- A secure association (R149): AN, key, salt and SSCI under XPN, and its next or lowest packet number. -/
structure Sa where
  an : Nat
  key : List Byte
  salt : List Byte
  ssci : Nat
  pn : Nat
  inUse : Bool
  deriving DecidableEq, Repr

/-- The SecY of a port (R149-R153). -/
structure SecY where
  tx : Option Sa
  /-- a transmit SA has been installed, and it stopped at its last PN (R153) -/
  everTx : Bool
  stopped : Bool
  /-- receive SCs by SCI, with their SAs -/
  rx : List (Nat × List Sa)
  deriving DecidableEq, Repr

/-- A SecY without keys. -/
def SecY.init : SecY := { tx := none, everTx := false, stopped := false, rx := [] }

/-- The lane islands of the Ethernet ports (R135-R162). -/
structure Mac where
  rx : Tbl (Option Rx)
  secy : Tbl SecY
  /-- the reason of the link fault that stands on a port, as DOWN_REASON codes it; 0 none -/
  fault : Tbl Nat
  /-- a quiesce that runs: 0 none, 1 draining, 2 draining with EN written 1 again (R159, R160) -/
  quiesce : Tbl Nat
  /-- the period of the write of 0 from which on a port accepts no new SFD (R159) -/
  closedAt : Tbl (Option Nat)
  deriving DecidableEq, Repr

/-- The counters and the state of a stream filter (R350, R357). -/
structure SfSt where
  hit : Nat
  passed : Nat
  sdu : Nat
  gate : Nat
  oct : Nat
  red : Nat
  yellow : Nat
  blocked : Bool
  deriving DecidableEq, Repr
def SfSt.init : SfSt := { hit := 0, passed := 0, sdu := 0, gate := 0, oct := 0, red := 0, yellow := 0, blocked := false }

/-- A meter (R352): its buckets in units of 1/8,000,000 byte, none while full since commit, and its counters. -/
structure MtSt where
  tc : Option Nat
  te : Option Nat
  since : Nat
  red : Bool
  nGreen : Nat
  nYellow : Nat
  nRed : Nat
  deriving DecidableEq, Repr
def MtSt.init : MtSt :=
  { tc := none, te := none, since := 0, red := false, nGreen := 0, nYellow := 0, nRed := 0 }

/-- A stream-gate list in use (R351): its entry, the octets passed in it, and the restart that waits (R181). -/
structure SgSt where
  entry : Nat
  octets : Nat
  restart : Option Nat
  deriving DecidableEq, Repr
def SgSt.init : SgSt := { entry := 0, octets := 0, restart := none }

/-- The ingress pipelines (R34-R41, R185-R227). -/
structure Pipe where
  /-- the heads in each source FIFO, 0-59 (R311) -/
  fifo : Tbl (List Nat)
  /-- the round robin of each pipeline: its source and the heads left to it (R34) -/
  wrr : Tbl (Nat × Nat)
  stage : Tbl (List FlowHead)
  /-- decided frames whose last byte has not been received, or that wait for an earlier frame of their source (R205, R353) -/
  held : List (Nat × Dec)
  learn : List Learn
  /-- exception policers: frames x 10^9 (none: full since commit), and when they were filled (R206) -/
  xpol : Tbl (Option Nat × Nat)
  sf : Tbl SfSt
  meter : Tbl MtSt
  sg : Tbl SgSt
  deriving DecidableEq, Repr

/-! ## Tables -/

/-- A completion of an update port (R229) with whether it is readable yet, and the number of its commit, 0 where it made none
(R230). -/
structure Comp where
  words : List Word64
  ready : Bool
  commit : Nat
  deriving DecidableEq, Repr

/-- An update port: commands and completions, oldest first (R228). -/
structure UPort where
  cmds : List (List Word64)
  comps : List Comp
  deriving DecidableEq, Repr
def UPort.init : UPort := { cmds := [], comps := [] }

/-- The lookup tables and their manager (R211-R235). -/
structure Tabs where
  /-- every table row that is not all zero, by TABLE_ID x 2^32 + INDEX; the parse graph's records by (0x100 + KIND) -/
  rows : Tbl Nat
  uports : Tbl UPort
  /-- the period at which a bank began to drain (R233) -/
  drainAt : Tbl Nat
  /-- commits so far, and of those that a head in a pipeline has not seen: number, table, index and the old row (R230, R397) -/
  nWrites : Nat
  wrote : List (Nat × Nat × Nat × Nat)
  /-- elapsed ns of the ager's last pass (R221) -/
  agedAt : Option Nat
  deriving DecidableEq, Repr

/-! ## Flow engine -/

/-- A stash entry (R249). -/
structure StashE where
  fp : Nat
  index : Nat
  a : Nat
  b : Nat
  prof : Nat
  deriving DecidableEq, Repr

/-- A record in the flow cache (R252). -/
structure CacheE where
  index : Nat
  dirty : Bool
  bytes : List Byte
  deriving DecidableEq, Repr

/-- An expiry that waits for its turn on its bucket (R257): the record, its REASON, 5 for DISABLE, and whether it makes no idle
test (R260, R270). -/
structure Expiry where
  index : Nat
  reason : Nat
  forced : Bool
  deriving DecidableEq, Repr

/-- A twin insert that waits (R269). -/
structure Twin where
  fwd : Nat
  key : List Byte
  addr : Nat
  port : Nat
  pool : Nat
  deriving DecidableEq, Repr

/-- One slice (R237-R260). -/
structure Slice where
  stash : List StashE
  free : List Nat
  poison : List Nat
  /-- the counter C, the period of N's last change, and when panic began and ended (R281, R283) -/
  c : Nat
  nAt : Nat
  panicAt : Option Nat
  calmAt : Nat
  /-- the sweeper's next bucket within the slice, and the extra pass of a flush: its next bucket and its profiles, one bit each -/
  sweep : Nat
  flush : Option (Nat × Nat)
  /-- elapsed ns at which the sweeper's pass began, none before the first (R256) -/
  passAt : Option Nat
  expiries : List Expiry
  /-- a search found no chain; the next expiry tries again (R249) -/
  stuck : Bool
  /-- the re-enable of the slice rebuilds its bitmap (R255) -/
  rebuilding : Bool
  deriving DecidableEq, Repr
def Slice.init : Slice :=
  { stash := [], free := [], poison := [], c := 0, nAt := 0, panicAt := none, calmAt := 0, sweep := 0, flush := none, passAt := none,
    expiries := [], stuck := false, rebuilding := false }

/-- The flow engine (R236-R287). -/
structure Flow where
  slices : Tbl Slice
  /-- cached records by slice x 32,768 + set x 8 + way -/
  cache : Tbl (Option CacheE)
  /-- pseudo-LRU bits of each set -/
  plru : Tbl Nat
  twins : List Twin
  /-- NAT pool ports in use, pool x 65,536 + port (R268) -/
  ports : Tbl Bool
  /-- the open export batch: entries, the period of the first, and the wait that stands (R259) -/
  batch : Nat
  batchAt : Nat
  batchSeq : Nat
  exportSeq : Nat
  exportWait : Option Nat
  /-- of each record in use: elapsed ns at its last counted hit, and the swap decision of the frame that created it (R279, R280) -/
  hidden : Tbl (Nat × Bool)
  /-- the open batch is due for sending before it is full (R259) -/
  batchDue : Bool
  /-- the record that PEEK_0 took (R262) -/
  peek : List Byte
  deriving DecidableEq, Repr

/-! ## Editor and traffic manager -/

/-- A FRER stream (R297, R298). -/
structure FrerSt where
  gen : Nat
  rcv : Nat
  hist : Nat
  takeAny : Bool
  rogue : Nat
  passed : Nat
  discarded : Nat
  lost : Nat
  lastPass : Nat
  deriving DecidableEq, Repr
def FrerSt.init : FrerSt :=
  { gen := 0, rcv := 0, hist := 0, takeAny := true, rogue := 0, passed := 0, discarded := 0, lost := 0, lastPass := 0 }

/-- The scheduling state of a queue: credit and tokens in units of 1/8,000,000 byte (none: full since commit), and when they
were brought up to date (R338-R341). -/
structure QSt where
  credit : Int
  tokens : Option Int
  since : Nat
  deficit : Nat
  topped : Bool
  deriving DecidableEq, Repr
def QSt.init : QSt := { credit := 0, tokens := none, since := 0, deficit := 0, topped := false }

/-- What an egress port sends: the copy, its bytes without FCS, whether it is cut through (R155), and whether it is a frame gone bad that
ends with the complement of its FCS (R323). -/
structure Wire where
  copy : Copy
  bytes : List Byte
  cut : Bool
  stomp : Bool
  deriving DecidableEq, Repr

/-- An egress port (R333-R347). -/
structure EPort where
  ready : List Copy
  wire : Option Wire
  cur : Nat
  tokens : Option Int
  since : Nat
  /-- a gate list is oper, the change time that is pending, and the restart that waits, in ns of the gate-time instance -/
  oper : Bool
  change : Option Nat
  restart : Option Nat
  deriving DecidableEq, Repr
def EPort.init : EPort :=
  { ready := [], wire := none, cur := 0, tokens := none, since := 0, oper := false, change := none, restart := none }

/-- The traffic manager, the editors and the recirculation (R288-R347). -/
structure Tm where
  queues : Tbl (List Copy)
  q : Tbl QSt
  ports : Tbl EPort
  /-- gate-list entries by port x 1,024 + entry -/
  admin : Tbl Nat
  oper : Tbl Nat
  frer : Tbl FrerSt
  /-- the instant from which each pipeline's recirculation share may serve again, in 2^-16 ns of elapsed time (R303) -/
  recirc : Tbl Nat
  /-- descriptors presented on each exception port (R444) -/
  desc : Tbl (List (List Word64))
  descSeq : Tbl Nat
  /-- the period from which the exception path has waited for a buffer (R412) -/
  excWait : Option Nat
  deriving DecidableEq, Repr

/-! ## Time -/

/-- An entry of the egress timestamp queue (R175). -/
structure EtsE where
  port : Nat
  tag : Nat
  inst : Nat
  sec : Nat
  ns : Nat
  deriving DecidableEq, Repr

/-- The time unit beside its registers and instances (R165-R183). -/
structure TimeU where
  /-- elapsed time of R182 in 2^-16 ns: the gate-time instance with its RATE and without its steps, and its remainder -/
  elapsed : Nat
  rest : Int
  ets : List EtsE
  /-- the period of the last lock of REF10M_IN (R166) -/
  refAt : Nat
  ppsHigh : Bool
  /-- the period of the last PPS_OUT edge -/
  ppsAt : Nat
  /-- the last PPS_OUT second, the earliest instant of the next edge after a step, the last captured PPS_IN edge and whether
  its gap has been raised -/
  ppsLast : Nat
  ppsAfter : Nat
  ppsIn : Option Nat
  ppsGap : Bool
  deriving DecidableEq, Repr

/-! ## Nelyan links -/

/-- A DATA block that no ACK covers yet (R367): its number, its sealed bytes, its attempts, when it was last sent, the sources of the
counted frames that begin in it and of the one that continues into it, and how many frames end in it. -/
structure Blk512 where
  n : Nat
  bytes : List Byte
  attempts : Nat
  sentAt : Nat
  starts : List Nat
  cont : Option Nat
  ends : Nat
  deriving DecidableEq, Repr

/-- A unit that is being packed into blocks: its class, the source under which it counts (none: a marker, an echo or an injected
frame), whether it is a frame, and the bytes that are left. -/
structure Pack where
  cls : Nat
  src : Option Nat
  frame : Bool
  left : List Byte
  deriving DecidableEq, Repr

/-- A unit that is being unpacked from a link: its bytes so far, shim included, and the frame it became once its head entered
(R371); `refused`: its head was shed. -/
structure Unpack where
  bytes : List Byte
  frame : Option Nat
  refused : Bool
  deriving DecidableEq, Repr

/-- A message of the seat handshake in reception (R374): MSG, the next FRAG, FRAG_COUNT and the data so far. -/
structure FragSt where
  msg : Nat
  next : Nat
  count : Nat
  data : List Byte
  deriving DecidableEq, Repr

/-- One Nelyan link beside its registers (R358-R389). -/
structure Link where
  /-- key and nonce salt by KEY_PHASE, 36 bytes -/
  txKey : Tbl (List Byte)
  rxKey : Tbl (List Byte)
  /-- the phase of the newest key that a block has verified under, and whether the other phase holds a newer one still unused (R376) -/
  rxPhase : Nat
  rxFresh : Bool
  /-- next data and control numbers sent, next data number expected, and next control number expected -/
  txN : Nat
  txCtl : Nat
  rxN : Nat
  rxCtl : Nat
  /-- last grants received, blocks sent of each class, and blocks accepted of each class (R368); the class whose grant the next
  header carries -/
  grant : Tbl Nat
  sent : Tbl Nat
  got : Tbl Nat
  turn : Nat
  /-- unacknowledged blocks, oldest first; the number of the next block to re-send -/
  unacked : List Blk512
  rewind : Option Nat
  /-- a DATA block was accepted whose ACK has not been sent, a gap stands, FM is due, and when FM was last set (R366) -/
  owesAck : Bool
  fmGap : Bool
  fmDue : Bool
  fmAt : Nat
  /-- tag failures in a row (R365) -/
  authRun : Nat
  /-- when a sealed block last verified, when the link stopped, and when the state was entered -/
  seenAt : Nat
  stopAt : Nat
  stateAt : Nat
  packing : Option Pack
  unpack : Option Unpack
  /-- blocks sealed under the transmit key, when it came into use, the own offer of a rekey that runs, and the next transmit key,
  which waits for the own accept to be sent (R376) -/
  sealedN : Nat
  keyAt : Nat
  offer : Option (List Byte)
  nextTx : Option (List Byte)
  /-- the handshake: own HELLO, when it was sent, own ephemeral key, the peer's HELLO, whether its AUTH was good, and H -/
  hello : List Byte
  helloAt : Nat
  eph : Nat
  peerHello : List Byte
  authOk : Bool
  hash : List Byte
  /-- a message in reception, complete messages, and payloads of HANDSHAKE (2) and REKEY (4) blocks to send -/
  frags : Option FragSt
  inbox : List (Nat × List Byte)
  outbox : List (Nat × List Byte)
  /-- buffers of pool 6 that the long window holds (R370) -/
  spill : List Nat
  /-- the block last put on the wire -/
  wire : List Byte
  /-- the period at which a disable began (R386) -/
  offAt : Option Nat
  deriving DecidableEq, Repr
def Link.init : Link :=
  { txKey := [], rxKey := [], rxPhase := 0, rxFresh := false, txN := 0, txCtl := 0, rxN := 0, rxCtl := 0, grant := [], sent := [], got := [], turn := 0,
    unacked := [], rewind := none, owesAck := false, fmGap := false, fmDue := false, fmAt := 0, authRun := 0,
    seenAt := 0, stopAt := 0, stateAt := 0, packing := none, unpack := none, sealedN := 0, keyAt := 0, offer := none, nextTx := none, hello := [],
    helloAt := 0, eph := 0, peerHello := [], authOk := false, hash := [], frags := none, inbox := [], outbox := [], spill := [],
    wire := [], offAt := none }

/-- A reorder guard (R383, R384): the links on which it holds copies, each with the number of route changes of its seat from which on it
does, the elapsed ns at which it last started, its id, and the queues whose echo is awaited (none: a guard without markers). -/
structure Guard where
  holds : List (Nat × Nat)
  since : Nat
  id : Nat
  echoes : Option (List Nat)
  deriving DecidableEq, Repr

/-- The links, routes and guards (R358-R389). -/
structure Nel where
  links : Tbl Link
  /-- RT_ENTRY of each seat, and how often its link has changed (R382, R385) -/
  routes : Tbl Nat
  moves : Tbl Nat
  guards : Tbl (Option Guard)
  nextGuard : Nat
  /-- route writes so far, and of those that a head in the flow stage has not seen: number, seat, old entry (R382) -/
  nWrites : Nat
  wrote : List (Nat × Nat × Nat)
  deriving DecidableEq, Repr

/-! ## The built-in services (ch. 21) -/

/-- A link-state message that the Table service holds (R511): its seat, DEVICE_ID and sequence number, when it was last refreshed,
and the peer seat, RTT and REACH of each UP link. -/
structure Lsa where
  seat : Nat
  dev : Nat
  seq : Nat
  since : Nat
  links : List (Nat × Nat × Bool)
  deriving DecidableEq, Repr

/-- An LLDP neighbour (R503): its port, its identity (Chassis ID and Port ID), and the period at which its TTL runs out. -/
structure Neigh where
  port : Nat
  ident : List Byte
  gone : Nat
  deriving DecidableEq, Repr

/-- A frame of a service, without its destination address where a next hop is to give it (R497): its service, the next hop (none:
its destination is in place), its port, whether it goes to the uncontrolled port, its bytes, and since when it waits. -/
structure SvcFrame where
  svc : Nat
  hop : Option Nat
  port : Nat
  unc : Bool
  bytes : List Byte
  since : Nat
  deriving DecidableEq, Repr

/-- A DHCP lease (R504): its position, the client's MAC address, and the period at which it expires. -/
structure Lease where
  pos : Nat
  mac : Nat
  gone : Nat
  deriving DecidableEq, Repr

/-- An image that the endpoint stages (R516): its length and SHA-384, its pool-6 buffers, the bytes received as (offset, length)
pieces, and when the last DATA came. -/
structure Staging where
  len : Nat
  sha : List Byte
  bufs : List Nat
  got : List (Nat × Nat)
  since : Nat
  deriving DecidableEq, Repr

/-- The end of an inauguration in progress (R498): the profiles still to flush, whether a flush runs, when it began, the bank, the new
topology counter, the number of consists, and whether the SWAP has been issued. -/
structure Inaug where
  left : List Nat
  busy : Bool
  since : Nat
  bank : Nat
  counter : Nat
  consists : Nat
  sent : Bool
  deriving DecidableEq, Repr

/-- What the built-in services hold beside their status blocks. -/
structure Serv where
  /-- starts of the services since t0, and for each service the parameters not applied x 65536 + the PARAM code of the last (R494) -/
  starts : Nat
  skipped : Tbl Nat
  /-- the link states held, the own sequence number, when the own message was last flooded, whether a link has changed since, and
  whether routes are to be computed -/
  lsdb : List Lsa
  lsaSeq : Nat
  lsaAt : Nat
  lsaDue : Bool
  routesDue : Bool
  /-- the period until which no route moves onto link n (R512) -/
  routeHold : Tbl Nat
  lldp : List Neigh
  /-- the shared ARP cache: address, MAC address, when it was refreshed (R497) -/
  arp : List (Nat × Nat × Nat)
  /-- frames that wait for a next hop, and messages held during Fold -/
  unresolved : List SvcFrame
  heldMsgs : List SvcFrame
  leases : List Lease
  /-- nonces with the period of issue, oldest first (R514) -/
  nonces : List (List Byte × Nat)
  staging : Option Staging
  /-- by clock instance: intervals in a row within LOCK_NS, and above 2 x LOCK_NS (R500) -/
  good : Tbl Nat
  bad : Tbl Nat
  /-- the end of an inauguration, and who waits for a completion of U0, oldest first: TTDP (none) or a peer (R498, R515) -/
  inaug : Option Inaug
  swaps : List (Option NetPeer)
  /-- what the last poll found: sticky bits, links that are up, and the Deck's state; inaugurations reported (R509) -/
  seen : Nat
  seenLinks : Nat
  seenDeck : Nat
  seenInaug : Nat
  /-- tokens of the message limit in units of 1/50,000,000, when they were filled, messages beyond it, and the last summary -/
  logTokens : Nat
  logAt : Nat
  logOver : Nat
  logSumAt : Nat
  /-- by drained queue: frames since its last message x 2^48 + 1 + the period of that message (R510) -/
  drained : Tbl Nat
  /-- the SNMP agent answers, the boots value of its last start and the period of that start (R508), and its USM counters -/
  snmpUp : Bool
  boots : Option Nat
  snmpAt : Nat
  usm : Tbl Nat
  /-- IPFIX sequence number, and when templates were last sent (R505) -/
  ipfixSeq : Nat
  tplAt : Option Nat
  deriving DecidableEq, Repr

/-- The services before they start. -/
def Serv.init : Serv :=
  { starts := 0, skipped := [], lsdb := [], lsaSeq := 0, lsaAt := 0, lsaDue := false, routesDue := false, routeHold := [], lldp := [],
    arp := [], unresolved := [], heldMsgs := [], leases := [], nonces := [], staging := none, good := [], bad := [], inaug := none,
    swaps := [], seen := 0, seenLinks := 0, seenDeck := 0, seenInaug := 0, logTokens := 0, logAt := 0, logOver := 0, logSumAt := 0,
    drained := [], snmpUp := false, boots := none, snmpAt := 0, usm := [], ipfixSeq := 0, tplAt := none }

/-- The management buses (R601, R602): the MDIO frame in progress on a controller as its command word, and the I2C transaction in
progress as its command word and its write data. -/
structure Mgmt where
  mdio : Tbl (Option (BitVec 32))
  i2c : Tbl (Option (BitVec 32 × BitVec 32))
  deriving DecidableEq, Repr

/-! ## The whole module -/

/-- The state of one module. -/
structure State where
  /-- the commands that wait, first in, first out -/
  pending : List Instr
  variant : Variant
  /-- periods of 20 ns since power-up, and at t0 -/
  now : Nat
  t0 : Nat
  /-- the register store: every field that differs from its reset value -/
  regs : Tbl Nat
  /-- the values that the Deal applied (R13, R558) -/
  dealt : Tbl Nat
  /-- high words captured by a read of a low word (R44) -/
  caught : Tbl Nat
  /-- deadlines that run, as period numbers; those of Elvon timers and sleeps in elapsed 2^-16 ns (R182, R447) -/
  due : Deadlines
  /-- how many free values have been used (the model's own field) -/
  free : Nat
  col : Collector
  sup : Supply
  dom : DomainOps
  cad : Cadence
  inst : Tbl Inst
  deck : Deck
  deal : Deal
  trust : Trust
  svc : Svc
  dbg : Dbg
  pools : Pools
  dram : Dram
  buf : Buf
  mac : Mac
  pipe : Pipe
  tabs : Tabs
  flow : Flow
  tm : Tm
  time : TimeU
  nel : Nel
  serv : Serv
  mgmt : Mgmt
  /-- service SRAM and DRAM, by physical address -/
  mem : Tbl Byte
  deriving DecidableEq, Repr

/-! ## Reset -/

/-- The collector from power-up (R46, R428): the outputs of Fold are held, and the window of start-up is open. -/
def Collector.init : Collector :=
  { frozen := [], escalated := [], windows := [0], foldReq := false, restartReq := false, pulseMore := false,
    inFold := false, staticOut := true, foldAt := 0, foldTotal := 0, exitAt := 0 }

/-- The supply before VIN: no feed, every pin of R61 and R130 at its pulled-up level, no Deck and no debugger. -/
def Supply.init : Supply :=
  { vinPresent := false, onHold := false, brownedOut := false, sysRstN := true, tamperN := true,
    thermAlertN := true, deckPresN := true, dbgPresN := true, live := false, started := false, samples := [], tjMax := none, tj := 0, monSupply := false, monTemp := false }

def DomainOps.init : DomainOps := { backOn := [], offNext := [], turningOn := [] }

/-- Cadence from power-up: VCORE stands at its reset value of 850 mV. -/
def Cadence.init : Cadence :=
  { v := 1700, powDrop := 0, capAt := 0, capTotal := 0, offered := [], shedAt := [], peaks := [], spreadAt := [],
    reportAt := 0, riseEnd := none }

def Deck.init : Deck :=
  { pages := [], retry := none, slotCycles := 0, journalCycles := 0, known := false, seq := 0, anyPage := false, next := 0, queue := [],
    port := none, update := none, wipe := false, lifeRaised := false, removedAt := none, otherSeen := none }

def Deal.init : Deal :=
  { running := false, failed := false, dramReady := false, memOk := false, bucketsClear := false, toTry := [], tried := [],
    staged := none, checked := false, applied := false, claimed := false, buildSerial := 0, programs := [], patch := none, params := [],
    foldSince := false, maxVersion := 0 }

/-- A factory-fresh OTP: unclaimed, floor 0. -/
def Otp.init : Otp := { claimedBits := 0, ownerHash := 0, fleetKey := 0, fleet := none, floor := 0 }

def Trust.init : Trust :=
  { otp := Otp.init, fleetKey := none, rootKey := none, delegates := [], challenge := none, backoff := 0, unlocks := 0, unlocking := none,
    attQ := [] }

def Svc.init : Svc :=
  { threads := [], chans := [], timers := [], seq := 0, holder := [], service := [], restarting := 0, vendorUp := false,
    ownerUp := false, openBatch := none }

def Dbg.init : Dbg := { seq := none, out := ⟨0, []⟩, late := none, buf := [], brks := [], wtcs := [] }
def Pools.init : Pools := { held := [], waiting := [] }
def Dram.init : Dram := { soft := [], hard := [], queue := [], want := [], band := 0, ceMark := [], scrubAt := 0, mr4 := [] }
/-- The rotations of cells and of bank tests begin at bank 0. -/
def Buf.init : Buf :=
  { cells := [], frames := [], nextFrame := 0, rot := 16, shared := [], tests := [], lastRot := 16, drainAt := none,
    badNext := [] }
def Mac.init : Mac := { rx := [], secy := [], fault := [], quiesce := [], closedAt := [] }
def Pipe.init : Pipe :=
  { fifo := [], wrr := [], stage := [], held := [], learn := [], xpol := [], sf := [], meter := [], sg := [] }
def Tabs.init : Tabs := { rows := [], uports := [], drainAt := [], nWrites := 0, wrote := [], agedAt := none }
def Flow.init : Flow :=
  { slices := [], cache := [], plru := [], twins := [], ports := [], batch := 0, batchAt := 0, batchSeq := 0, exportSeq := 0,
    exportWait := none, hidden := [], batchDue := false, peek := [] }
def Tm.init : Tm :=
  { queues := [], q := [], ports := [], admin := [], oper := [], frer := [], recirc := [], desc := [], descSeq := [], excWait := none }
def TimeU.init : TimeU :=
  { elapsed := 0, rest := 0, ets := [], refAt := 0, ppsHigh := false, ppsAt := 0, ppsLast := 0, ppsAfter := 0, ppsIn := none, ppsGap := false }
def Nel.init : Nel :=
  { links := [], routes := [], moves := [], guards := [], nextGuard := 0, nWrites := 0, wrote := [] }

/-- The machine right after power is applied, before t0 (R46, R594, R595): every register at its reset value, every queue and buffer
empty, memory with nothing listed, and no command waiting. -/
def State.reset : State :=
  { pending := [], variant := .v32, now := 0, t0 := 0, regs := [], dealt := [], caught := [], due := [], free := 0,
    col := Collector.init, sup := Supply.init, dom := DomainOps.init, cad := Cadence.init, inst := [], deck := Deck.init,
    deal := Deal.init, trust := Trust.init, svc := Svc.init, dbg := Dbg.init, pools := Pools.init, dram := Dram.init,
    buf := Buf.init, mac := Mac.init, pipe := Pipe.init, tabs := Tabs.init, flow := Flow.init, tm := Tm.init, time := TimeU.init,
    nel := Nel.init, serv := Serv.init, mgmt := { mdio := [], i2c := [] }, mem := [] }

end Sys2Proof.Machine
end

