-- ==== Sys2Proof/Machine/Ops.lean ====
section
/-! DEFINITION. The named operations that every command is written over: the register store, deadlines, free values,
events (R476), fault detection (R407-R414), the journal queue (R95) and memory bytes. -/
namespace Sys2Proof.Machine

/-! ## The register store -/

/-- The stored value of a field, within its width: what a read returns. -/
def State.fld (s : State) (f : Fld) : Nat := s.regs.get f.reset f.key % 2 ^ f.width

/-- The value of a field that the Deal applied (R13, R558). -/
def State.dealtFld (s : State) (f : Fld) : Nat := s.dealt.get f.reset f.key % 2 ^ f.width

/-- The value that the module acts on: a reserved code counts as the reset value, which for a Deck field is the value the
Deal applied (R13). -/
def State.eff (s : State) (f : Fld) : Nat :=
  if f.ok (s.fld f) then s.fld f else s.dealtFld f

/-- Whether a one-bit field is 1. -/
def State.on (s : State) (f : Fld) : Bool := decide (s.fld f = 1)

/-- Writes a field; it keeps the field's width. -/
def State.set (s : State) (f : Fld) (v : Nat) : State :=
  { s with regs := s.regs.put f.reset f.key (v % 2 ^ f.width) }

/-- Writes a one-bit field. -/
def State.setB (s : State) (f : Fld) (b : Bool) : State := s.set f (b2n b)

/-- Adds to a counter, which wraps at its width. -/
def State.add (s : State) (f : Fld) (n : Nat) : State := s.set f (s.fld f + n)

/-- Adds one to a counter. -/
def State.bump (s : State) (f : Fld) : State := s.add f 1

/-- Sets bits of a field (sticky bits). -/
def State.orIn (s : State) (f : Fld) (m : Nat) : State := s.set f (s.fld f ||| m)

/-- Clears bits of a field. -/
def State.clrIn (s : State) (f : Fld) (m : Nat) : State :=
  s.set f (s.fld f &&& (2 ^ f.width - 1 - m % 2 ^ f.width))

/-- Sets or clears bit `j` of a field. -/
def State.setBit (s : State) (f : Fld) (j : Nat) (b : Bool) : State :=
  if b then s.orIn f (2 ^ j) else s.clrIn f (2 ^ j)

/-- Bit `j` of a field. -/
def State.bit (s : State) (f : Fld) (j : Nat) : Bool := (s.fld f).testBit j

/-- `f` on every element, left to right. -/
def State.each {α : Type} (s : State) (l : List α) (f : State → α → State) : State := l.foldl f s

/-- `f` where `b` holds. -/
def State.when (s : State) (b : Bool) (f : State → State) : State := if b then f s else s

/-! ## Time -/

/-- Periods of 20 ns in microseconds, milliseconds and seconds. -/
def usec (n : Nat) : Nat := 50 * n
def msec (n : Nat) : Nat := 50000 * n
def secs (n : Nat) : Nat := 50000000 * n

/-- Microseconds and milliseconds since t0 (R45, R600). -/
def State.upUs (s : State) : Nat := (s.now - s.t0) / 50
def State.upMs (s : State) : Nat := (s.now - s.t0) / 50000

/-- Starts a deadline `n` periods from now, in place of an earlier one of the same name. -/
def State.arm (s : State) (t : Tmr) (n : Nat) : State :=
  { s with due := (t, s.now + n) :: s.due.filter (fun e => decide (e.1 ≠ t)) }

/-- Starts a deadline at a given period. -/
def State.armAt (s : State) (t : Tmr) (d : Nat) : State :=
  { s with due := (t, d) :: s.due.filter (fun e => decide (e.1 ≠ t)) }

/-- Stops a deadline. -/
def State.disarm (s : State) (t : Tmr) : State := { s with due := s.due.filter (fun e => decide (e.1 ≠ t)) }

/-- The period at which a deadline is due, while it runs. -/
def State.dueAt (s : State) (t : Tmr) : Option Nat := (s.due.find? (fun e => decide (e.1 = t))).map (·.2)

/-- A deadline runs. -/
def State.running (s : State) (t : Tmr) : Bool := (s.dueAt t).isSome

/-- A running deadline has been reached. -/
def State.isDue (s : State) (t : Tmr) : Bool :=
  match s.dueAt t with
  | some d => decide (d ≤ s.now)
  | none => false

/-- A microsecond of elapsed time as R182 measures it, in units of 2^-16 ns. -/
def elapsedUs (n : Nat) : Nat := 65536000 * n
/-- Starts a deadline `us` microseconds of elapsed time from now (R182, R447). -/
def State.armElapsed (s : State) (t : Tmr) (us : Nat) : State := s.armAt t (s.time.elapsed + elapsedUs us)
/-- A running deadline of elapsed time has been reached. -/
def State.isElapsed (s : State) (t : Tmr) : Bool :=
  match s.dueAt t with
  | some d => decide (d ≤ s.time.elapsed)
  | none => false

/-! ## Ports -/

/-- The group's lead lane stands as a gang of four (R138). -/
def State.gang (s : State) (g : Nat) : Bool := decide (s.fld (R.LANE.CTRL.MODE (4 * g)) = 6)
/-- An Ethernet port exists: 0-47, and no member of a gang but its lead (R138). -/
def State.portExists (s : State) (p : Nat) : Bool := decide (p < 48) && (decide (p % 4 = 0) || !s.gang (p / 4))

/-! ## Free values -/

/-- The next free value. -/
def State.freeNow (s : State) : Nat := Config.freeValue s.free
/-- The state after a free value has been used. -/
def State.usedFree (s : State) : State := { s with free := s.free + 1 }

/-! ## Power domains -/

/-- The state of a domain: 0 OFF, 1 ON, 2 QUIESCING, 3 SWITCHING (R565). -/
def State.domState (s : State) (d : Nat) : Nat := s.fld (R.POWER.DOM_STATE_k.STATE (d / 16) (d % 16))
/-- A domain answers register accesses: it is ON or QUIESCING (R564). -/
def State.powered (s : State) (d : Nat) : Bool := decide (s.domState d = 1 ∨ s.domState d = 2)
/-- A domain is ON. -/
def State.domOn (s : State) (d : Nat) : Bool := decide (s.domState d = 1)

/-! ## Free bytes -/

/-- The next `n` bytes that the spec leaves open (free values). -/
def State.freeBytes (s : State) (n : Nat) : List Byte := (List.range n).map fun i => BitVec.ofNat 8 (Config.freeValue (s.free + i))
/-- The state after `n` free values have been used. -/
def State.usedFrees (s : State) (n : Nat) : State := { s with free := s.free + n }

/-- The key store serves (R131). -/
def State.keysOk (s : State) : Bool := s.on R.SEC.STATUS.KEYSTORE_OK && !s.on R.SEC.STATUS.TAMPER_LATCHED

/-! ## Memory -/

/-- What a byte of memory reads as where nothing is listed: vendor SRAM as the services ROM initialises it (R451, R493), with its
status area cleared (R518), the services ROM its contents, and every other byte 0. -/
def memDefault (a : Nat) : Byte :=
  if 0x600000 ≤ a ∧ a < 0x7F0000 then Config.vendorSram (a - 0x600000)
  else if 0x1000000 ≤ a ∧ a < 0x1200000 then Config.servicesRom (a - 0x1000000)
  else 0

/-- A byte of memory. -/
def State.byteAt (s : State) (a : Nat) : Byte := s.mem.get (memDefault a) a
/-- Writes one byte. -/
def State.putByte (s : State) (a : Nat) (b : Byte) : State := { s with mem := s.mem.put (memDefault a) a b }
/-- `n` bytes from address `a`. -/
def State.bytesAt (s : State) (a n : Nat) : List Byte := (List.range n).map (fun i => s.byteAt (a + i))
/-- Writes bytes from address `a` upwards. -/
def State.putBytes (s : State) (a : Nat) (l : List Byte) : State :=
  match l with
  | [] => s
  | b :: t => (s.putByte a b).putBytes (a + 1) t

/-- The canonical form of memory: addresses strictly rising, and no entry equal to what an unlisted address reads as. -/
def Memory.wf (m : List Host.Cell) : Bool := Tbl.wf memDefault m

/-! ## Events -/

/-- The pending and mask bits of an event source, and the core it is routed to (R476, R484). -/
def State.isPend (s : State) (n : Nat) : Bool := s.bit (R.INTC.PEND_SET_k.PEND (n / 32)) (n % 32)
def State.isMasked (s : State) (n : Nat) : Bool := s.bit (R.INTC.MASK_SET_k.MASK (n / 32)) (n % 32)
def State.coreOf (s : State) (n : Nat) : Nat := s.fld (R.INTC.ROUTE_k.CORE (n / 16) (n % 16))

/-- The source is in the wake subset (R487). -/
def State.inWake (s : State) (n : Nat) : Bool :=
  (List.range 32).any fun i =>
    s.bit R.INTC.WAKE_EN.EN i && decide (s.fld (R.INTC.WAKE_m.SOURCE (i / 4) (i % 4)) = n)

/-- A source becomes pending (R476): a raise that finds it pending merges.  A source that its sleeping core may not be
woken by is deferred and counted (R487). -/
def State.raise (s : State) (n : Nat) : State :=
  if s.isPend n then s.bump R.INTC.MERGED.COUNT
  else
    let s1 := s.setBit (R.INTC.PEND_SET_k.PEND (n / 32)) (n % 32) true
    if !s.isMasked n && s.on (R.INTC.LINE_c.SLEEPING (s.coreOf n)) && !s.inWake n && decide (16 ≤ n) then
      s1.bump (R.INTC.SLEEP_DEFERRED_c.COUNT (s.coreOf n))
    else s1

/-! ## The journal queue -/

/-- Bitwise OR of two byte strings of one length. -/
def orBytes : List Byte → List Byte → List Byte
  | a :: s, b :: t => (a ||| b) :: orBytes s t
  | [], t => t
  | s, [] => s

/-- The queue with a FAULT_MAP record merged into the one that waits, where one does (R95). -/
def mergeMap (r : JRec) : List JRec → Option (List JRec)
  | [] => none
  | q :: t =>
    if q.typ = 2 then
      some ({ q with merged := q.merged + 1, payload := orBytes (q.payload.take 40) (r.payload.take 40) ++ r.payload.drop 40 } :: t)
    else (mergeMap r t).map (q :: ·)

/-- A record is queued for its append (R95): a FAULT_MAP record merges into a queued one, and a record that finds 16 queued
is dropped. -/
def State.journal (s : State) (r : JRec) : State :=
  match if r.typ = 2 then mergeMap r s.deck.queue else none with
  | some q => { s with deck := { s.deck with queue := q } }
  | none =>
    if 16 ≤ s.deck.queue.length then (s.bump R.DEAL.JOURNAL_DROP.DROP).raise 205
    else
      let s1 := { s with deck := { s.deck with queue := s.deck.queue ++ [r] } }
      let s2 := s1.set R.DEAL.JOURNAL.QUEUED s1.deck.queue.length
      if s.deck.queue.isEmpty then s2.raise 204 else s2

/-- The sticky bitmap of F000-F319, F000 in bit 0 of byte 0 (R92). -/
def State.stickyMap (s : State) : List Byte :=
  (List.range 10).flatMap fun k => leBytes 4 (s.fld (R.FAULT.STICKY_k.STICKY k))

/-- A FAULT_MAP record of the present sticky bits and Fold count (R92). -/
def State.faultMap (s : State) : JRec :=
  { typ := 2, merged := 0, payload := s.stickyMap ++ beBytes 4 (s.fld R.FAULT.FOLD_COUNT.COUNT) }

/-! ## Fault detection -/

/-- The per-source bits of the collector (R428). -/
def State.isSticky (s : State) (n : Nat) : Bool := s.bit (R.FAULT.STICKY_k.STICKY (n / 32)) (n % 32)
def State.isPresent (s : State) (n : Nat) : Bool := s.bit (R.FAULT.PRESENT_k.PRESENT (n / 32)) (n % 32)
def State.isLatched (s : State) (n : Nat) : Bool := s.bit (R.FAULT.LATCHED_k.LATCHED (n / 32)) (n % 32)
def State.isRunning (s : State) (n : Nat) : Bool := s.bit (R.FAULT.RUNNING_k.RUNNING (n / 32)) (n % 32)

/-- The module is claimed: at least two of the three CLAIMED bits (R108). -/
def State.isClaimed (s : State) : Bool := decide (2 ≤ s.trust.otp.claimedBits)

/-- A field of `FAULT.CFG_k` in force: its default until step 8 of the Deal (R411, R425). -/
def State.cfgFld (s : State) (f : Fld) : Nat := if s.deal.applied then s.fld f else f.reset

/-- The class in force (R411): F019 takes its class from OTP (R59), a fixed source keeps its own. -/
def State.classOf (s : State) (n : Nat) : Nat :=
  if n = 19 then (if s.isClaimed then classGrave else classFold)
  else if n ∈ fixedSources then rstClass n
  else s.cfgFld (R.FAULT.CFG_k.CLASS (n / 4) (n % 4))

/-- The event core, the countdown register and the escalation of a source (R411). -/
def State.evCore (s : State) (n : Nat) : Nat := s.cfgFld (R.FAULT.CFG_k.CORE (n / 4) (n % 4))
def State.cdOf (s : State) (n : Nat) : Nat := s.cfgFld (R.FAULT.CFG_k.CD (n / 4) (n % 4))
def State.escOf (s : State) (n : Nat) : Nat := s.cfgFld (R.FAULT.CFG_k.ESC (n / 4) (n % 4))

/-- A forced window is open (R416). -/
def State.forced (s : State) : Bool := !s.col.windows.isEmpty

/-- Opens and closes a forced window, and shows it in `STATE.FORCED`. -/
def State.openWin (s : State) (w : Nat) : State :=
  let ws := if w ∈ s.col.windows then s.col.windows else w :: s.col.windows
  { s with col := { s.col with windows := ws } }.setB R.FAULT.STATE.FORCED true
def State.closeWin (s : State) (w : Nat) : State :=
  let ws := s.col.windows.filter (fun x => decide (x ≠ w))
  { s with col := { s.col with windows := ws } }.setB R.FAULT.STATE.FORCED (!ws.isEmpty)

/-- Fold is to be entered at the end of this command (R416). -/
def State.askFold (s : State) : State := { s with col := { s.col with foldReq := true } }

/-- A thread of the core is HALTED. -/
def State.coreHalted (s : State) (c : Nat) : Bool :=
  (List.range 16).any fun t => decide ((s.svc.threads.get Thread.init (16 * c + t)).st = .halted)

/-- The countdowns of core `c` are frozen (R415). -/
def State.frozenCore (s : State) (c : Nat) : Bool := s.bit R.DEBUG.STATUS.FREEZE c && s.coreHalted c

/-- Starts the countdown of a handled source from full (R414); where its core is frozen, the time is held (R415). -/
def State.startCountdown (s : State) (n : Nat) : State :=
  let full := usec (s.eff (R.FAULT.COUNTDOWN_c.US (s.cdOf n)))
  let s1 := s.setBit (R.FAULT.RUNNING_k.RUNNING (n / 32)) (n % 32) true
  if s.frozenCore (s.evCore n) then { s1 with col := { s1.col with frozen := (n, full) :: s1.col.frozen.filter (fun e => decide (e.1 ≠ n)) } }
  else s1.arm (.countdown n) full

/-- Stops the countdown of a source. -/
def State.stopCountdown (s : State) (n : Nat) : State :=
  let s1 := (s.disarm (.countdown n)).setBit (R.FAULT.RUNNING_k.RUNNING (n / 32)) (n % 32) false
  { s1 with col := { s1.col with frozen := s1.col.frozen.filter (fun e => decide (e.1 ≠ n)),
                                 escalated := s1.col.escalated.filter (fun e => decide (e ≠ n)) } }

/-- Any sticky bit of class handled or higher is set. -/
def State.anyHandled (s : State) : Bool :=
  (List.range 320).any fun n => s.isSticky n && decide (classHandled ≤ s.classOf n)

/-- In pulse fall-back (R422): FAULT_PULSE is 1 and the static outputs of start-up have been released (R46, R623). -/
def State.pulseMode (s : State) : Bool := s.on R.FAULT.CTRL.FAULT_PULSE && !s.col.staticOut

/-- Drives FAULT_N as R420 and R422 state, from the present state. -/
def State.driveFaultN (s : State) : State :=
  s.setB R.FAULT.STATE.FAULT_N
    (if s.col.staticOut then true
     else if s.pulseMode then s.on R.FAULT.STATE.PULSING || s.on R.FAULT.CTRL.FAULT_N_SW
     else s.on R.FAULT.STATE.FOLD || s.anyHandled)

/-- Drives the bypass outputs as R423 states: in Fold, during start-up, and while any BYP_FORCE bit is 1. -/
def State.driveByp (s : State) : State :=
  s.setB R.FAULT.STATE.BYP
    (s.on R.FAULT.STATE.FOLD || s.col.staticOut || decide (s.fld R.FAULT.CTRL.BYP_FORCE ≠ 0))

/-- A FAULT_N pulse begins; it lasts 2.0 to 2.5 ms, and ends in the model at 2.0 ms or later (R422). -/
def State.startPulse (s : State) : State := ((s.setB R.FAULT.STATE.PULSING true).arm .pulse (msec 2)).driveFaultN

/-- An event that triggers a pulse (R422): it merges with others while a pulse runs or has ended less than 2 ms ago. -/
def State.pulseTrigger (s : State) : State :=
  if !s.pulseMode then s
  else if s.on R.FAULT.STATE.PULSING || s.running .pulseGap then { s with col := { s.col with pulseMore := true } }
  else s.startPulse

/-- The effects of a sticky bit of F240-F255 of class fold or higher: the complex is held in Fold (R419). -/
def State.holdSvc (s : State) (n : Nat) : State :=
  if decide (240 ≤ n ∧ n ≤ 255) then s.setB R.FAULT.STATE.SVC_HELD true else s

/-- A detector sets a source's sticky bit, with the effects of its class (R407, R410, R414, R416, R421, R422).  A bit that
is already set stays set. -/
def State.detect (s : State) (n : Nat) : State :=
  if s.isSticky n then s
  else
    let c := s.classOf n
    let s1 := (((s.setBit (R.FAULT.STICKY_k.STICKY (n / 32)) (n % 32) true).bump (R.FAULT.SET_COUNT_c.COUNT c)).bump
                 (R.FAULT.GROUP_COUNT_k.COUNT (n / 32)))
    let s2 := { s1 with deal := { s1.deal with foldSince := s1.deal.foldSince || decide (classFold ≤ c) } }
    if c = classNotice then s2.raise 0
    else
      let s3 := s2.pulseTrigger
      if c = classHandled then
        let s4 := s3.raise (1 + s.evCore n)
        (if s.forced then
           ((if (s.col.inFold && !s.on R.FAULT.STATE.EXITING) || s.col.foldReq then s4
             else s4.bump R.FAULT.FORCED_FOLDS.COUNT).askFold)
         else s4.startCountdown n).driveFaultN
      else
        let s4 := s3.holdSvc n
        if c = classGrave then
          let s5 := s4.setBit (R.FAULT.LATCHED_k.LATCHED (n / 32)) (n % 32) true
          let s6 := if s5.on R.FAULT.STATE.GRAVE_LATCHED then s5
                    else (s5.setB R.FAULT.STATE.GRAVE_LATCHED true).raise 10
          ((s6.journal s6.faultMap).askFold).driveFaultN
        else (s4.askFold).driveFaultN

/-- A level source's condition begins or ends (R408, R409): its PRESENT bit follows, and a condition that begins is detected. -/
def State.level (s : State) (n : Nat) (present : Bool) : State :=
  let s1 := s.setBit (R.FAULT.PRESENT_k.PRESENT (n / 32)) (n % 32) present
  if present then s1.detect n else s1

end Sys2Proof.Machine
end

