-- ==== Sys2Proof/Machine/Intc.lean ====
section
/-! DEFINITION. Event sources, claiming and the sentry (ch. 20). -/
namespace Sys2Proof.Machine

/-- A pending, unmasked source routed to core `c`. -/
def State.qualifies (s : State) (c n : Nat) : Bool := s.isPend n && !s.isMasked n && decide (s.coreOf n = c)

/-- The core sleeps (R485). -/
def State.asleep (s : State) (c : Nat) : Bool := s.on (R.INTC.LINE_c.SLEEPING c)

/-- The source in service on a core (R479). -/
def State.serving (s : State) (c : Nat) : Option Nat := s.svc.service.get none c

/-- The core's request line (R479): nothing in service, the core awake, and a qualifying source. -/
def State.line (s : State) (c : Nat) : Bool :=
  (s.serving c).isNone && !s.asleep c && (List.range 256).any (s.qualifies c)

/-- The lowest qualifying source of a core; an owner-mode claim passes over locked sources (R480). -/
def State.nextSource (s : State) (c : Nat) (vendor : Bool) : Option Nat :=
  (List.range 256).find? fun n => s.qualifies c n && (vendor || !lockedSource n)

/-- Starts and ends the service of a source on a core, shown in `LINE_c`. -/
def State.setService (s : State) (c : Nat) (o : Option Nat) : State :=
  let s1 := { s with svc := { s.svc with service := s.svc.service.put none c o } }
  (s1.setB (R.INTC.LINE_c.IN_SERVICE c) o.isSome).set (R.INTC.LINE_c.SOURCE c) (o.getD 0)

/-- What a read of `CLAIM_c` returns (R480). -/
def State.claimValue (s : State) (c : Nat) (vendor : Bool) : Nat :=
  match s.serving c with
  | some n => n
  | none => (s.nextSource c vendor).getD 0xFFFF

/-- A claim read (R480): the returned source's pending bit clears and it comes into service.  A debug-port read changes
nothing (R483). -/
def State.claim (s : State) (who : Who) (c : Nat) : State :=
  match who with
  | .debug _ => s
  | .thread _ =>
    match s.serving c with
    | some _ => s
    | none =>
      match s.nextSource c who.vendor with
      | some n =>
        ((s.setBit (R.INTC.PEND_SET_k.PEND (n / 32)) (n % 32) false).setService c (some n)).bump (R.INTC.CLAIMS_c.COUNT c)
      | none => s

/-- The event port's holder of a core (R448). -/
def State.holder (s : State) (c : Nat) : Option Nat := s.svc.holder.get none c
def State.setHolder (s : State) (c : Nat) (o : Option Nat) : State :=
  let s1 := { s with svc := { s.svc with holder := s.svc.holder.put none c o } }
  (s1.setB (R.SVC.EVENT_HOLDER.HELD c) o.isSome).set (R.SVC.EVENT_HOLDER.THREAD c) (o.getD 0 % 16)

/-- A write of source `v` to `DONE_c` (R481).  The holder's write also gives the event port back (R448). -/
def State.done (s : State) (who : Who) (c v : Nat) : State :=
  if s.serving c = some v then
    let s1 := s.setService c none
    match who with
    | .thread t => if s1.holder c = some t.val then s1.setHolder c none else s1
    | .debug _ => s1
  else s.orIn R.INTC.STICKY.BAD_DONE (2 ^ c)

/-- The holder gives the event port back by AWAIT, a trap or a stop, or in a restart: a service in progress on its core ends
as if DONE had been written (R482). -/
def State.releasePort (s : State) (c : Nat) : State :=
  let s1 := s.setHolder c none
  if (s1.serving c).isSome then (s1.setService c none).bump R.INTC.IMPLICIT_DONES.COUNT else s1

/-- A source that has become unmasked while pending, its core asleep and not to be woken by it, is deferred (R487). -/
def State.deferCheck (s : State) (n : Nat) : State :=
  if s.isPend n && s.asleep (s.coreOf n) && !s.inWake n && decide (16 ≤ n) then
    s.bump (R.INTC.SLEEP_DEFERRED_c.COUNT (s.coreOf n))
  else s

/-- The sources that bits of word `k` of a per-source array name. -/
def namedSources (k bits : Nat) : List Nat := ((List.range 32).filter fun j => bits.testBit j).map (32 * k + ·)

/-- An owner-mode write that names a locked source of its word counts once (R478). -/
def State.countRefused (s : State) (b : Bool) : State := if b then s.bump R.INTC.OWNER_REFUSED.COUNT else s

/-- A write of ones to `PEND_SET_k` (R477): in owner mode only the software sources 216-255 take effect.  Raising a software
source that is pending merges (R476). -/
def State.pendSet (s : State) (who : Who) (k bits : Nat) : State :=
  let named := namedSources k bits
  let s1 := s.each (named.filter fun n => who.vendor || decide (216 ≤ n)) fun s n =>
    if 216 ≤ n ∨ !s.isPend n then s.raise n else s
  s1.countRefused (!who.vendor && named.any lockedSource)

/-- A write of ones to `PEND_CLR_k` (R477). -/
def State.pendClr (s : State) (who : Who) (k bits : Nat) : State :=
  let named := namedSources k bits
  let s1 := s.each (named.filter fun n => who.vendor || decide (216 ≤ n)) fun s n =>
    s.setBit (R.INTC.PEND_SET_k.PEND (n / 32)) (n % 32) false
  s1.countRefused (!who.vendor && named.any lockedSource)

/-- A write of ones to `MASK_SET_k` (R477): locked sources stay unmasked in owner mode (R478). -/
def State.maskSet (s : State) (who : Who) (k bits : Nat) : State :=
  let named := namedSources k bits
  let s1 := s.each (named.filter fun n => who.vendor || !lockedSource n) fun s n =>
    s.setBit (R.INTC.MASK_SET_k.MASK (n / 32)) (n % 32) true
  s1.countRefused (!who.vendor && named.any fun n => lockedSource n && !s.isMasked n)

/-- A write of ones to `MASK_CLR_k` (R477). -/
def State.maskClr (s : State) (who : Who) (k bits : Nat) : State :=
  let named := namedSources k bits
  let s1 := s.each (named.filter fun n => who.vendor || !lockedSource n) fun s n =>
    if s.isMasked n then (s.setBit (R.INTC.MASK_SET_k.MASK (n / 32)) (n % 32) false).deferCheck n else s
  s1.countRefused (!who.vendor && named.any fun n => lockedSource n && s.isMasked n)

/-- A write of `ROUTE_k` (R484): the fields of locked sources stay in owner mode (R478). -/
def State.routeWrite (s : State) (who : Who) (k v : Nat) : State :=
  let f := fun j => R.INTC.ROUTE_k.CORE k j
  let s1 := s.each ((List.range 16).filter fun j => who.vendor || !lockedSource (16 * k + j)) fun s j =>
    s.set (f j) (bitsOf v (2 * j) 2)
  s1.countRefused (!who.vendor && (List.range 16).any fun j =>
    lockedSource (16 * k + j) && decide (s.fld (f j) ≠ bitsOf v (2 * j) 2))

/-- The sentry wakes a core (R486). -/
def State.wake (s : State) (c cause : Nat) : State :=
  if s.asleep c then
    ((s.setB (R.INTC.LINE_c.SLEEPING c) false).set (R.INTC.LINE_c.WAKE_CAUSE c) cause).bump (R.INTC.WAKES_c.COUNT c)
  else s

end Sys2Proof.Machine
end

