-- ==== Sys2Proof/Machine/Pools.lean ====
section
/-! DEFINITION. The buffer pools: their layout, takes, gives, waiting takes and reclaims (R536-R541). -/
namespace Sys2Proof.Machine

/-- Buffer size of pool `k`, 1-6 (R536). -/
def poolSize (k : Nat) : Nat := [0, 128, 512, 2048, 9216, 65536, 1048576].getD k 0

/-- Rounds up to a multiple of `m`. -/
def roundUp (n m : Nat) : Nat := (n + m - 1) / m * m

/-- Where the pool area starts: after the flow table (R523). -/
def State.poolStart (s : State) : Nat :=
  match s.variant with
  | .v32 => 0x1280800000
  | .v16 => 0x1180400000

/-- The number of buffers of pool `k` (R536). -/
def State.poolCount (s : State) (k : Nat) : Nat := s.fld (R.POOL.COUNT_k.COUNT (k - 1))

/-- The base of pool `k` (R536). -/
def State.poolBase (s : State) : Nat → Nat
  | 1 => 0
  | 2 => roundUp (s.poolCount 1 * 128) 4096
  | 3 => roundUp (roundUp (s.poolCount 1 * 128) 4096 + s.poolCount 2 * 512) 4096
  | 4 => roundUp (roundUp (roundUp (s.poolCount 1 * 128) 4096 + s.poolCount 2 * 512) 4096 + s.poolCount 3 * 2048) 4096
  | 5 => s.poolStart
  | 6 => roundUp (s.poolStart + s.poolCount 5 * 65536) 1048576
  | _ => 0

/-- Where the owner area of DRAM starts (R523). -/
def State.ownerArea (s : State) : Nat := roundUp (s.poolBase 6 + s.poolCount 6 * 1048576) 1048576

/-- The address of buffer `i` of pool `k`. -/
def State.bufAddr (s : State) (k i : Nat) : Nat := s.poolBase k + i * poolSize k

/-- The key of buffer `i` of pool `k` in the table of holders. -/
def bufKey (k i : Nat) : Nat := k * 65536 + i

/-- The owner that holds a buffer, none where it is FREE. -/
def State.holderOf (s : State) (k i : Nat) : Option Nat :=
  match s.pools.held.get 0 (bufKey k i) with
  | 0 => none
  | o + 1 => some o

/-- The pool and the number of the buffer that an address lies in. -/
def State.bufAt (s : State) (a : Nat) : Option (Nat × Nat) :=
  ([1, 2, 3, 4, 5, 6].find? fun k => decide (s.poolBase k ≤ a ∧ a < s.poolBase k + s.poolCount k * poolSize k)).map
    fun k => (k, (a - s.poolBase k) / poolSize k)

/-- The pool and number of the buffer that starts at an address (R540). -/
def State.bufStart (s : State) (a : Nat) : Option (Nat × Nat) :=
  match s.bufAt a with
  | some (k, i) => if s.bufAddr k i = a then some (k, i) else none
  | none => none

/-- Buffers of pool `k` that owner `o` holds. -/
def State.heldBy (s : State) (o k : Nat) : Nat :=
  (s.pools.held.filter fun e => decide (e.2 = o + 1 ∧ e.1 / 65536 = k)).length
/-- Free buffers of pool `k`. -/
def State.freeIn (s : State) (k : Nat) : Nat :=
  s.poolCount k - (s.pools.held.filter fun e => decide (e.1 / 65536 = k)).length

/-- The reserve of an owner in a pool: 0 for code 0, else 2^(n-1) (R537). -/
def State.reserve (s : State) (o k : Nat) : Nat :=
  let e := o * 6 + (k - 1)
  match s.fld (R.POOL.RES_m.N (e / 8) (e % 8)) with
  | 0 => 0
  | n + 1 => 2 ^ n

/-- The reserves of pool `k` that their owners do not yet hold (R538). -/
def State.unmet (s : State) (k : Nat) : Nat :=
  (List.range 64).foldl (fun a o => a + (s.reserve o k - s.heldBy o k)) 0

/-- Shows a pool's free count, its lowest value, and the event at 0 (R541). -/
def State.showFree (s : State) (k : Nat) : State :=
  let f := s.freeIn k
  let s1 := s.set (R.POOL.FREE_k.FREE (k - 1)) f
  let s2 := s1.set (R.POOL.FREE_k.LOW (k - 1)) (min f (s1.fld (R.POOL.FREE_k.LOW (k - 1))))
  if f = 0 ∧ s.fld (R.POOL.FREE_k.FREE (k - 1)) ≠ 0 then (s2.setBit R.POOL.STICKY.EMPTY_SEEN (k - 1) true).raise 196 else s2

/-- Owner `o` takes hold of a buffer, or gives it up (none). -/
def State.hold (s : State) (k i : Nat) (o : Option Nat) : State :=
  let v := match o with
    | some n => n + 1
    | none => 0
  { s with pools := { s.pools with held := s.pools.held.put 0 (bufKey k i) v } }.showFree k

/-- The lowest free buffer of a pool. -/
def State.lowestFree (s : State) (k : Nat) : Option Nat :=
  (List.range (s.poolCount k)).find? fun i => decide (s.holderOf k i = none)

/-- A take may draw on pool `k` for owner `o`: its own reserve, or the shared part (R538). -/
def State.mayTake (s : State) (o k : Nat) : Bool :=
  (decide (s.heldBy o k < s.reserve o k) && decide (0 < s.freeIn k)) || decide (s.unmet k < s.freeIn k)

/-- The pools that a take tries, in order (R538): `exact` the one pool it names, or none where the size decides. -/
def State.takePools (s : State) (size : Nat) (exact : Option Nat) : List Nat :=
  match exact with
  | some k => [k]
  | none =>
    match [1, 2, 3, 4, 5, 6].find? fun k => decide (size ≤ poolSize k) with
    | some k =>
      let top := if k ≤ 4 ∧ s.fld R.POOL.CTRL.FALLBACK_DRAM = 0 then 4 else 6
      [1, 2, 3, 4, 5, 6].filter fun j => decide (k ≤ j ∧ j ≤ top)
    | none => []

/-- The take of R538: the buffer handed out, and the state after. -/
def State.take (s : State) (o size : Nat) (exact : Option Nat) : State × Option (Nat × Nat) :=
  match (s.takePools size exact).find? (s.mayTake o) with
  | some k =>
    match s.lowestFree k with
    | some i => (s.hold k i (some o), some (k, i))
    | none => (s, none)
  | none => (s, none)

/-- The pool owner of a thread (R537): the vendor services, or one owner for each owner-mode thread. -/
def poolOwner (t : Nat) : Nat := if t % 16 < 4 then 3 else 16 + 12 * (t / 16) + (t % 16 - 4)

/-- A take that finds no buffer is counted: it returns NONE, or begins to wait (R545).  The hardware owners take by the same
procedure (R539). -/
def State.takeFailed (s : State) (waits : Bool) : State :=
  let s1 := s.bump R.POOL.TAKE_FAILS.COUNT
  if waits then s1 else s1.setB R.POOL.STICKY.NONE_SEEN true

/-- The take result word (R539). -/
def State.takeWord (s : State) (b : Option (Nat × Nat)) : Word64 :=
  match b with
  | some (k, i) => BitVec.ofNat 64 (s.bufAddr k i * 2 ^ 24 + k * 2 ^ 21)
  | none => 1#64

/-- The request of a take word. -/
def State.takeFor (s : State) (t : Nat) (w : Word64) : State × Option (Nat × Nat) :=
  s.take (poolOwner t) (bitsOf w.toNat 0 24) (if w.toNat.testBit 62 then some (bitsOf w.toNat 56 3) else none)

/-- Serves the oldest waiting take where a buffer can now be had (R539): waiting requests are served in arrival order. -/
def State.serveWaiter (s : State) : State :=
  match s.pools.waiting with
  | [] => s
  | w :: rest =>
    match s.takeFor w.thread w.word with
    | (s1, some b) =>
      let th := { s1.svc.threads.get Thread.init w.thread with take := some (s1.takeWord (some b)), takeWaits := false }
      let svc := { s1.svc with threads := s1.svc.threads.put Thread.init w.thread th }
      { s1 with pools := { s1.pools with waiting := rest }, svc := svc }
    | (_, none) => s

/-- Serves waiting takes, one after another, until the oldest cannot be served. -/
def State.serveWaiters (s : State) : Nat → State
  | 0 => s
  | n + 1 => if s.serveWaiter = s then s else s.serveWaiter.serveWaiters n

/-- A buffer becomes FREE, and the takes that wait are served. -/
def State.release (s : State) (k i : Nat) : State :=
  let s1 := s.hold k i none
  s1.serveWaiters s1.pools.waiting.length

/-- A give of a FREE buffer changes nothing but its reports (R540). -/
def State.doubleFree (s : State) : State :=
  (((s.detect 246).raise 197).bump R.POOL.DOUBLE_FREES.COUNT).setB R.POOL.STICKY.DOUBLE_FREE_SEEN true

/-- Gives a buffer back (R540), wherever it starts. -/
def State.giveBuf (s : State) (k i : Nat) : State :=
  match s.holderOf k i with
  | some _ => s.release k i
  | none => s.doubleFree

/-- Every buffer that satisfies `p` on its key and its owner is reclaimed (R541). -/
def State.reclaim (s : State) (p : Nat → Nat → Bool) : State :=
  s.each (s.pools.held.filter fun e => p e.1 (e.2 - 1)) fun s e => s.release (e.1 / 65536) (e.1 % 65536)

end Sys2Proof.Machine
end

