-- ==== Sys2Proof/Machine/Threads.lean ====
section
/-! DEFINITION. Service threads and channels: states, waits, traps, halts, ownership of messages and abandons
(R429-R442, R465, R575-R579). -/
namespace Sys2Proof.Machine

/-- Thread `t` (core x 16 + number). -/
def State.thr (s : State) (t : Nat) : Thread := s.svc.threads.get Thread.init t
/-- Replaces a thread. -/
def State.setThr (s : State) (t : Nat) (h : Thread) : State :=
  { s with svc := { s.svc with threads := s.svc.threads.put Thread.init t h } }
/-- Changes a thread. -/
def State.modThr (s : State) (t : Nat) (f : Thread → Thread) : State := s.setThr t (f (s.thr t))

/-- The core of a thread. -/
def coreOfThr (t : Nat) : Nat := t / 16
/-- The thread runs in vendor mode (R432). -/
def vendorThr (t : Nat) : Bool := decide (t % 16 < 4)
/-- An owner thread that a PROGRAM section assigned (R432). -/
def State.ownerThr (s : State) (t : Nat) : Bool := s.bit (R.SVC.STATUS.OWNER (t / 16)) (t % 16)
/-- A service parameter that the Deck gave (R495). -/
def State.param (s : State) (svc p : Nat) : Option (List Byte) :=
  match s.deal.params.get [] (svc * 65536 + p) with
  | [] => none
  | l => some l

/-- A service is enabled (R490): its EN parameter, 0 or 1, else its default. -/
def State.svcEn (s : State) (svc : Nat) : Bool :=
  let dflt := decide (svc = 3 ∨ svc = 4 ∨ svc = 9)
  match s.param svc 0 with
  | some l => if ofBe l = 1 then true else if ofBe l = 0 then false else dflt
  | none => dflt

/-- A service is on: it is enabled, and it has the parameters without which it stays off (R496, R507). -/
def State.svcOn (s : State) (svc : Nat) : Bool :=
  s.svcEn svc && (decide (svc ∉ [5, 6, 7, 8, 10]) || (s.param svc 0x102).isSome) && (decide (svc ≠ 7) || (s.param 7 1).isSome)

/-- The service that a vendor thread runs, 0 where none does (R490). -/
def serviceOf (t : Nat) : Nat :=
  match t with
  | 0 => 9 | 1 => 9 | 2 => 10 | 3 => 11
  | 16 => 1 | 17 => 1 | 18 => 4 | 19 => 5
  | 32 => 2 | 33 => 2 | 34 => 3 | 35 => 3
  | 48 => 6 | 49 => 7 | 50 => 8
  | _ => 0

/-- A vendor thread whose service is enabled. -/
def State.vendorUsed (s : State) (t : Nat) : Bool :=
  vendorThr t && decide (serviceOf t ≠ 0) && s.svcOn (serviceOf t)

/-- The thread is assigned: a vendor thread that runs a service, or an owner thread (R432, R490). -/
def State.assigned (s : State) (t : Nat) : Bool := s.vendorUsed t || (!vendorThr t && s.ownerThr t)
/-- All 64 threads. -/
def allThreads : List Nat := List.range 64

/-- A general register; g0 reads 0 (R454). -/
def State.reg (s : State) (t : Nat) (r : Reg) : Word64 := if r.val = 0 then 0 else (s.thr t).g.get 0 r.val
/-- Writes a general register; writes to g0 are discarded (R454). -/
def State.setReg (s : State) (t : Nat) (r : Reg) (v : Word64) : State :=
  if r.val = 0 then s else s.modThr t fun h => { h with g := h.g.put 0 r.val v }
/-- Writes two results.  Where both operands name one register the spec does not say which stands, and a free value chooses. -/
def State.setTwo (s : State) (t : Nat) (rd re : Reg) (v w : Word64) : State :=
  if rd = re ∧ rd.val ≠ 0 then (s.setReg t rd (if s.freeNow % 2 = 0 then v else w)).usedFree
  else (s.setReg t rd v).setReg t re w

/-- The PC moves to the next instruction. -/
def State.next (s : State) (t : Nat) : State :=
  s.modThr t fun h => { h with pc := h.pc + 4, midLong := false, skipBp := false }
/-- The PC moves to a target. -/
def State.jump (s : State) (t : Nat) (a : Addr) : State :=
  s.modThr t fun h => { h with pc := a, midLong := false, skipBp := false }

/-- Slots of a core that have issued (R464). -/
def State.slots (s : State) (t n : Nat) : State := s.add (R.SVC.ISSUED.COUNT (t / 16)) n

/-! ## Channels -/

/-- A channel (R436). -/
def State.chan (s : State) (n : Nat) : Chan := s.svc.chans.get Chan.init n
/-- Replaces a channel. -/
def State.setChan (s : State) (n : Nat) (c : Chan) : State :=
  { s with svc := { s.svc with chans := s.svc.chans.put Chan.init n c } }

/-- The words that a channel holds: the partly written message, the complete ones, and the unread rest of the one being
read. -/
def Chan.words (c : Chan) : Nat :=
  c.part.length + (c.msgs.foldl (fun a m => a + m.words.length) 0) +
    (match c.reader with
     | some (_, l) => l.length
     | none => 0)

/-- The thread owns the partly written message of the channel. -/
def Chan.writes (c : Chan) (t : Nat) : Bool :=
  match c.owner with
  | some (u, _) => decide (u = t)
  | none => false
/-- The thread owns the message being read from the channel. -/
def Chan.reads (c : Chan) (t : Nat) : Bool :=
  match c.reader with
  | some (u, _) => decide (u = t)
  | none => false

/-- The channel that a thread is partly through writing, and those it is partly through reading. -/
def State.writing (s : State) (t : Nat) : List Nat := (s.svc.chans.filter fun e => e.2.writes t).map (·.1)
def State.reading (s : State) (t : Nat) : List Nat := (s.svc.chans.filter fun e => e.2.reads t).map (·.1)

/-- The abandon of a writer's message (R442): its words are discarded, the channel is freed, and the writer's PC returns to
the CHOUT that began the message. -/
def State.abandonWrite (s : State) (n : Nat) : State :=
  match (s.chan n).owner with
  | some (u, pc) =>
    ((s.setChan n { s.chan n with owner := none, part := [] }).modThr u
      fun h => { h with pc := pc, blocked := none }).bump R.SVC.CH_ABANDONS.COUNT
  | none => s

/-- The abandon of a reader's message (R442): the unread words are discarded. -/
def State.abandonRead (s : State) (n : Nat) : State :=
  match (s.chan n).reader with
  | some _ => (s.setChan n { s.chan n with reader := none }).bump R.SVC.CH_ABANDONS.COUNT
  | none => s

/-- A hardware writer puts a whole message into a channel when it has room for it (R437). -/
def State.hwSend (s : State) (n : Nat) (ws : List Word64) : State :=
  s.setChan n { s.chan n with msgs := (s.chan n).msgs ++ [{ words := ws, hw := true }] }
/-- The channel has room for a whole message, and no writer owns it. -/
def State.hwRoom (s : State) (n k : Nat) : Bool := decide ((s.chan n).owner = none) && decide ((s.chan n).words + k ≤ 16)

/-! ## Waits, traps, stops and halts -/

/-- The thread blocks: it keeps its PC on the instruction, which has not yet executed (R465). -/
def State.block (s : State) (t : Nat) (st : ThSt) (on : Nat) (e : Elv) : State :=
  let s1 := s.modThr t fun h => { h with st := st, wait := on, waitSeq := s.svc.seq, blocked := some e, waited := true }
  { s1 with svc := { s1.svc with seq := s1.svc.seq + 1 } }

/-- What a trapping or restarting thread owns is abandoned: its partial message, its partial command, and the rest of a message that it
is reading (R435, R442, R451). -/
def State.abandonParts (s : State) (t : Nat) : State :=
  let s1 := s.each (s.writing t) State.abandonWrite
  (s1.modThr t fun h => { h with pout := none }).each (s.reading t) State.abandonRead

/-- The thread gives up its core's event port, where it holds it (R482). -/
def State.dropPort (s : State) (t : Nat) : State :=
  if s.holder (t / 16) = some t then s.releasePort (t / 16) else s

/-- The status block of a service (R493), and a field of it. -/
def statBase (k : Nat) : Nat := 0x7F0000 + 0x1000 * (k - 1)
def State.svcStat (s : State) (k o n : Nat) : Nat := ofLe (s.bytesAt (statBase k + o) n)
def State.setSvcStat (s : State) (k o n v : Nat) : State := s.putBytes (statBase k + o) (leBytes n v)
def State.bumpSvcStat (s : State) (k o n : Nat) : State := s.setSvcStat k o n (s.svcStat k o n + 1)

/-- The thread traps (R435): it stops in TRAPPED with its PC on the instruction, and F242 or F241 is raised. -/
def State.trap (s : State) (t cause addr : Nat) : State :=
  let s1 := s.modThr t fun h => { h with st := .trapped, trapCause := cause, faultAddr := addr % 2 ^ 40, blocked := none, stepping := false }
  let s2 := ((s1.abandonParts t).dropPort t).disarm (.sleep t)
  if vendorThr t then (if s2.vendorUsed t then s2.setSvcStat (serviceOf t) 0 1 3 else s2).detect 241 else s2.detect 242

/-- A trap whose cause has no address of its own records the address of the instruction. -/
def State.trapHere (s : State) (t cause : Nat) : State := s.trap t cause (s.thr t).pc.toNat

/-- Every countdown whose core is `c` follows the freeze conditions of R415. -/
def State.refreeze (s : State) (c : Nat) : State :=
  if s.frozenCore c then
    s.each ((List.range 320).filter fun n => s.isRunning n && decide (s.evCore n = c)) fun s n =>
      match s.dueAt (.countdown n) with
      | some d =>
        let s1 := s.disarm (.countdown n)
        { s1 with col := { s1.col with frozen := (n, d - s.now) :: s1.col.frozen } }
      | none => s
  else
    let back := s.col.frozen.filter fun e => decide (s.evCore e.1 = c)
    let s1 := { s with col := { s.col with frozen := s.col.frozen.filter fun e => decide (s.evCore e.1 ≠ c) } }
    s1.each back fun s e => s.arm (.countdown e.1) e.2

/-- The thread halts, with the cause that `LAST_HALT` records (R575, R579). -/
def State.halt (s : State) (t cause index : Nat) : State :=
  let s1 := (s.modThr t fun h => { h with st := .halted, blocked := none, stepping := false }).disarm (.sleep t)
  let s2 := ((s1.set R.DEBUG.LAST_HALT.CAUSE cause).set R.DEBUG.LAST_HALT.INDEX index).set R.DEBUG.LAST_HALT.THREAD t
  (if cause = 2 ∨ cause = 3 then s2.bump R.DEBUG.HITS.COUNT else s2).refreeze (t / 16)

/-- The thread stops (R452, R482). -/
def State.stop (s : State) (t : Nat) : State :=
  let s1 := s.modThr t fun h => { h with st := .stopped, blocked := none, stepping := false }
  ((s1.dropPort t).disarm (.sleep t)).refreeze (t / 16)

/-- The thread starts at its ENTRY with g1-g31 cleared (R454). -/
def State.start (s : State) (t : Nat) : State :=
  s.modThr t fun h => { Thread.init with st := .ready, entry := h.entry, pc := h.entry }

/-- The complex runs: its threads have started and it is neither held nor in restart (R419, R451). -/
def State.svcRuns (s : State) : Bool := s.svc.vendorUp && !s.on R.FAULT.STATE.SVC_HELD

/-- The first thread of a service (R490). -/
def svcThread (k : Nat) : Nat := [63, 16, 32, 34, 18, 19, 48, 49, 50, 0, 2, 3].getD k 63
/-- A service acts: it is on, the complex runs, and its thread has started and neither stopped, trapped nor been halted. -/
def State.svcLive (s : State) (k : Nat) : Bool :=
  let h := s.thr (svcThread k)
  s.svcRuns && s.svcOn k && decide (s.svc.restarting ≠ 1) && decide (h.st ≠ .stopped ∧ h.st ≠ .trapped ∧ h.st ≠ .halted)

/-- The complex has started the threads of `t`'s group (R432, R451). -/
def State.groupUp (s : State) (t : Nat) : Bool := s.svcRuns && decide (s.svc.restarting ≠ 1) && (vendorThr t || s.svc.ownerUp)

/-- `THREAD_t.CMD` (R435, R452, R541): 1 restarts an assigned thread at ENTRY, 2 stops it. -/
def State.threadCmd (s : State) (t cmd : Nat) : State :=
  if !s.groupUp t || !s.assigned t then s
  else if cmd = 1 then
    let s1 := ((s.abandonParts t).dropPort t).disarm (.sleep t)
    let s2 := { s1 with pools := { s1.pools with waiting := s1.pools.waiting.filter fun w => decide (w.thread ≠ t) } }
    ((s2.reclaim fun _ o => decide (o = poolOwner t)).start t).refreeze (t / 16)
  else if cmd = 2 then s.stop t
  else s

/-- A watchpoint fires (R578): the thread halts after an access of `n` bytes at `a` has committed. -/
def State.watch (s : State) (t a n : Nat) (write : Bool) : State :=
  match s.dbg.wtcs.find? fun w =>
      decide (w.slot / 4 = t / 16) && w.mask.testBit (t % 16) && (if write then w.w else w.r) &&
        decide (a < w.addr + 2 ^ w.log2 ∧ w.addr < a + n) with
  | some w => if (s.thr t).st = .ready then s.halt t 3 (w.slot % 4) else s
  | none => s

/-- An enabled breakpoint that applies to the thread at its PC (R578). -/
def State.breakAt (s : State) (t : Nat) : Option Brk :=
  s.dbg.brks.find? fun b => decide (b.slot / 8 = t / 16 ∧ b.pc = (s.thr t).pc) && b.mask.testBit (t % 16)

/-! ## Gated accesses -/

/-- An access to a domain that is OFF or SWITCHING (R564). -/
def State.offAccess (s : State) (a : Nat) : State :=
  (((s.bump R.POWER.OFF_ACCESS.COUNT).set R.POWER.OFF_ADDR_LO.ADDR (a % 2 ^ 32)).set R.POWER.OFF_ADDR_HI.ADDR (a / 2 ^ 32)).detect 36

/-- An access that the issuing thread may not make (R10): a protection trap; the debug port is only refused. -/
def State.protect (s : State) (who : Who) (a : Nat) : State :=
  match who with
  | .thread t => s.trap t.val 0x03 a
  | .debug _ => s

/-- A register access wakes a sleeping service core (R486). -/
def State.touchCore (s : State) (c cause : Nat) : State := s.wake c cause

/-- A write of a command register at address `a`: in its powered domain, and in vendor mode where the register is -V (R10, R564). -/
def State.cmdWrite (s : State) (who : Who) (dom : Option Nat) (vend : Bool) (a : Nat) (f : State → State) : State :=
  match dom with
  | some d => if !s.powered d then s.offAccess a else if vend && !who.vendor then s.protect who a else f s
  | none => if vend && !who.vendor then s.protect who a else f s

end Sys2Proof.Machine
end

