-- ==== Sys2Proof/Machine/Time.lean ====
section
/-! DEFINITION. The time unit: the clock instances, their steps, timestamps, the egress timestamp queue, and the instants of
the time gates (R165-R184, R342-R347). -/
namespace Sys2Proof.Machine

/-! ## Instances -/

/-- Clock instance `i` (R168). -/
def Inst.init : Inst := { sec := 0, ns := 0, frac := 0, rest := 0 }
def State.clk (s : State) (i : Nat) : Inst := s.inst.get Inst.init i
def State.setClk (s : State) (i : Nat) (c : Inst) : State := { s with inst := s.inst.put Inst.init i c }

/-- An instance in nanoseconds since its time 0. -/
def Inst.total (c : Inst) : Nat := c.sec * 1000000000 + c.ns

/-- An instance at `n` 2^-16 nanoseconds, seconds modulo 2^48. -/
def Inst.ofFine (n : Int) (rest : Int) : Inst :=
  let m := (n % ((2 ^ 48 * 1000000000 * 65536 : Nat) : Int)).toNat
  { sec := m / 65536 / 1000000000, ns := m / 65536 % 1000000000, frac := m % 65536, rest := rest }

/-- An instance moved by `n` 2^-16 nanoseconds. -/
def Inst.move (c : Inst) (n : Int) (rest : Int) : Inst :=
  Inst.ofFine ((c.total * 65536 + c.frac : Nat) + n) rest

/-- RATE of an instance, signed (R169). -/
def State.rate (s : State) (i : Nat) : Int := signedOf 32 (s.fld (R.TIME.INST_i.RATE.RATE i))

/-- One TCXO period: each instance advances by 20 ns and by its RATE (R169). -/
def State.tickClk (s : State) (i : Nat) : State :=
  let c := s.clk i
  let r := c.rest + s.rate i
  s.setClk i (c.move (20 * 65536 + r / 50000000) (r % 50000000))

/-- The gate-time instance (R180), and its time in nanoseconds. -/
def State.gateInst (s : State) : Nat := s.fld R.TIME.GATE.GATE_INST
def State.gateNs (s : State) : Nat := (s.clk s.gateInst).total

/-- One TCXO period of the elapsed time of R182. -/
def State.tickElapsed (s : State) : State :=
  let r := s.time.rest + s.rate s.gateInst
  { s with time := { s.time with elapsed := s.time.elapsed + (20 * 65536 + r / 50000000).toNat, rest := r % 50000000 } }
/-- Elapsed nanoseconds (R182). -/
def State.mono (s : State) : Nat := s.time.elapsed / 65536

/-! ## Timestamps -/

/-- The instance that port `p` takes its timestamps in (R173). -/
def State.portInst (s : State) (p : Nat) : Nat := s.fld (R.TIME.PORT_INST_k.INST (p / 16) (p % 16))

/-- The reading of instance `i`, `d` nanoseconds from now. -/
def State.stampAt (s : State) (i : Nat) (d : Int) : Nat × Nat × Nat :=
  let c := (s.clk i).move (d * 65536) 0
  (i, c.sec, c.ns)

/-- The ingress timestamp of port `p` for a frame whose first bit after the SFD came `ago` ns ago (R173). -/
def State.rxStamp (s : State) (p ago : Nat) : Nat × Nat × Nat :=
  s.stampAt (s.portInst p) (signedOf 16 (s.fld (R.TIME.PORT_ADJ_n.RX p)) - ago)

/-- The egress timestamp of port `p` for a first bit after the SFD that leaves `on` ns from now (R173). -/
def State.txStamp (s : State) (p on : Nat) : Nat × Nat × Nat :=
  s.stampAt (s.portInst p) (signedOf 16 (s.fld (R.TIME.PORT_ADJ_n.TX p)) + on)

/-- An ingress timestamp in the gate-time instance, by the present difference of the two instances (R176, R350). -/
def State.toGate (s : State) (ts : Nat × Nat × Nat) : Int :=
  (ts.2.1 * 1000000000 + ts.2.2 : Nat) + (s.gateNs : Int) - ((s.clk ts.1).total : Int)

/-- Egress time minus ingress time in nanoseconds, the ingress timestamp converted into the egress instance (R176). -/
def State.residence (s : State) (rx tx : Nat × Nat × Nat) : Int :=
  (tx.2.1 * 1000000000 + tx.2.2 : Nat) -
    ((rx.2.1 * 1000000000 + rx.2.2 : Nat) + ((s.clk tx.1).total : Int) - ((s.clk rx.1).total : Int))

/-- Presents the oldest entry of the egress timestamp queue in `ETS_HEAD` (R175). -/
def State.showEts (s : State) : State :=
  match s.time.ets with
  | [] => s.setB R.TIME.ETS_HEAD.VALID false
  | e :: _ =>
    ((((((s.setB R.TIME.ETS_HEAD.VALID true).set R.TIME.ETS_HEAD.PORT e.port).set R.TIME.ETS_HEAD.INST e.inst).set
      R.TIME.ETS_HEAD.TAG e.tag).set R.TIME.ETS_SEC_LO.SEC e.sec).set R.TIME.ETS_SEC_HI.SEC (e.sec / 2 ^ 32)).set
      R.TIME.ETS_NS.NS e.ns

/-- An egress timestamp enters the queue of 64, or is lost (R175). -/
def State.etsPush (s : State) (port tag : Nat) (ts : Nat × Nat × Nat) : State :=
  if 64 ≤ s.time.ets.length then ((s.bump R.TIME.ETS_LOST.COUNT).detect 259).raise 18
  else
    let e : EtsE := { port := port, tag := tag, inst := ts.1, sec := ts.2.1, ns := ts.2.2 }
    let s1 := { s with time := { s.time with ets := s.time.ets ++ [e] } }
    if s.time.ets.isEmpty then s1.showEts.raise 17 else s1

/-! ## The trim (R165, R166) -/

/-- The trim in force: while the reference disciplines it, a value that the spec leaves open (free value), which from the lock on has
slewed by no more than 10 ppb, 10,240 units, in a second; otherwise as last written. -/
def State.trim (s : State) : Nat :=
  let w := s.fld R.TIME.OSC_TRIM.TRIM
  if s.eff R.TIME.OSC.SRC = 1 ∧ s.on R.TIME.OSC.REF_LOCK then
    let most : Int := (10240 * (s.now - s.time.refAt) / 50000000 : Nat)
    codeOf 24 (signedOf 24 w + max (-most) (min most (signedOf 24 (Config.refTrim s.now).toNat - signedOf 24 w)))
  else w

/-! ## Gate instants -/

/-- The first `base + k x cycle` at or after `t` (R344, R181). -/
def boundary (base cycle t : Nat) : Nat :=
  if t ≤ base ∨ cycle = 0 then base else base + (t - base + cycle - 1) / cycle * cycle

/-- The state of an egress port. -/
def State.eport (s : State) (p : Nat) : EPort := s.tm.ports.get EPort.init p
def State.setEport (s : State) (p : Nat) (e : EPort) : State :=
  { s with tm := { s.tm with ports := s.tm.ports.put EPort.init p e } }
def State.modEport (s : State) (p : Nat) (f : EPort → EPort) : State := s.setEport p (f (s.eport p))

/-- Base (ns) and cycle of the oper and of the admin list of port `p`. -/
def State.operBase (s : State) (p : Nat) : Nat :=
  (s.fld (R.TM.OPER_SEC_LO.SEC p) + 2 ^ 32 * s.fld (R.TM.OPER_SEC_HI.SEC p)) * 1000000000 + s.fld (R.TM.OPER_NS.NS p)
def State.operCycle (s : State) (p : Nat) : Nat := s.fld (R.TM.OPER_CYCLE.CYCLE p)
def State.operCount (s : State) (p : Nat) : Nat := s.fld (R.TM.OPER_SEC_HI.COUNT p)
def State.adminBase (s : State) (p : Nat) : Nat :=
  (s.fld (R.TM.ADMIN_SEC_LO.SEC p) + 2 ^ 32 * s.fld (R.TM.ADMIN_SEC_HI.SEC p)) * 1000000000 + s.fld (R.TM.ADMIN_NS.NS p)
def State.adminCycle (s : State) (p : Nat) : Nat := s.fld (R.TM.ADMIN_CYCLE.CYCLE p)
def State.adminCount (s : State) (p : Nat) : Nat := s.fld (R.TM.ADMIN_SEC_HI.COUNT p)

/-- Entry `e` of the oper and of the admin list (R342). -/
def State.operEntry (s : State) (p e : Nat) : Nat := s.tm.oper.get 0 (p * 1024 + e)
def State.adminEntry (s : State) (p e : Nat) : Nat := s.tm.admin.get 0 (p * 1024 + e)
/-- GATES, and the interval in nanoseconds. -/
def entGates (w : Nat) : Nat := bitsOf w 48 16
def entNs (w : Nat) : Nat := bitsOf w 0 32 * 8

/-- The start of each entry of the oper list within its cycle, cut at the cycle's end (R343): entry number, start, GATES. -/
def State.operStarts (s : State) (p : Nat) : List (Nat × Nat × Nat) :=
  ((List.range (s.operCount p)).foldl
    (fun (a : Nat × List (Nat × Nat × Nat)) e =>
      let w := s.operEntry p e
      (a.1 + entNs w, if a.1 < s.operCycle p then a.2 ++ [(e, a.1, entGates w)] else a.2)) (0, [])).2

/-- The entry of the oper list at instant `t` (ns): its number and GATES (R343). -/
def State.operAt (s : State) (p t : Nat) : Nat × Nat :=
  let c := s.operCycle p
  let o := if c = 0 then 0 else ((t : Int) - (s.operBase p : Int)) % (c : Int)
  match (s.operStarts p).reverse.find? fun e => decide ((e.2.1 : Int) ≤ o) with
  | some e => (e.1, e.2.2)
  | none => (0, 0xFFFF)

/-- A port has an oper list in force for its gates: a list is oper and GATE_EN is 1 (R343). -/
def State.gated (s : State) (p : Nat) : Bool := (s.eport p).oper && s.on (R.TM.CTRL.GATE_EN p)

/-- The gate states at the pins (R343): all open while GATE_EN is 0 or no list is oper. -/
def State.gates (s : State) (p : Nat) : Nat := s.fld (R.TM.GATE_STATUS.GATES p)
def State.gateOpen (s : State) (p q : Nat) : Bool := (s.gates p).testBit q

/-- Shows the entry that the oper list stands in, and the gate states (R343, R356).  Under the hold of R181 the
entry stays. -/
def State.showGates (s : State) (p : Nat) : State :=
  let e := s.eport p
  if !e.oper then (s.set (R.TM.GATE_STATUS.GATES p) 0xFFFF).set (R.TM.GATE_STATUS.ENTRY p) 0
  else if e.restart.isSome then
    s.set (R.TM.GATE_STATUS.GATES p)
      (if s.on (R.TM.CTRL.GATE_EN p) then entGates (s.operEntry p (s.fld (R.TM.GATE_STATUS.ENTRY p))) else 0xFFFF)
  else
    let a := s.operAt p s.gateNs
    (s.set (R.TM.GATE_STATUS.ENTRY p) a.1).set (R.TM.GATE_STATUS.GATES p)
      (if s.on (R.TM.CTRL.GATE_EN p) then a.2 else 0xFFFF)

/-- The next instant after `t` at which the oper list sets queue `q`'s bit to 0, where there is one (R346). -/
def State.operClose (s : State) (p q t : Nat) : Option Nat :=
  let c := s.operCycle p
  let st := s.operStarts p
  if c = 0 then none
  else
    let k := ((t : Int) - (s.operBase p : Int)) / (c : Int)
    ((([k, k + 1].flatMap fun k => st.map fun e =>
        ((s.operBase p : Int) + k * (c : Int) + (e.2.1 : Int), e.2.2)).filter
          fun e => decide ((t : Int) < e.1) && !e.2.testBit q).map fun e => e.1.toNat).head?

/-- The earlier of two instants, either of which may be absent. -/
def earlier : Option Nat → Option Nat → Option Nat
  | some a, some b => some (min a b)
  | some a, none => some a
  | none, b => b

/-- The next close of queue `q`'s gate (R346), none where no close lies ahead. -/
def State.nextClose (s : State) (p q : Nat) : Option Nat :=
  let e := s.eport p
  let list := if s.gated p ∧ e.restart.isNone then s.operClose p q s.gateNs else none
  let change := match e.change with
    | some t => if s.on (R.TM.CTRL.GATE_EN p) ∧ ¬ (entGates (s.adminEntry p 0)).testBit q then some t else none
    | none => none
  let restart := if s.on (R.TM.CTRL.GATE_EN p) then e.restart else none
  earlier (earlier list change) restart

/-- The lengths of the runs of continuously open time of queue `q` over two cycles, and the longest of them (R347). -/
def State.longestWindow (s : State) (p q : Nat) : Option Nat :=
  let c := s.operCycle p
  let st := s.operStarts p
  let spans := (st.zip ((st.drop 1).map (·.2.1) ++ [c])).map fun e => (e.1.2.2.testBit q, e.2 - e.1.2.1)
  if spans.all (·.1) then none
  else
    some (((spans ++ spans).foldl (fun (a : Nat × Nat) e =>
      let run := if e.1 then a.1 + e.2 else 0
      (run, max a.2 run)) (0, 0)).2)

/-! ## Steps of an instance -/

/-- A stream-gate entry (R351). -/
def State.sgEntry (s : State) (l e : Nat) : Nat := s.tabs.rows.get 0 (0x31 * 2 ^ 32 + l * 64 + e)
/-- The number of entries of a stream-gate list in use, up to its END; 0 where it is not in use (R351). -/
def State.sgCount (s : State) (l : Nat) : Nat :=
  match (List.range 64).find? fun e => (s.sgEntry l e).testBit 62 with
  | some e => if (s.sgEntry l 0).testBit 63 then e + 1 else 0
  | none => 0
def sgNs (w : Nat) : Nat := bitsOf w 24 32 * 8
/-- The cycle of a stream-gate list (R351). -/
def State.sgCycle (s : State) (l : Nat) : Nat :=
  (List.range (s.sgCount l)).foldl (fun a e => a + sgNs (s.sgEntry l e)) 0

/-- The restart of the gate lists after a step of the gate-time instance (R181). -/
def State.holdGates (s : State) : State :=
  let t := s.gateNs + 2000
  let s1 := s.each (List.range 56) fun s p =>
    let e := s.eport p
    if !e.oper then s
    else
      let r := boundary (s.operBase p) (s.operCycle p) t
      let ch := match e.change with
        | some x => if x ≤ r then some r else some x
        | none => none
      (s.setEport p { e with restart := some r, change := ch }).setB (R.TM.GATE_STATUS.RESTARTING p) true
  { s1 with pipe := { s1.pipe with
      sg := (List.range 256).foldl (fun g l =>
        if s1.sgCount l = 0 then g
        else g.upd SgSt.init l fun x => { x with restart := some (boundary 0 (s1.sgCycle l) t) }) s1.pipe.sg } }

/-- The time service runs a PTP instance on clock instance `i`. -/
def State.ptpOn (s : State) (i : Nat) : Bool :=
  s.svcLive 2 && (match s.param 2 (0x10 + i) with
    | some b => decide (1 ≤ beAt b 0 1 ∧ beAt b 0 1 ≤ 3)
    | none => false)

/-- SYNC of an instance, in its register and in the status block. -/
def State.setSync (s : State) (i : Nat) (b : Bool) : State :=
  (s.setB (R.TIME.INST_i.STATUS.SYNC i) b).setSvcStat 2 (0x21 + 0x20 * i) 1 (b2n b)
/-- The counts of intervals within and beyond the lock limits. -/
def State.setServo (s : State) (i good bad : Nat) : State :=
  { s with serv := { s.serv with good := s.serv.good.put 0 i good, bad := s.serv.bad.put 0 i bad } }

/-- A step of instance `i` to a new time (R170, R178, R181).  A step of an instance that the time
service runs clears its SYNC (R500). -/
def State.stepClk (s : State) (i : Nat) (c : Inst) : State :=
  let s0 := if s.ptpOn i then (s.setSync i false).setServo i 0 0 else s
  let s1 := ((s0.setClk i c).setB (R.TIME.INST_i.STATUS.STEP_SEEN i) true).bump (R.TIME.INST_i.STEPS.COUNT i)
  let s2 := if i = s.gateInst then ((s1.holdGates).detect 260).raise 29 else s1
  let s3 := if i = s.fld R.TIME.PPS_OUT.INST then
      { s2 with time := { s2.time with ppsAfter := c.total + 1000000, ppsLast := 0 } } else s2
  s3.raise (20 + i)

/-- A write of RATE (R169). -/
def State.writeRate (s : State) (i v : Nat) : State :=
  let ext (n : Nat) : Bool := decide (n = 2 ^ 31 ∨ n = 2 ^ 31 - 1)
  let old := s.fld (R.TIME.INST_i.RATE.RATE i)
  let s1 := (s.set (R.TIME.INST_i.RATE.RATE i) v).setB (R.TIME.INST_i.STATUS.RATE_LIMIT i) (ext (v % 2 ^ 32))
  if ext (v % 2 ^ 32) && decide (old ≠ v % 2 ^ 32) then s1.raise (24 + i) else s1

/-- Latches an instance into four registers. -/
def State.latch (s : State) (c : Inst) (lo hi ns fr : Fld) : State :=
  (((s.set lo c.sec).set hi (c.sec / 2 ^ 32)).set ns c.ns).set fr c.frac

/-- CMD of an instance (R170): 1 sets it, 2 adds OFFSET; other codes have no effect. -/
def State.instCmd (s : State) (i v : Nat) : State :=
  if v % 4 = 1 then
    let ns := s.fld (R.TIME.INST_i.SET_NS.NS i)
    if ns < 1000000000 then
      s.stepClk i { sec := s.fld (R.TIME.INST_i.SET_SEC_LO.SEC i) + 2 ^ 32 * s.fld (R.TIME.INST_i.SET_SEC_HI.SEC i),
                    ns := ns, frac := 0, rest := 0 }
    else s
  else if v % 4 = 2 then
    s.stepClk i ((s.clk i).move (signedOf 32 (s.fld (R.TIME.INST_i.OFFSET.NS i)) * 65536) (s.clk i).rest)
  else s

/-- `CAPTURE.GO` (R172). -/
def State.captureGo (s : State) : State :=
  s.each (List.range 4) fun s i => s.latch (s.clk i) (R.TIME.SNAP_i.SEC_LO.SEC i) (R.TIME.SNAP_i.SEC_HI.SEC i)
    (R.TIME.SNAP_i.NS.NS i) (R.TIME.SNAP_i.FRAC.FRAC i)

/-- `ETS_POP` (R175). -/
def State.etsPop (s : State) : State := { s with time := { s.time with ets := s.time.ets.drop 1 } }.showEts

/-- The whole seconds of the PPS_OUT instance, shifted (R178): the latest edge instant at or before now. -/
def State.ppsEdge (s : State) : Int :=
  let off := signedOf 32 (s.eff R.TIME.PPS_OUT_OFFSET.NS)
  let t : Int := (s.clk (s.fld R.TIME.PPS_OUT.INST)).total
  (t - off) / 1000000000 * 1000000000 + off

end Sys2Proof.Machine
end

