-- ==== Sys2Proof/Machine/DramOps.lean ====
section
/-! DEFINITION. DRAM as its users see it (R519-R535): address mapping, reads with errors, the real-time ports and panic, and what
panic does to the flow slices (R281-R283). -/
namespace Sys2Proof.Machine

/-! ## Slices under panic -/

def State.slc (s : State) (i : Nat) : Slice := s.flow.slices.get Slice.init i
def State.setSlice (s : State) (i : Nat) (x : Slice) : State :=
  { s with flow := { s.flow with slices := s.flow.slices.put Slice.init i x } }
def State.modSlice (s : State) (i : Nat) (f : Slice → Slice) : State := s.setSlice i (f (s.slc i))

/-- Sets a bit of `STATUS` [11:0] and, where it becomes 1, of `STICKY`. -/
def State.flowStatus (s : State) (f : Fld) (i off : Nat) (b : Bool) : State :=
  let s1 := s.setBit f i b
  if b then s1.setBit R.FLOW.STICKY.SEEN (off + i) true else s1

/-- N of a slice. -/
def State.nOf (s : State) (i : Nat) : Nat := 2 ^ s.fld (R.FLOW.SAMPLE_STATE.LOG2N i)
def log2n (n : Nat) : Nat := Nat.log2 n
/-- N changes: the counter C restarts (R281). -/
def State.setN (s : State) (i l : Nat) : State :=
  (s.set (R.FLOW.SAMPLE_STATE.LOG2N i) l).modSlice i fun x => { x with c := 0, nAt := s.mono }
/-- The slice's DRAM port raises panic (R281). -/
def State.panicRise (s : State) (i : Nat) : State :=
  let s1 := (s.flowStatus R.FLOW.STATUS.PANIC i 8 true).modSlice i fun x => { x with panicAt := some s.mono }
  if s.nOf i = 1 then (s1.setN i 1).detect 209
  -- N stays 2, and so does C; the STEP of the new episode runs from here
  else if s.nOf i = 2 then s1.modSlice i fun x => { x with nAt := s.mono }
  else s1.setN i 1
/-- Panic clears: deferral ends at once (R283). -/
def State.panicFall (s : State) (i : Nat) : State :=
  ((s.setBit R.FLOW.STATUS.PANIC i false).setBit R.FLOW.SAMPLE_STATE.DEFER i false).modSlice i fun x =>
    { x with panicAt := none, calmAt := s.mono }
/-- Inserts are deferred on the slice. -/
def State.deferring (s : State) (i : Nat) : Bool := s.bit R.FLOW.SAMPLE_STATE.DEFER i

/-! ## Addresses and reads -/

/-- The first address of DRAM and its end (R586). -/
def dramBase : Nat := 0x1000000000
def State.dramEnd (s : State) : Nat :=
  match s.variant with
  | .v32 => 0x1700000000
  | .v16 => 0x1380000000

/-- The width N of the row set (R526). -/
def State.rowBits (s : State) : Nat :=
  match s.variant with
  | .v32 => 24
  | .v16 => 23

/-- Where a DRAM address lies (R526): channel, bank, row, and the byte offset within the row. -/
def State.dramPlace (s : State) (a : Nat) : Nat × Nat × Nat × Nat :=
  let o := a - dramBase
  let q := o / 64 % 28
  let p := o / 64 / 28
  let n := s.rowBits
  let off := 64 * q + o % 64
  match s.fld R.DRAM.MAP.ORDER with
  | 0 => (bitsOf p 0 5, bitsOf p 5 4, bitsOf p 9 (n - 9), off)
  | 1 => (bitsOf p 4 5, bitsOf p 0 4, bitsOf p 9 (n - 9), off)
  | 2 => (bitsOf p (n - 5) 5, bitsOf p (n - 9) 4, bitsOf p 0 (n - 9), off)
  | _ => (bitsOf p 0 5 ^^^ bitsOf p 16 5, bitsOf p 5 4 ^^^ bitsOf p 9 4, bitsOf p 9 (n - 9), off)

/-- The controller of a DRAM address: its package (R519). -/
def State.ctrlOf (s : State) (a : Nat) : Nat := (s.dramPlace a).1 / 4

/-- A corrected read (R521). -/
def State.readCorrected (s : State) (a : Nat) : State := s.bump (R.DRAM.CE_COUNT.COUNT (s.ctrlOf a))

/-- A read that is uncorrectable again after its retry (R521, R542). -/
def State.readFailed (s : State) (a : Nat) : State :=
  let c := s.ctrlOf a
  let s1 := ((s.bump (R.DRAM.RD_RETRIES.COUNT c)).bump (R.DRAM.UE_COUNT.COUNT c)).setB (R.DRAM.STICKY.UE_SEEN c) true
  let s2 := (s1.set (R.DRAM.UE_ADDR_LO.ADDR c) (a % 2 ^ 32)).set (R.DRAM.UE_ADDR_HI.ADDR c) (a / 2 ^ 32)
  (s2.raise (184 + c)).detect (224 + c)

/-- The blocks that a span touches. -/
def blocksOf (a n : Nat) : List Nat := if n = 0 then [] else (List.range ((a + n - 1) / 64 - a / 64 + 1)).map (a / 64 + ·)

/-- A block is uncorrectable. -/
def State.badSpan (s : State) (a n : Nat) : Option Nat := (blocksOf a n).find? fun b => decide (b ∈ s.dram.hard)

/-- A read of `n` bytes at `a`: the reports of R521, and whether the data is good. -/
def State.memRead (s : State) (a n : Nat) : State × Bool :=
  match s.badSpan a n with
  | some b => (if dramBase ≤ a then s.readFailed (64 * b) else s, false)
  | none =>
    (s.each ((blocksOf a n).filter fun b => decide (b ∈ s.dram.soft)) fun s b =>
      if dramBase ≤ a then s.readCorrected (64 * b) else s, true)

/-- The blocks that a span covers in part: a write of it reads and modifies them (R522). -/
def partBlocks (a n : Nat) : List Nat := (blocksOf a n).filter fun b => !decide (a ≤ 64 * b ∧ 64 * b + 64 ≤ a + n)

/-- The reads within writes of less than a block that find a correctable error (R521, R522). -/
def State.partCorrected (s : State) (a n : Nat) : State :=
  s.each ((partBlocks a n).filter fun b => decide (b ∈ s.dram.soft ∧ dramBase ≤ 64 * b)) fun s b => s.readCorrected (64 * b)

/-- A write of a whole block, or of part of a sound one, leaves it sound (R521, R522). -/
def State.wroteBlocks (s : State) (a n : Nat) : State :=
  let bs := blocksOf a n
  { s with dram := { s.dram with
    soft := s.dram.soft.filter (fun b => decide (b ∉ bs)),
    hard := s.dram.hard.filter (fun b => !(decide (b ∈ bs) && decide (a ≤ 64 * b ∧ 64 * b + 64 ≤ a + n))) } }

/-- The hardware writes bytes: a block written in part is read first, with the reports of R521, and where that read is uncorrectable it
stays so (R522). -/
def State.memPut (s : State) (a : Nat) (l : List Byte) : State :=
  let s1 := s.each ((partBlocks a l.length).filter fun b => decide (b ∈ s.dram.hard ∧ dramBase ≤ 64 * b)) fun s b => s.readFailed (64 * b)
  ((s1.partCorrected a l.length).wroteBlocks a l.length).putBytes a l

/-- The area from `lo` up to `hi` is cleared, or loses its contents; its blocks are sound then. -/
def State.clearArea (s : State) (lo hi : Nat) : State :=
  let out := fun b : Nat => !decide (lo ≤ 64 * b ∧ 64 * b < hi)
  { s with mem := s.mem.drop (fun a => decide (lo ≤ a ∧ a < hi)),
           dram := { s.dram with soft := s.dram.soft.filter out, hard := s.dram.hard.filter out } }

/-- A block's present errors become correctable or uncorrectable ones. -/
def State.softBlock (s : State) (b : Nat) : State :=
  { s with dram := { s.dram with soft := if b ∈ s.dram.soft then s.dram.soft else b :: s.dram.soft } }
def State.hardBlock (s : State) (b : Nat) : State :=
  { s with dram := { s.dram with hard := if b ∈ s.dram.hard then s.dram.hard else b :: s.dram.hard } }

/-! ## Real-time ports -/

/-- A real-time port is in panic (R533). -/
def State.inPanic (s : State) (r : Nat) : Bool := s.bit R.DRAM.PANIC_STATUS.PORTS r
def State.anyPanic (s : State) : Bool := decide (s.fld R.DRAM.PANIC_STATUS.PORTS ≠ 0)

/-- Shows a port's panic, in `FLOW.STATUS` too for the flow slices (R534). -/
def State.showPanic (s : State) (r : Nat) (b : Bool) : State :=
  let s1 := s.setBit R.DRAM.PANIC_STATUS.PORTS r b
  if r < 4 then (if b then s1.panicRise r else s1.panicFall r) else s1

/-- A real-time port issues `n` requests, and enters panic when its queue reaches HI (R532-R534). -/
def State.rtIssue (s : State) (r n : Nat) : State :=
  let q := min 256 (s.dram.queue.get 0 r + n)
  let s1 := { s with dram := { s.dram with queue := s.dram.queue.put 0 r q } }
  if s1.eff R.DRAM.PANIC.HI ≤ q ∧ !s1.inPanic r then
    ((((s1.showPanic r true).setBit R.DRAM.PANIC_STICKY.SEEN r true).bump (R.DRAM.PANIC_EPISODES_r.COUNT r)).raise 192).detect 232
  else s1

/-- LO, which counts as its reset value when it is not below HI (R544, R13). -/
def State.panicLo (s : State) : Nat :=
  let lo := s.fld R.DRAM.PANIC.LO
  if lo < s.eff R.DRAM.PANIC.HI then lo else s.dealt.get 64 R.DRAM.PANIC.LO.key

/-- `n` requests of a real-time port complete; it leaves panic when its queue falls to LO (R533, R534). -/
def State.rtDone (s : State) (r n : Nat) : State :=
  let q := s.dram.queue.get 0 r - n
  let s1 := { s with dram := { s.dram with queue := s.dram.queue.put 0 r q } }
  if q ≤ s1.panicLo ∧ s1.inPanic r then
    let s2 := s1.showPanic r false
    if s2.anyPanic then s2 else s2.raise 193
  else s1

/-- The lowest and the highest junction of each band, in tenths of a degree (R60, R65). -/
def bandLo (b : Nat) : Int := [-400, -100, 200, 500, 850].getD b 0
def bandHi (b : Nat) : Int := [-100, 200, 500, 850, 1250].getD b 0

/-- The band that a junction temperature uses at the Deal: a border uses the lower band (R60). -/
def bandOf (t : Int) : Nat := if t ≤ -100 then 0 else if t ≤ 200 then 1 else if t ≤ 500 then 2 else if t ≤ 850 then 3 else 4

end Sys2Proof.Machine
end

