-- ==== Sys2Proof/Machine/Alu.lean ====
section
/-! DEFINITION. What the Elvon arithmetic instructions compute (R456, R457, R460, R462), and the CRCs of the manual. -/
namespace Sys2Proof.Machine

/-- The bytes of a word in reverse order (BSWAP, R457). -/
def bswap (a : Word64) : Word64 :=
  (List.range 8).foldl (fun (acc : Word64) i => (acc <<< 8) ||| ((a >>> (8 * i)) &&& 0xFF)) 0

/-- The ALU functions (R457). -/
def alu (f : AluFn) (a b : Word64) : Word64 :=
  match f with
  | .add => a + b
  | .sub => a - b
  | .and => a &&& b
  | .or => a ||| b
  | .xor => a ^^^ b
  | .sll => a <<< (b.toNat % 64)
  | .srl => a >>> (b.toNat % 64)
  | .sra => a.sshiftRight (b.toNat % 64)
  | .slt => if a.slt b then 1 else 0
  | .sltu => if a.ult b then 1 else 0
  | .mul => a * b
  | .mulhu => BitVec.ofNat 64 (a.toNat * b.toNat / 2 ^ 64)
  | .min => if a.slt b then a else b
  | .minu => if a.ult b then a else b
  | .bswap => bswap a
  | .popc => BitVec.ofNat 64 (onesIn 64 a.toNat)

/-- The operations with a plain immediate (R456). -/
def immOp (f : ImmFn) (a : Word64) (i : BitVec 16) : Word64 :=
  match f with
  | .addi => a + i.signExtend 64
  | .andi => a &&& i.zeroExtend 64
  | .ori => a ||| i.zeroExtend 64
  | .xori => a ^^^ i.zeroExtend 64
  | .lhi => (a &&& 0xFFFFFFFF) ||| (i.zeroExtend 64 <<< 32)
  | .slti => if a.slt (i.signExtend 64) then 1 else 0

/-- SHIFTI (R456). -/
def shiftOp (f : ShFn) (a : Word64) (n : BitVec 6) : Word64 :=
  match f with
  | .sll => a <<< n.toNat
  | .srl => a >>> n.toNat
  | .sra => a.sshiftRight n.toNat

/-- The branch comparisons (R456). -/
def brTaken (f : BrFn) (a b : Word64) : Bool :=
  match f with
  | .eq => a == b
  | .ne => a != b
  | .lt => a.slt b
  | .ge => !a.slt b
  | .ltu => a.ult b
  | .geu => !a.ult b

/-- What an atomic leaves in memory (R460), from the old value, rb, and the value that rd held on entry. -/
def atomicOp (f : AtFn) (old b d : Nat) : Nat :=
  match f with
  | .add => old + b
  | .and => old &&& b
  | .or => old ||| b
  | .xor => old ^^^ b
  | .swap => b
  | .cas => if old = d then b else old

/-- One bit of a reflected 32-bit CRC with polynomial `poly` (given reflected). -/
def crcBit (poly c : Nat) : Nat := if c % 2 = 1 then c / 2 ^^^ poly else c / 2

/-- One byte of a reflected 32-bit CRC. -/
def crcByte (poly c : Nat) (b : Byte) : Nat := (List.range 8).foldl (fun c _ => crcBit poly c) (c ^^^ b.toNat)

/-- The register of a reflected 32-bit CRC after bytes. -/
def crcBytes (poly c : Nat) (l : List Byte) : Nat := l.foldl (crcByte poly) c

/-- The Castagnoli and the CRC-32 polynomials, reflected (R462). -/
def polyC : Nat := 0x82F63B78
def poly32 : Nat := 0xEDB88320

/-- CRC-32C of the manual's convention: initial value and final complement of ones. -/
def crc32c (l : List Byte) : Nat := crcBytes polyC 0xFFFFFFFF l ^^^ 0xFFFFFFFF
/-- CRC-32 with initial value and final complement of ones (R241). -/
def crc32 (l : List Byte) : Nat := crcBytes poly32 0xFFFFFFFF l ^^^ 0xFFFFFFFF

/-- The CRC-8 of a debug packet: polynomial 0x07, not reflected, from 0 (R568). -/
def crc8 (l : List Byte) : Nat :=
  l.foldl (fun c b => (List.range 8).foldl (fun c _ => if 128 ≤ c then (2 * c) % 256 ^^^ 0x07 else 2 * c) (c ^^^ b.toNat)) 0

end Sys2Proof.Machine
end

