-- ==== Sys2Proof/Machine/Parse.lean ====
section
/-! DEFINITION. Table rows, and the parser: the parse graph, length and checksum checks, outcomes and payload patterns
(R185-R210). -/
namespace Sys2Proof.Machine

/-! ## Table rows (R85) -/

/-- Row `i` of table `t`, as one big-endian number; the records of the parse graph are the tables 0x101 to 0x104 (R86). -/
def State.row (s : State) (t i : Nat) : Nat := s.tabs.rows.get 0 (t * 2 ^ 32 + i)
def State.setRow (s : State) (t i v : Nat) : State :=
  { s with tabs := { s.tabs with rows := s.tabs.rows.put 0 (t * 2 ^ 32 + i) v } }
/-- Row `i` of table `t` as a head sees it that entered its pipeline after `n` commits (R230, R397). -/
def State.rowSeen (s : State) (n t i : Nat) : Nat :=
  match s.tabs.wrote.find? fun e => decide (n < e.1 ∧ e.2.1 = t ∧ e.2.2.1 = i) with
  | some e => e.2.2.2
  | none => s.row t i
/-- The listed rows of a table, by rising index. -/
def State.rowsOf (s : State) (t : Nat) : List (Nat × Nat) :=
  (s.tabs.rows.filter fun e => decide (e.1 / 2 ^ 32 = t)).map fun e => (e.1 % 2 ^ 32, e.2)

/-! ## What the parser reads -/

/-- The head as the parser sees it: its available bytes (R186), and the frame length where it is known. -/
structure PHead where
  bytes : List Byte
  len : Option Nat
  deriving DecidableEq, Repr

/-- The byte at an offset; 0 where it is not available. -/
def PHead.at (h : PHead) (i : Nat) : Nat := ((h.bytes.getD i 0).toNat)
/-- The outcome of needing the bytes from `a` up to but not including `b` (R190): 0 where all can be read. -/
def PHead.need (h : PHead) (a b : Nat) : Nat :=
  if b ≤ a then 0
  else
    match h.len with
    | some l => if l - 4 < b then 3 else if 384 < b then 2 else 0
    | none => if 384 < b then 2 else 0
/-- The bytes below `b` are available (R186). -/
def PHead.avail (h : PHead) (b : Nat) : Bool := decide (b ≤ h.bytes.length)
/-- `n` bytes from offset `o` as a big-endian number. -/
def PHead.be (h : PHead) (o n : Nat) : Nat := beAt h.bytes o n
/-- The field of `w` bits from bit `bit` of byte `o` (R190, R191). -/
def PHead.bits (h : PHead) (o bit w : Nat) : Nat :=
  let n := (bit + w + 7) / 8
  h.be o n / 2 ^ (8 * n - bit - w) % 2 ^ w
/-- The outcome of needing that field. -/
def PHead.needBits (h : PHead) (o bit w : Nat) : Nat := h.need (o + bit / 8) (o + (bit + w + 7) / 8)

/-! ## Checksums -/

/-- The sum of the 16-bit big-endian words of a byte string, padded with a zero byte. -/
def sum16 : List Byte → Nat
  | a :: b :: t => a.toNat * 256 + b.toNat + sum16 t
  | [a] => a.toNat * 256
  | [] => 0
/-- Folds a sum into 16 bits, ones'-complement. -/
def fold16 (n : Nat) : Nat :=
  let m := n % 65536 + n / 65536
  let k := m % 65536 + m / 65536
  k % 65536 + k / 65536

/-- The pseudo-header sum of a segment of `n` bytes under the IP header `ip` (R199). -/
def PHead.pseudo (h : PHead) (ip : Hdr) (proto n : Nat) : Nat :=
  if ip.chk = 1 then sum16 (slice h.bytes (ip.start + 12) 8) + proto + n
  else sum16 (slice h.bytes (ip.start + 8) 32) + proto + n % 65536 + n / 65536

/-! ## Ends (R197) -/

/-- The nearest header below whose LENCHK is one of `cs`; `below` has the nearest last. -/
def nearest (below : List Hdr) (cs : List Nat) : Option Hdr := below.reverse.find? fun h => decide (h.chk ∈ cs)
/-- The IP end, none where it is the frame end. -/
def PHead.ipEnd (h : PHead) (below : List Hdr) : Option Nat :=
  (nearest below [1, 2]).map fun ip =>
    if ip.chk = 1 then ip.start + h.be (ip.start + 2) 2 else ip.start + 40 + h.be (ip.start + 4) 2
/-- The UDP end, none where it is the frame end. -/
def PHead.udpEnd (h : PHead) (below : List Hdr) : Option Nat :=
  match nearest below [3] with
  | some u => some (u.start + h.be (u.start + 4) 2)
  | none => h.ipEnd below

/-- A comparison `v ≤ end`: whether it holds now, and the deferred value where the frame end is not known (R198). -/
def PHead.within (h : PHead) (v : Nat) (stop : Option Nat) : Bool × List Nat :=
  match stop, h.len with
  | some e, _ => (decide (v ≤ e), [])
  | none, some l => (decide (v ≤ l - 4), [])
  | none, none => (true, [v])

/-- The length check of a header from `c` to `e` (R197): the outcome, 0 where it passes, and deferred values. -/
def PHead.lenCheck (h : PHead) (code c e : Nat) (below : List Hdr) : Nat × List Nat :=
  let fields := match code with
    | 1 => h.need c (c + 4)
    | 2 => h.need c (c + 6)
    | 3 => h.need c (c + 6)
    | 4 => h.need c (c + 24)
    | _ => 0
  if fields ≠ 0 then (fields, [])
  else
    match code with
    | 1 =>
      let ihl := h.at c % 16
      let total := h.be (c + 2) 2
      let w := h.within (c + total) none
      if 5 ≤ ihl ∧ ihl * 4 ≤ total ∧ w.1 then (0, w.2) else (3, [])
    | 2 =>
      let w := h.within (c + 40 + h.be (c + 4) 2) none
      if h.be (c + 4) 2 ≠ 0 ∧ w.1 then (0, w.2) else (3, [])
    | 3 =>
      let w := h.within (c + h.be (c + 4) 2) (h.ipEnd below)
      if 8 ≤ h.be (c + 4) 2 ∧ w.1 then (0, w.2) else (3, [])
    | 4 =>
      let w := h.within (e + h.be (c + 20) 4) (h.udpEnd below)
      if w.1 then (0, w.2) else (3, [])
    | _ => (0, [])

/-- The checksum check of a header from `c` to `e` (R199, R200): the outcome, 0 where it passes, and whether it is skipped.
The header FCS of TRDP is the CRC-32 of the header bytes before its last four, stored least significant byte first. -/
def PHead.sumCheck (h : PHead) (code c e : Nat) (below : List Hdr) : Nat × Bool :=
  match code with
  | 0 => (0, false)
  | 1 =>
    let ihl := h.at c % 16
    let n := h.need c (c + 1)
    if n ≠ 0 then (n, false)
    else if ihl < 5 then (5, false)
    else
      let n := h.need c (c + ihl * 4)
      if n ≠ 0 then (n, false)
      else if fold16 (sum16 (slice h.bytes c (ihl * 4))) = 0xFFFF then (0, false) else (5, false)
  | 6 =>
    if crc32 (slice h.bytes c (e - c - 4)) = ofLe (slice h.bytes (e - 4) 4) then (0, false) else (5, false)
  | k =>
    match nearest below [1, 2] with
    | none => (0, true)
    | some ip =>
      let stop := (h.ipEnd below).getD 0
      let udp := k = 2 ∨ k = 3 ∨ k = 7
      if !h.avail stop then (0, true)
      else if udp ∧ c + 8 ≤ stop ∧ h.be (c + 6) 2 = 0 then (if k = 3 then 5 else 0, false)
      else
        let n := stop - c
        if fold16 (sum16 (slice h.bytes c n) + h.pseudo ip (if udp then 17 else 6) n) = 0xFFFF then (0, false) else (5, false)

/-! ## The graph (R188, R193, R194) -/

/-- One visit's choice of the next node (R193): the outcome 4, or an outcome of reading, or 0 with the node. -/
def State.nextNode (s : State) (h : PHead) (w c : Nat) : Nat × Nat :=
  let dflt : Nat × Nat := if bitsOf w 112 1 = 1 then (0, bitsOf w 104 8) else (4, 0)
  let width := bitsOf w 67 6
  if width = 0 then dflt
  else
    let o := c + bitsOf w 76 9
    let b := bitsOf w 73 3
    let n := h.needBits o b width
    if n ≠ 0 then (n, 0)
    else
      let f := h.bits o b width
      match (List.range (bitsOf w 85 7)).find? fun k =>
          let a := s.row 0x102 (bitsOf w 92 12 + k)
          decide (bitsOf a 127 1 = 1 ∧ f &&& bitsOf a 63 32 = bitsOf a 95 32 &&& bitsOf a 63 32) with
      | some k => (0, bitsOf (s.row 0x102 (bitsOf w 92 12 + k)) 55 8)
      | none => dflt

/-- Where a parse stands: the headers stamped, the deferred values, and whether a checksum check was skipped. -/
structure PSt where
  stack : List Hdr
  deferred : List Nat
  cskip : Bool
  deriving DecidableEq, Repr

/-- The visits from a node (R188); `fuel` is the visits left of 32. -/
def State.visit (s : State) (h : PHead) : Nat → Nat → Nat → PSt → Nat × PSt
  | 0, _, _, st => (1, st)
  | fuel + 1, node, c, st =>
    let w := s.row 0x101 node
    if bitsOf w 127 1 = 0 then (4, st)
    else if bitsOf w 125 1 = 1 ∧ 16 ≤ st.stack.length then (1, st)
    else
      let lo := c + bitsOf w 48 9
      let lb := bitsOf w 45 3
      let lw := bitsOf w 40 5
      let needLen := if bitsOf w 66 1 = 1 then h.needBits lo lb lw else 0
      if needLen ≠ 0 then (needLen, st)
      else
        let adv := (if bitsOf w 66 1 = 1 then h.bits lo lb lw * 2 ^ bitsOf w 38 2 else 0) + bitsOf w 57 9
        let e := c + adv
        let span := h.need c e
        if span ≠ 0 then (span, st)
        else
          let hd : Hdr := { typ := bitsOf w 119 6, start := c, stop := e, flags := bitsOf w 34 4, chk := bitsOf w 113 3 }
          let st1 := if bitsOf w 125 1 = 1 then { st with stack := st.stack ++ [hd] } else st
          let lc := h.lenCheck (bitsOf w 113 3) c e st.stack
          if lc.1 ≠ 0 then (lc.1, st1)
          else
            let st2 := { st1 with deferred := st1.deferred ++ lc.2 }
            let cc := h.sumCheck (bitsOf w 116 3) c e st.stack
            if cc.1 ≠ 0 then (cc.1, st2)
            else
              let st3 := { st2 with cskip := st2.cskip || cc.2 }
              if bitsOf w 126 1 = 1 then (0, st3)
              else
                let n := s.nextNode h w c
                if n.1 ≠ 0 then (n.1, st3) else s.visit h fuel n.2 e st3

/-! ## Patterns (R207-R209) -/

/-- A slot matches at position `x` (R208). -/
def PHead.matchAt (h : PHead) (val mask : List Byte) (n : Nat) (x : Int) : Bool :=
  decide (0 ≤ x) && decide (x + n ≤ 384) && h.avail (x.toNat + n) &&
    (List.range n).all fun j =>
      decide (h.bytes.getD (x.toNat + j) 0 &&& mask.getD j 0 = val.getD j 0 &&& mask.getD j 0)

/-- The position at which slot `k` matches, none where it does not. -/
def State.slotMatch (s : State) (h : PHead) (stack : List Hdr) (eoh k : Nat) : Option Int :=
  let r := beBytes 72 (s.row 0x103 k)
  let w := beAt r 0 8
  let val := slice r 8 32
  let mask := slice r 40 32
  let n := bitsOf w 39 6
  let off := signedOf 10 (bitsOf w 45 10)
  if bitsOf w 63 1 = 0 then none
  else
    match bitsOf w 61 2 with
    | 2 =>
      let x0 := (eoh : Int) + off
      let span := bitsOf w 30 9
      ((List.range (if span = 0 then 385 else span + 1)).map (fun (i : Nat) => x0 + (i : Int))).find? fun x => h.matchAt val mask n x
    | m =>
      let hs := stack.filter fun d => decide (d.typ = bitsOf w 55 6)
      match if m = 0 then hs.head? else hs.getLast? with
      | some d => if h.matchAt val mask n ((d.stop : Int) + off) then some ((d.stop : Int) + off) else none
      | none => none

/-- The parser's result from a start node (R189, R201, R209); `pat`: the pattern matcher is on. -/
def State.parse (s : State) (h : PHead) (start : Nat) (pat : Bool) : Parsed :=
  let r := s.visit h 32 start 0 { stack := [], deferred := [], cskip := false }
  let eoh := match r.2.stack.getLast? with
    | some d => d.stop
    | none => 0
  let ms := if pat then (List.range 64).map fun k => (k, s.slotMatch h r.2.stack eoh k) else []
  let hit := ms.filter fun e => e.2.isSome
  { outcome := r.1, stack := r.2.stack, eoh := eoh, cskip := r.2.cskip,
    hits := hit.foldl (fun a e => a + 2 ^ e.1) 0,
    first := match hit with
      | e :: _ => e.1
      | [] => 64,
    firstPos := match hit with
      | (_, some x) :: _ => x.toNat
      | _ => 0,
    deferred := if r.1 = 0 then r.2.deferred else [] }

end Sys2Proof.Machine
end

