-- ==== Sys2Proof/Machine/Sched.lean ====
section
/-! DEFINITION. The queues of the egress ports: their parameters, fills, lengths, shapers, and how copies enter and leave them
(R311, R314, R334-R341). -/
namespace Sys2Proof.Machine

/-! ## Frames and queues -/

/-- Frame number `i`. -/
def State.frame (s : State) (i : Nat) : Option Frm := s.buf.frames.get none i
def State.setFrame (s : State) (i : Nat) (f : Option Frm) : State :=
  { s with buf := { s.buf with frames := s.buf.frames.put none i f } }
def State.modFrame (s : State) (i : Nat) (g : Frm → Frm) : State := s.setFrame i ((s.frame i).map g)

/-- The queue of egress port `p`, queue `q`, head first. -/
def State.queue (s : State) (p q : Nat) : List Copy := s.tm.queues.get [] (p * 16 + q)
def State.setQueue (s : State) (p q : Nat) (l : List Copy) : State :=
  { s with tm := { s.tm with queues := s.tm.queues.put [] (p * 16 + q) l } }

/-- Cells that a copy references. -/
def State.copyCells (s : State) (c : Copy) : Nat :=
  match c.frame.bind s.frame with
  | some f => f.cells.length
  | none => 0

/-- F_q (R311): the cells of the copies queued to (p, q) or in its ready slots. -/
def State.qFill (s : State) (p q : Nat) : Nat :=
  (s.queue p q ++ (s.eport p).ready.filter fun c => decide (c.q = q)).foldl (fun a c => a + s.copyCells c) 0

/-! ## Queue parameters (R314, R335) -/

/-- Word `w` (0-3) of a queue-parameter row. -/
def State.qWord (s : State) (p q w : Nat) : Nat := bitsOf (s.row 0x50 (p * 16 + q)) (64 * (3 - w)) 64
/-- A record wrote the row: bit 256 of what is kept of it. -/
def State.qWritten (s : State) (p q : Nat) : Bool := bitOf (s.row 0x50 (p * 16 + q)) 256
def State.qLimit (s : State) (p q : Nat) : Nat := if s.qWritten p q then bitsOf (s.qWord p q 0) 46 18 else 2048
def State.qMin (s : State) (p q : Nat) : Nat := if s.qWritten p q then bitsOf (s.qWord p q 0) 28 18 else 0
/-- The residence limit in microseconds; port 57 takes 1,000 where no record gives it (R314). -/
def State.qAge (s : State) (p q : Nat) : Nat :=
  if s.qWritten p q then bitsOf (s.qWord p q 0) 0 22 else if p = 57 then 1000 else 0
def State.cbsEn (s : State) (p q : Nat) : Bool := decide (p < 56) && bitOf (s.qWord p q 1) 63
def State.idleSlope (s : State) (p q : Nat) : Nat := bitsOf (s.qWord p q 1) 32 31
def State.hiCredit (s : State) (p q : Nat) : Nat := bitsOf (s.qWord p q 1) 14 18
def State.tbEn (s : State) (p q : Nat) : Bool := decide (p < 56) && bitOf (s.qWord p q 2) 63
def State.tbRate (s : State) (p q : Nat) : Nat := bitsOf (s.qWord p q 2) 32 31
def State.tbBurst (s : State) (p q : Nat) : Nat := bitsOf (s.qWord p q 2) 8 24
def State.weight (s : State) (p q : Nat) : Nat := if s.qWritten p q then bitsOf (s.qWord p q 3) 53 11 else 1
def State.qClass (s : State) (p q : Nat) : Nat := if s.qWritten p q then bitsOf (s.qWord p q 3) 50 3 else q / 2

/-! ## Rates and lengths (R334, R135) -/

/-- Port rate in Mb/s of a SPEED code (R164). -/
def speedMbps (c : Nat) : Nat := [0, 10, 100, 1000, 2500, 10000, 25000, 100000].getD c 0
/-- The rate of egress port `p` in Mb/s: 23.2 Gb/s on a link. -/
def State.egressMbps (s : State) (p : Nat) : Nat :=
  if p < 48 then speedMbps (s.fld (R.PORT.STATUS.SPEED p)) else 23200

/-- Slot `k` of edit template `t` (R290). -/
def State.tplSlot (s : State) (t k : Nat) : Nat := bitsOf (s.row 0x40 t) (64 * (15 - k)) 64
/-- The executed slots of a template: up to END (R290). -/
def State.tplSlots (s : State) (t : Nat) : List Nat :=
  ((List.range 16).map (s.tplSlot t)).takeWhile fun w => decide (bitsOf w 61 3 ≠ 0)
/-- The sum of the INSERT LENs of a template. -/
def State.tplInsert (s : State) (t : Nat) : Nat :=
  ((s.tplSlots t).filter fun w => decide (bitsOf w 61 3 = 1)).foldl (fun a w => a + bitsOf w 35 7) 0
/-- The port template of Ethernet egress port `p` (R288). -/
def State.portTpl (s : State) (p : Nat) : Option Nat :=
  if p < 48 ∧ s.on (R.EDIT.PORT_TPL_k.EN (p / 4) (p % 4)) then some (s.fld (R.EDIT.PORT_TPL_k.TPL (p / 4) (p % 4))) else none

/-- S of a copy (R308): the stored length, cut to TRUNC with its new FCS (R301); bytes so far while the end is not received. -/
def State.stored (s : State) (c : Copy) : Nat :=
  match c.frame.bind s.frame with
  | some f =>
    let n := match f.len with
      | some l => l - 4
      | none => f.got
    if c.trunc = 0 then n else min n (c.trunc - 4)
  | none => c.unit.length
/-- B of a copy on its egress port (R334). -/
def State.chargeLen (s : State) (c : Copy) : Nat :=
  let i := (match c.tpl with
    | some t => s.tplInsert t.1
    | none => 0) + (match s.portTpl c.port with
    | some t => s.tplInsert t
    | none => 0)
  if c.port < 48 then
    ((max 64 (s.stored c + 4 + i) : Nat) + signedOf 8 (s.eff (R.TM.OVERHEAD.OVERHEAD c.port))).toNat
  else if c.frame.isNone then c.unit.length
  else s.stored c + 4 + i + 8
/-- The transmission time of B bytes fits in `d` ns on port `p` (R334, R346). -/
def State.fits (s : State) (p b d : Nat) : Bool := decide (8000 * b ≤ s.egressMbps p * d)

/-! ## Shapers (R340, R341): credit and tokens in 1/8,000,000 byte -/

def shUnit : Nat := 8000000

def State.qst (s : State) (p q : Nat) : QSt := s.tm.q.get QSt.init (p * 16 + q)
def State.setQst (s : State) (p q : Nat) (x : QSt) : State :=
  { s with tm := { s.tm with q := s.tm.q.put QSt.init (p * 16 + q) x } }

/-- Brings the credit and the tokens of a queue up to the present instant. -/
def State.settleQ (s : State) (p q : Nat) : State :=
  let x := s.qst p q
  let dt : Nat := s.mono - x.since
  let full : Int := (s.tbBurst p q * shUnit : Nat)
  let tok := match x.tokens with
    | some t => if s.tbEn p q then some (min full (t + (s.tbRate p q * dt : Nat))) else some t
    | none => none
  if !s.cbsEn p q then s.setQst p q { x with tokens := tok, since := s.mono }
  else
    let hi : Int := (s.hiCredit p q * shUnit : Nat)
    let empty := (s.queue p q).isEmpty
    let up : Nat := min (s.idleSlope p q) (s.egressMbps p * 1000) * dt
    let c1 := if s.gateOpen p q && (!empty || decide (x.credit < 0)) then x.credit + (up : Int) else x.credit
    let c2 := if empty ∧ 0 < c1 then 0 else c1
    let s1 := s.setQst p q { x with credit := min hi c2, tokens := tok, since := s.mono }
    if x.credit < hi ∧ hi ≤ c2 then (s1.bump R.TM.CBS_CLAMPS.COUNT).setB R.TM.TM_STICKY.CLAMP_SEEN true else s1

/-- Brings every queue of a port, and its port bucket, up to the present instant. -/
def State.settleP (s : State) (p : Nat) : State :=
  let s1 := s.each (List.range 16) fun s q => s.settleQ p q
  s1.modEport p fun e =>
    { e with since := s1.mono,
             tokens := match e.tokens with
               | some t => some (min ((s1.eff (R.TM.PORT_BURST.BURST p) * shUnit : Nat) : Int)
                   (t + (s1.eff (R.TM.PORT_RATE.RATE p) * (s1.mono - e.since) : Nat)))
               | none => none }

/-- The tokens of a queue and of a port bucket; full where nothing has been charged since commit. -/
def State.qTokens (s : State) (p q : Nat) : Int :=
  match (s.qst p q).tokens with
  | some t => t
  | none => (s.tbBurst p q * shUnit : Nat)
def State.pTokens (s : State) (p : Nat) : Int :=
  match (s.eport p).tokens with
  | some t => t
  | none => (s.eff (R.TM.PORT_BURST.BURST p) * shUnit : Nat)

/-- The level of a queue's bucket stands, whatever its parameters become (R336). -/
def State.pinTokens (s : State) (p q : Nat) : State :=
  let s1 := s.settleQ p q
  s1.setQst p q { s1.qst p q with tokens := some (s1.qTokens p q) }
/-- The level of a port bucket stands, whatever its parameters become (R341). -/
def State.pinPort (s : State) (p : Nat) : State :=
  let s1 := s.settleP p
  s1.modEport p fun e => { e with tokens := some (s1.pTokens p) }

/-- Charges (or, negative, gives back) `b` bytes to the shapers of queue `q` and to the port bucket (R338, R346); credit that comes back
reaches HI_CREDIT at most (R340). -/
def State.charge (s : State) (p q : Nat) (b : Int) : State :=
  let d := b * (shUnit : Int)
  let x := s.qst p q
  let hi : Int := (s.hiCredit p q * shUnit : Nat)
  let tops := s.cbsEn p q && decide (b < 0 ∧ hi ≤ x.credit - d)
  let s0 := if tops && decide (x.credit < hi) then (s.bump R.TM.CBS_CLAMPS.COUNT).setB R.TM.TM_STICKY.CLAMP_SEEN true else s
  let s1 := s0.setQst p q { x with credit := if tops then hi else if s.cbsEn p q then x.credit - d else x.credit,
                                   tokens := if s.tbEn p q then some (s.qTokens p q - d) else x.tokens }
  if s.on (R.TM.CTRL.PORT_TB_EN p) then
    let t := s1.pTokens p - d
    s1.modEport p fun e => { e with tokens := some t }
  else s1

/-- Shows `QSTATUS.NONEMPTY` of a queue. -/
def State.showQueue (s : State) (p q : Nat) : State :=
  if p < 56 then s.setBit (R.TM.QSTATUS.NONEMPTY p) q (!(s.queue p q).isEmpty) else s

/-- A queue that has become empty loses its deficit (R338) and its credit above 0 (R340). -/
def State.emptied (s : State) (p q : Nat) : State :=
  let s1 := s.showQueue p q
  if !(s1.queue p q).isEmpty then s1
  else
    let x := s1.qst p q
    s1.setQst p q { x with deficit := 0, topped := false, credit := min 0 x.credit }

/-- A copy joins its queue. -/
def State.enqueue (s : State) (c : Copy) : State :=
  let s1 := s.settleQ c.port c.q
  (s1.setQueue c.port c.q (s1.queue c.port c.q ++ [c])).showQueue c.port c.q

/-- The head copy leaves its queue. -/
def State.dequeue (s : State) (p q : Nat) : State :=
  let s1 := s.settleQ p q
  (s1.setQueue p q ((s1.queue p q).drop 1)).emptied p q

end Sys2Proof.Machine
end

