-- ==== Sys2Proof/Machine/Buffer.lean ====
section
/-! DEFINITION. The shared buffer: cells, reference counts, admission, disposition counting, and the in-flight counts of the
rule-set epochs (R162, R233, R306-R325). -/
namespace Sys2Proof.Machine

/-! ## Banks and cells -/

/-- State of a bank (R332): 0 in service, 1 marked, 2 draining, 3 testing, 4 spare, 5 retired. -/
def State.bankState (s : State) (b : Nat) : Nat := s.fld (R.BUF.BANK_STATE_k.STATE (b / 8) (b % 8))
def State.setBank (s : State) (b v : Nat) : State := s.set (R.BUF.BANK_STATE_k.STATE (b / 8) (b % 8)) v
/-- The bank is in the rotation of R310. -/
def State.inService (s : State) (b : Nat) : Bool := decide (s.bankState b ≤ 1)
/-- Cells in service (R306, R328). -/
def State.cellsInService (s : State) : Nat := 8192 * ((List.range 17).filter s.inService).length

/-- Cell number `n` = bank x 8,192 + line (R306). -/
def State.cell (s : State) (n : Nat) : Option Cell := s.buf.cells.get none n
def State.setCell (s : State) (n : Nat) (c : Option Cell) : State :=
  { s with buf := { s.buf with cells := s.buf.cells.put none n c } }

/-- The first free line of bank `b` from line `l`; `fuel` lines are left. -/
def State.freeLine (s : State) (b : Nat) : Nat → Nat → Option Nat
  | 0, _ => none
  | fuel + 1, l => if (s.cell (b * 8192 + l)).isNone then some l else s.freeLine b fuel (l + 1)

/-- A free cell of the next bank of the rotation that holds one (R310). -/
def State.freeCell (s : State) : Option (Nat × Nat) :=
  ((List.range 17).map fun i => (s.buf.rot + 1 + i) % 17).findSome? fun b =>
    if s.inService b then (s.freeLine b 8192 0).map fun l => (b, b * 8192 + l) else none

/-- The sideband of a cell (R307), from the next cell of its frame. -/
def Cell.sideband (c : Cell) (next : Option Nat) : Nat :=
  let low := (match next with
    | some n => n / 8192 * 2 ^ 27 + n % 8192 * 2 ^ 14
    | none => 2 ^ 4) + c.data.length * 2 ^ 5 + b2n c.bad * 2 ^ 3
  crc32c (c.data ++ List.replicate (256 - c.data.length) 0 ++ beBytes 4 low) * 2 ^ 32 + low

/-- Writes one more cell of 1 to 256 bytes of a frame; none where no in-service bank holds a free cell (R313).  A write that fails
persistently leaves a cell that is marked bad (R307, R325). -/
def State.writeCell (s : State) (data : List Byte) : Option (Nat × State) :=
  s.freeCell.map fun e =>
    let s1 := { s with buf := { s.buf with rot := e.1, badNext := s.buf.badNext.filter fun b => decide (b ≠ e.1) } }
    (e.2, s1.setCell e.2 (some { data := data, bad := decide (e.1 ∈ s.buf.badNext), refs := 0, poison := false }))

/-- The lane island marks cells of a frame bad (R307). -/
def State.markBad (s : State) (l : List Nat) : State :=
  s.each l fun s n => match s.cell n with
    | some c => s.setCell n (some { c with bad := true })
    | none => s
/-- A cell is marked bad. -/
def State.cellBad (s : State) (n : Nat) : Bool := (s.cell n).any (·.bad)

/-- Frees cells. -/
def State.freeCells (s : State) (l : List Nat) : State := s.each l fun s n => s.setCell n none

/-- Splits bytes into cells. -/
def chunks : Nat → List Byte → List (List Byte)
  | 0, _ => []
  | _, [] => []
  | n + 1, l => l.take 256 :: chunks n (l.drop 256)

/-- The bytes of a frame, as its cells hold them. -/
def State.frameBytes (s : State) (f : Frm) : List Byte :=
  f.cells.flatMap fun n => match s.cell n with
    | some c => c.data
    | none => []

/-- Appends bytes to a frame's cells (R307, R313): a write that finds no free cell frees the cells written so far and marks
the frame. -/
def State.append (s : State) (i : Nat) (l : List Byte) : State :=
  match s.frame i with
  | none => s
  | some f =>
    let hd := if f.head.length < 384 then (f.head ++ l).take 384 else f.head
    if f.noCell then s.setFrame i (some { f with got := f.got + l.length, head := hd })
    else
      let room := if f.got % 256 = 0 then 0 else 256 - f.got % 256
      let s1 := match f.cells.getLast? with
        | some n => match s.cell n with
          | some c => s.setCell n (some { c with data := c.data ++ l.take room })
          | none => s
        | none => s
      let w := (chunks 40 (l.drop room)).foldl
        (fun (a : Option (State × List Nat)) d => a.bind fun x => (x.1.writeCell d).map fun y => (y.2, x.2 ++ [y.1]))
        (some (s1, f.cells))
      match w with
      | some (s2, cs) =>
        -- a cell joins the frame with the reference count of its first cell (a cut-through frame has one copy)
        let r := match f.cells.head?.bind s.cell with
          | some c => c.refs
          | none => 0
        let s3 := s2.each (cs.drop f.cells.length) fun s n => match s.cell n with
          | some c => s.setCell n (some { c with refs := r })
          | none => s
        s3.setFrame i (some { f with cells := cs, got := f.got + l.length, head := hd,
                                     crcBad := f.crcBad || (cs.drop f.cells.length).any s2.cellBad })
      | none =>
        (((s1.freeCells f.cells).setFrame i (some { f with cells := [], noCell := true, got := f.got + l.length, head := hd })).bump
          R.BUF.NO_CELL.COUNT).setB R.BUF.STICKY.NO_CELL_SEEN true

/-- A new frame with its number. -/
def State.newFrame (s : State) (f : Frm) : State × Nat :=
  let i := s.buf.nextFrame
  (({ s with buf := { s.buf with nextFrame := i + 1 } }).setFrame i (some f), i)

/-! ## Counting (R162, R24) -/

/-- The pipeline of an ingress source (R17). -/
def pipeOf (src : Nat) : Nat := if src < 48 then src / 12 else (src - 48) / 2

/-- Counts a discard at an Ethernet port or a Nelyan link. -/
def State.countAt (s : State) (p cause : Nat) : State :=
  if p < 48 then s.bump (R.PORT.DISC_c.COUNT p cause)
  else if p < 56 then s.bump (R.NLINK.DISC_c.COUNT (p - 48) cause) else s

/-- The discard causes (R164). -/
def dShed : Nat := 0
def dParse : Nat := 1
def dRule : Nat := 2
def dPolice : Nat := 3
def dLimit : Nat := 4
def dAge : Nat := 5
def dCellCrc : Nat := 6
def dFlush : Nat := 7
def dPassLimit : Nat := 8
def dGuard : Nat := 9
def dStall : Nat := 10
def dFold : Nat := 11
def dPortDown : Nat := 12
def dTtl : Nat := 13
def dNoRoute : Nat := 14
def dFlowMiss : Nat := 15
def dResendLost : Nat := 16
def dGateOverrun : Nat := 17

/-! ## Epochs in flight (R233) -/

/-- State of a rule bank: 0 EMPTY, 1 ACTIVE, 2 DRAINING, 3 IDLE (R231). -/
def State.ruleBank (s : State) (k : Nat) : Nat := s.fld (R.TABLES.RULESET_STATUS.STATE k)

/-- A bank that drains and has nothing in flight becomes IDLE (R233). -/
def State.bankIdle (s : State) (k : Nat) : State :=
  if s.ruleBank k = 2 ∧ s.fld (R.TABLES.INFLIGHT_k.COUNT k) = 0 then
    ({ s.set (R.TABLES.RULESET_STATUS.STATE k) 3 with tabs := { s.tabs with drainAt := s.tabs.drainAt.del k } }).raise 120
  else s

/-- A packet can make no further rule lookup (R233). -/
def State.landed (s : State) (i : Nat) : State :=
  match s.frame i with
  | some f =>
    if f.counted then
      let s1 := s.setFrame i (some { f with counted := false })
      (s1.set (R.TABLES.INFLIGHT_k.COUNT f.epoch) (s1.fld (R.TABLES.INFLIGHT_k.COUNT f.epoch) - 1)).bankIdle f.epoch
    else s
  | none => s

/-! ## Releasing -/

/-- Frees every cell of a frame that no copy references, and forgets the frame. -/
def State.forget (s : State) (i : Nat) : State :=
  match s.frame i with
  | some f => ((s.landed i).freeCells f.cells).setFrame i none
  | none => s

/-- Discards a frame that no copy of admission holds, under one cause, at its ingress source (R162). -/
def State.discard (s : State) (i cause : Nat) : State :=
  match s.frame i with
  | some f => ((if f.settled then s else s.countAt f.src cause)).forget i
  | none => s

/-- A copy leaves its queue or ready slot, for good or for the wire: its part of the shared pool returns first (R316). -/
def State.unshare (s : State) (p q n : Nat) : State :=
  let k := p * 16 + q
  let h := s.buf.shared.get 0 k
  let r := min h n
  let s1 := { s with buf := { s.buf with shared := s.buf.shared.put 0 k (h - r) } }
  s1.set R.BUF.SHARED_USED.CELLS (s1.fld R.BUF.SHARED_USED.CELLS - r)

/-- One copy's references are dropped; a cell whose count reaches 0 is freed (R320).  A frame whose last byte has not come is
kept until it has. -/
def State.deref (s : State) (c : Copy) : State :=
  match c.frame with
  | none => s
  | some i =>
    match s.frame i with
    | none => s
    | some f =>
      let s1 := s.each f.cells fun s n => match s.cell n with
        | some x => if x.refs ≤ 1 then s.setCell n (if f.whole then none else some { x with refs := 0 })
                    else s.setCell n (some { x with refs := x.refs - 1 })
        | none => s
      if f.whole ∧ f.cells.all (fun n => (s1.cell n).isNone) then (s1.landed i).setFrame i none else s1

/-- A copy leaves the buffer from a queue or a ready slot. -/
def State.dropCopy (s : State) (c : Copy) : State := (s.unshare c.port c.q (s.copyCells c)).deref c

/-- The ingress source of a copy's frame; 64 where it has none. -/
def State.srcOf (s : State) (c : Copy) : Nat :=
  match c.frame.bind s.frame with
  | some f => f.src
  | none => 64

/-- Discards a queued or staged copy: the causes of R162 count at its egress port (at the ingress port where the egress port
has no counters), every other cause at its ingress port. -/
def State.discardCopy (s : State) (c : Copy) (cause : Nat) : State :=
  let atEgress : Bool := decide (cause = dAge ∨ cause = dPortDown ∨ cause = dGateOverrun)
  let inj : Bool := decide (s.srcOf c = 64)
  let s1 := if c.frame.isNone || inj then s
            else if atEgress && decide (c.port < 56) then s.countAt c.port cause else s.countAt (s.srcOf c) cause
  s1.dropCopy c

/-- Discards every copy of a queue that satisfies `p`, in order; the others keep theirs (R402). -/
def State.purge (s : State) (port q cause : Nat) (p : Copy → Bool) : State :=
  let l := s.queue port q
  let s1 := (s.settleQ port q).setQueue port q (l.filter fun c => !p c)
  ((s1.each (l.filter p) fun s c => s.discardCopy c cause)).emptied port q

/-- Discards every copy of a port's ready slots that satisfies `p`. -/
def State.purgeReady (s : State) (port cause : Nat) (p : Copy → Bool) : State :=
  let l := (s.eport port).ready
  (s.modEport port fun e => { e with ready := l.filter fun c => !p c }).each (l.filter p) fun s c => s.discardCopy c cause

/-! ## Admission (R311-R317) -/

/-- The ingress source of a frame for the fills: 56 + n in a second pass (R311). -/
def Frm.fillSrc (f : Frm) : Nat := if f.pass2 then 56 + pipeOf f.src else f.src
/-- Committed cells of a frame. -/
def State.held (s : State) (f : Frm) : Nat :=
  (f.cells.filter fun n => match s.cell n with
    | some c => decide (0 < c.refs)
    | none => false).length
/-- C_tot: every committed cell once. -/
def State.committed (s : State) : Nat :=
  (s.buf.cells.filter fun e => match e.2 with
    | some c => decide (0 < c.refs)
    | none => false).length
/-- The priority group of a traffic class. -/
def State.pg (s : State) (tc : Nat) : Nat := s.fld (R.BUF.PG_MAP.PG tc)
/-- F_in(i, g). -/
def State.fIn (s : State) (src g : Nat) : Nat :=
  s.buf.frames.foldl (fun a e => match e.2 with
    | some f => if f.fillSrc = src ∧ s.pg f.tc = g then a + s.held f else a
    | none => a) 0
def State.srcProf (s : State) (src : Nat) : Nat := s.fld (R.BUF.SRC_PROF_k.PROF (src / 10) (src % 10))
/-- Free cells in service. -/
def State.freeCount (s : State) : Nat :=
  s.cellsInService - (s.buf.cells.filter fun e => s.inService (e.1 / 8192)).length

/-- Steps 1 to 3 of R312 for a frame of `c` cells; an injected frame takes step 2 alone (R446). -/
def State.admits (s : State) (f : Frm) (c : Nat) : Bool :=
  let g := s.pg f.tc
  !f.noCell && decide (s.committed + c + s.eff R.BUF.HEADROOM.CELLS ≤ s.cellsInService) &&
    (decide (f.src = 64) || decide (s.fIn f.fillSrc g + c ≤ s.fld (R.BUF.ILIMIT_f_g.CELLS (s.srcProf f.fillSrc) g)))

/-- The cells beyond its queue's minimum that a copy of `c` cells takes from the shared pool (R316). -/
def State.poolPart (s : State) (p q c : Nat) : Nat := c - (s.qMin p q - (s.qFill p q - s.buf.shared.get 0 (p * 16 + q)))

/-- Step 4 for one copy: the queue's cells beyond its minimum that the copy takes from the pool, or none where it is refused
(R312, R316). -/
def State.admitCopy (s : State) (p q c dp : Nat) : Option Nat :=
  let lim := s.qLimit p q * s.eff (R.BUF.DP_SCALE.SCALE dp) / 16
  if s.fld R.BUF.CFG.MODE = 0 then (if s.qFill p q + c ≤ lim then some 0 else none)
  else
    let h := s.buf.shared.get 0 (p * 16 + q)
    let x := s.poolPart p q c
    if x = 0 then some 0
    else
      if h + x ≤ lim ∧ s.fld R.BUF.SHARED_USED.CELLS + x ≤ s.fld R.BUF.SHARED_EFF.SIZE then some x else none

/-- Draws `x` cells of the shared pool for a queue. -/
def State.share (s : State) (p q x : Nat) : State :=
  let k := p * 16 + q
  let s1 := { s with buf := { s.buf with shared := s.buf.shared.put 0 k (s.buf.shared.get 0 k + x) } }
  s1.set R.BUF.SHARED_USED.CELLS (s1.fld R.BUF.SHARED_USED.CELLS + x)

/-- Raises the reference count of a frame's cells by one (R320). -/
def State.addRef (s : State) (i : Nat) : State :=
  match s.frame i with
  | some f => s.each f.cells fun s n => match s.cell n with
    | some c => s.setCell n (some { c with refs := c.refs + 1 })
    | none => s
  | none => s

/-- Admission refuses a mirror copy (R302). -/
def State.mirrorRefused (s : State) (src : Nat) : State :=
  ((s.bump R.EDIT.MIRROR_DROP.COUNT).setB R.EDIT.STICKY.MIRROR_DROP_SEEN true).countAt src dLimit

/-- A refused copy of a committed frame (R302, R312). -/
def State.refuseCopy (s : State) (src : Nat) (mirror : Bool) : State :=
  let s1 := s.bump R.BUF.COPY_DROP.COUNT
  if mirror then s1.mirrorRefused src else s1

/-- Admission of a frame with its copies (R312): the copies that pass are committed, and `put` places each.  None where the
frame is refused. -/
def State.admitWith (s : State) (i : Nat) (dp : Nat) (copies : List Copy) (put : State → Copy → State) : State × Option (List Copy) :=
  match s.frame i with
  | none => (s, none)
  | some f =>
    let c := f.cells.length
    if !s.admits f c then (s, none)
    else
      let r := copies.foldl (fun (a : State × List Copy × List Copy) k =>
        match a.1.admitCopy k.port k.q c dp with
        | some x => (put ((a.1.addRef i).share k.port k.q x) { k with since := s.mono }, a.2.1 ++ [k], a.2.2)
        | none => (a.1, a.2.1, a.2.2 ++ [k])) (s, [], [])
      if r.2.1.isEmpty then (s, none)
      else (r.1.each r.2.2 fun s k => s.refuseCopy f.src k.mirror, some r.2.1)

/-- Admission of a whole frame: the copies that pass join their queues. -/
def State.enqueueFrame (s : State) (i : Nat) (dp : Nat) (copies : List Copy) : State × Option (List Copy) :=
  s.admitWith i dp copies State.enqueue

end Sys2Proof.Machine
end

