-- ==== Sys2Proof/Machine/Banks.lean ====
section
/-! DEFINITION. Bank tests: marks, requests, drains and results (R325-R330). -/
namespace Sys2Proof.Machine

/-- The pool in force of sharing mode, after the cells that are out of service (R317, R328). -/
def State.showShared (s : State) : State :=
  if s.fld R.BUF.CFG.MODE = 0 then s
  else
    let mins := (List.range 928).foldl (fun a k => a + s.qMin (k / 16) (k % 16)) 0
    let room := min (s.eff R.BUF.SHARED.SIZE) (131072 - s.eff R.BUF.HEADROOM.CELLS - mins)
    s.set R.BUF.SHARED_EFF.SIZE (room - (131072 - s.cellsInService))

def State.spareBank (s : State) : Nat := s.fld R.BUF.SPARE.BANK
def State.bankCurrent (s : State) : Nat := s.fld R.BUF.TEST_STATUS.CURRENT
/-- The banks in the rotation. -/
def State.banksIn (s : State) : Nat := ((List.range 17).filter s.inService).length
/-- A test is running: a bank drains or is tested, or the whole buffer is. -/
def State.testRuns (s : State) : Bool := decide (s.bankCurrent ≠ 31) || decide (1 ∈ s.col.windows)
/-- Shows the result of a test or of a request (R330). -/
def State.testResult (s : State) (b r : Nat) : State := (s.set R.BUF.TEST_STATUS.BANK b).set R.BUF.TEST_STATUS.RESULT r
def State.setTests (s : State) (l : List Nat) : State :=
  { s with buf := { s.buf with tests := l } }.set R.BUF.TEST_STATUS.QUEUED l.length

/-- Every copy with a cell in bank `b` that is not in a ready slot or on the wire is discarded (R327). -/
def State.flushBank (s : State) (b : Nat) : State :=
  let inBank (s : State) (c : Copy) : Bool := match c.frame.bind s.frame with
    | some f => f.cells.any fun n => decide (n / 8192 = b)
    | none => false
  s.each (List.range 928) fun s k => s.purge (k / 16) (k % 16) dFlush (inBank s)

/-- Every remaining copy is discarded (R329). -/
def State.flushAll (s : State) : State :=
  (s.each (List.range 928) fun s k => s.purge (k / 16) (k % 16) dFlush fun _ => true).each (List.range 56) fun s p =>
    s.purgeReady p dFlush fun _ => true

/-- A bank begins its test (R327, R328). -/
def State.beginTest (s : State) (b : Nat) : State :=
  let s1 := s.set R.BUF.TEST_STATUS.CURRENT b
  if s.bankState b = 4 then s1.setBank b 3
  else
    let s2 := if s.spareBank = 31 then s1 else (s1.setBank s.spareBank 0).set R.BUF.SPARE.BANK 31
    ({ s2.setBank b 2 with buf := { s2.buf with drainAt := some s.now } }).showShared

/-- The oldest request is taken up where nothing runs; requests for banks that have retired meanwhile are passed over. -/
def State.nextTest (s : State) : State :=
  if s.testRuns then s
  else
    match s.buf.tests.dropWhile fun b => decide (b ≠ 31) && decide (s.bankState b = 5) with
    | [] => s.setTests []
    | 31 :: t => ((s.setTests t).openWin 1).flushAll
    | b :: t => (s.setTests t).beginTest b

/-- A request for a test (R326, R329); 31 asks for the whole buffer. -/
def State.askTest (s : State) (b : Nat) : State :=
  if b ≠ 31 ∧ (17 ≤ b ∨ s.bankState b = 5) then s.testResult b 5
  else if b ∈ s.buf.tests ∨ s.bankCurrent = b ∧ b ≠ 31 ∨ b = 31 ∧ 1 ∈ s.col.windows then s
  else if 4 ≤ s.buf.tests.length then s.testResult b 4
  else (s.setTests (s.buf.tests ++ [b])).nextTest

/-- Maintenance: every port and every link is disabled (R329). -/
def State.maintenance (s : State) : Bool :=
  ((List.range 48).all fun p => !s.on (R.PORT.CTRL.EN p)) && (List.range 8).all fun n => !s.on (R.NLINK.CTRL.EN n)

/-- A request for the whole-buffer test (R329). -/
def State.askWhole (s : State) : State :=
  if s.on R.FAULT.STATE.FOLD || s.maintenance then s.askTest 31 else s.testResult 31 3

/-- `TEST_REQ` (R326, R329). -/
def State.testReq (s : State) (all : Bool) (b : Nat) : State :=
  if all then s.askWhole else if b = 31 then s.testResult 31 5 else s.askTest b

/-- A persistent CRC failure at a write or a read of bank `b` (R325, R326). -/
def State.crcPersist (s : State) (b : Nat) : State :=
  let s1 := (s.bump R.BUF.CRC_PERSIST.COUNT).detect (160 + b)
  if s1.bankState b = 0 then (s1.setBank b 1).askTest b
  else if s1.bankState b = 1 then s1.askTest b else s1

/-- A retry that has succeeded (R324). -/
def State.crcRetry (s : State) (b : Nat) : State :=
  (s.bump (R.BUF.CRC_RETRIES_b.COUNT b)).setB R.BUF.STICKY.CRC_RETRY_SEEN true

/-- The rotation takes the next in-service bank after the last one, while a spare exists (R326). -/
def State.rotateBank (s : State) : State :=
  if s.eff R.BUF.ROT_CFG.PERIOD = 0 ∨ s.spareBank = 31 then s
  else
    match ((List.range 17).map fun k => (s.buf.lastRot + 1 + k) % 17).find? s.inService with
    | some b => { s with buf := { s.buf with lastRot := b } }.askTest b
    | none => s

/-- The bank under drain is empty, and its test begins (R327). -/
def State.drained (s : State) : State :=
  let b := s.bankCurrent
  if b ≠ 31 ∧ s.bankState b = 2 ∧ (s.buf.cells.all fun e => decide (e.1 / 8192 ≠ b)) then
    { s.setBank b 3 with buf := { s.buf with drainAt := none } }
  else s

/-- The drain of the bank has lasted `DRAIN_TO`, and cells remain (R327). -/
def State.drainLate (s : State) : State :=
  let b := s.bankCurrent
  match s.buf.drainAt with
  | some t =>
    if b ≠ 31 ∧ s.bankState b = 2 ∧ t + msec (s.eff R.BUF.ROT_CFG.DRAIN_TO) ≤ s.now ∧ (s.buf.cells.any fun e => decide (e.1 / 8192 = b)) then
      (s.flushBank b).setB R.BUF.STICKY.DRAIN_TIMEOUT_SEEN true
    else s
  | none => s

/-- A bank retires (R327, R328). -/
def State.retire (s : State) (b : Nat) : State :=
  let s1 := (s.setBank b 5).detect 177
  let s2 := if s1.spareBank = b then s1.set R.BUF.SPARE.BANK 31 else s1
  (if s2.banksIn < 16 then s2.detect 178 else s2).showShared

/-- The march test of the current bank ends (R327, R328, R330). -/
def State.marchEnd (s : State) (pass : Bool) : State :=
  let b := s.bankCurrent
  if b = 31 ∨ s.bankState b ≠ 3 then s
  else
    let s1 := (s.testResult b (if pass then 1 else 2)).bump R.BUF.ROTATIONS.COUNT
    let s2 := if !pass then s1.retire b
      else if s1.banksIn < 16 then (s1.setBank b 0).showShared
      else (s1.setBank b 4).set R.BUF.SPARE.BANK b
    (s2.set R.BUF.TEST_STATUS.CURRENT 31).nextTest

/-- The whole-buffer test ends with the banks of `bad` failed (R329).  A spare that passed takes the place of a bank that
failed. -/
def State.wholeEnd (s : State) (bad : Nat) : State :=
  if 1 ∉ s.col.windows then s
  else
    let s1 := s.each ((List.range 17).filter fun b => bad.testBit b && decide (s.bankState b ≠ 5)) fun s b =>
      let s1 := if s.bankState b ≤ 1 ∧ s.spareBank ≠ 31 ∧ ¬ bad.testBit s.spareBank then
          (s.setBank s.spareBank 0).set R.BUF.SPARE.BANK 31 else s
      s1.retire b
    (((s1.testResult 31 (if bad % 2 ^ 17 = 0 then 1 else 2)).bump R.BUF.ROTATIONS.COUNT).closeWin 1).nextTest

end Sys2Proof.Machine
end

