-- ==== Sys2Proof/Machine/Lookup.lean ====
section
/-! DEFINITION. The key builder, the MAC, LPM, rule and stream-filter lookups, and action resolution (R211-R227, R348, R391). -/
namespace Sys2Proof.Machine

/-! ## Headers by role (R211) -/

def State.hEth (s : State) : Nat := s.fld R.TABLES.HROLE.ETH
def State.hVlan (s : State) (t : Nat) : Bool := decide (t = s.fld R.TABLES.HROLE.VLAN_A ∨ t = s.fld R.TABLES.HROLE.VLAN_B)
def State.hV4 (s : State) : Nat := s.fld R.TABLES.HROLE.IPV4
def State.hV6 (s : State) : Nat := s.fld R.TABLES.HROLE.IPV6

/-- The headers from the first one of type ETH on. -/
def State.fromEth (s : State) (st : List Hdr) : List Hdr := st.dropWhile fun h => decide (h.typ ≠ s.hEth)
/-- The first header of a type, and the last one. -/
def firstHdr (st : List Hdr) (t : Nat) : Option Hdr := st.find? fun h => decide (h.typ = t)
def lastHdr (st : List Hdr) (t : Nat) : Option Hdr := st.reverse.find? fun h => decide (h.typ = t)

/-- Where the DA stands: the first header of type ETH, else byte 0 (R203). -/
def State.ethAt (s : State) (st : List Hdr) : Nat :=
  match s.fromEth st with
  | h :: _ => h.start
  | [] => 0

/-- PVID and key-builder profile of an Ethernet port (R211, R212). -/
def State.pvid (s : State) (p : Nat) : Nat :=
  if p % 2 = 1 then s.fld (R.TABLES.PORT_KEY_k.PVID_ODD (p / 2)) else s.fld (R.TABLES.PORT_KEY_k.PVID_EVEN (p / 2))
def State.portKprof (s : State) (p : Nat) : Nat :=
  if p % 2 = 1 then s.fld (R.TABLES.PORT_KEY_k.KPROF_ODD (p / 2)) else s.fld (R.TABLES.PORT_KEY_k.KPROF_EVEN (p / 2))

/-- FID (R212): the VID of the VLAN header that directly follows the first ETH header, else the PVID. -/
def State.fid (s : State) (h : PHead) (st : List Hdr) (port : Nat) : Nat :=
  match s.fromEth st with
  | _ :: v :: _ =>
    let vid := h.be v.start 2 % 4096
    if s.hVlan v.typ ∧ vid ≠ 0 then vid else s.pvid port
  | _ => s.pvid port

/-- The EtherType that follows the VLAN tags, 0 where the stack holds no ETH header (R391). -/
def State.etherType (s : State) (h : PHead) (st : List Hdr) : Nat :=
  match s.fromEth st with
  | e :: rest =>
    match (rest.takeWhile fun d => s.hVlan d.typ).getLast? with
    | some v => h.be (v.start + 2) 2
    | none => h.be (e.start + 12) 2
  | [] => 0

/-- The flow hash of a frame without a flow key (R391). -/
def State.plainHash (s : State) (h : PHead) (st : List Hdr) (fid : Nat) : Nat :=
  let a := s.ethAt st
  crc32c (beBytes 2 (fid % 4096) ++ slice h.bytes a 12 ++ beBytes 2 (s.etherType h st)) % 65536

/-! ## MAC table (R215-R217) -/

/-- The 8 bytes of {FID, MAC} (R215). -/
def macKey (fid mac : Nat) : List Byte := beBytes 2 (fid % 4096) ++ beBytes 6 mac
def macSet (fid mac : Nat) : Nat := crc32c (macKey fid mac) % 32768
/-- The MAC table answers (R560). -/
def State.macOn (s : State) : Bool := s.domOn 147
/-- The index of the valid entry of a key. -/
def State.macFind (s : State) (fid mac : Nat) : Option Nat :=
  ((List.range 8).map fun w => macSet fid mac * 8 + w).find? fun i =>
    let r := s.row 1 i
    decide (bitsOf r 127 1 = 1 ∧ bitsOf r 112 12 = fid ∧ bitsOf r 64 48 = mac)
/-- A free way of a set. -/
def State.macFree (s : State) (set : Nat) : Option Nat :=
  ((List.range 8).map fun w => set * 8 + w).find? fun i => decide (bitsOf (s.row 1 i) 127 1 = 0)
/-- A MAC row (R216). -/
def macRow (static : Bool) (fid mac seat port : Nat) : Nat :=
  2 ^ 127 + b2n static * 2 ^ 126 + fid * 2 ^ 112 + mac * 2 ^ 64 + seat * 2 ^ 54 + port * 2 ^ 48
/-- Shows `MAC_COUNT` and `MAC_STATIC`. -/
def State.showMac (s : State) : State :=
  let l := (s.rowsOf 1).filter fun e => bitOf e.2 127
  (s.set R.TABLES.MAC_COUNT.VALID l.length).set R.TABLES.MAC_STATIC.COUNT (l.filter fun e => bitOf e.2 126).length

/-! ## LPM (R223, R224) -/

/-- VALUE, MASK and tail of an LPM row. -/
def lpmVal (r : Nat) : Nat := bitsOf r 224 160
def lpmMask (r : Nat) : Nat := bitsOf r 64 160
def lpmValid (r : Nat) : Bool := bitOf r 63
def lpmAction (r : Nat) : Nat := bitsOf r 47 16
/-- The LPM block of an index answers. -/
def State.lpmOn (s : State) (i : Nat) : Bool := s.domOn (if i < 32768 then 143 else 144)
/-- The action of the first valid entry that matches. -/
def State.lpmFind (s : State) (key : Nat) : Option Nat :=
  ((s.rowsOf 2).find? fun e => lpmValid e.2 && s.lpmOn e.1 && decide (key &&& lpmMask e.2 = lpmVal e.2 &&& lpmMask e.2)).map
    fun e => lpmAction e.2

/-- The IP header of the LPM lookup of a profile (R213). -/
def State.lpmHdr (s : State) (st : List Hdr) (p : Nat) : Option Hdr :=
  let ip := st.filter fun h => decide (h.typ = s.hV4 ∨ h.typ = s.hV6)
  if s.on (R.TABLES.KPROF_p.CTRL.LPM_SRC p) then ip.getLast? else ip.head?
/-- The LPM key of that header, where every byte of its destination address is available (R213, R223). -/
def State.lpmKey (s : State) (h : PHead) (ip : Hdr) (vrf : Nat) : Option Nat :=
  if ip.typ = s.hV4 then
    if h.avail (ip.start + 20) then some (vrf * 2 ^ 148 + h.be (ip.start + 16) 4 * 2 ^ 96) else none
  else
    if h.avail (ip.start + 40) then some (vrf * 2 ^ 148 + 2 ^ 147 + h.be (ip.start + 24) 16) else none

/-! ## Rules (R214, R225) -/

/-- SIZEk in units of 512 entries, and the first position of bank k (R225). -/
def State.ruleSize (s : State) (k : Nat) : Nat :=
  match k with
  | 0 => s.fld R.TABLES.RULE_BANKS.SIZE0
  | 1 => s.fld R.TABLES.RULE_BANKS.SIZE1
  | 2 => s.fld R.TABLES.RULE_BANKS.SIZE2
  | _ => s.fld R.TABLES.RULE_BANKS.SIZE3
def State.ruleBase (s : State) (k : Nat) : Nat := 512 * ((List.range k).foldl (fun a j => a + s.ruleSize j) 0)
/-- The rule block of a position of bank `k` answers. -/
def State.ruleOn (s : State) (k i : Nat) : Bool := s.domOn (if s.ruleBase k + i < 12288 then 145 else 146)
def ruleValid (r : Nat) : Bool := bitOf r 127
def ruleAction (r : Nat) : Nat := bitsOf r 111 16
/-- The action of the lowest matching position of bank `k`. -/
def State.ruleFind (s : State) (k key : Nat) : Option Nat :=
  ((s.rowsOf (0x10 + k)).find? fun e =>
    ruleValid e.2 && decide (e.1 < 512 * s.ruleSize k) && s.ruleOn k e.1 &&
      decide (key &&& bitsOf e.2 128 320 = bitsOf e.2 448 320 &&& bitsOf e.2 128 320)).map fun e => ruleAction e.2

/-- Fragment selector `f` of a profile (R214). -/
def State.fragSel (s : State) (p f : Nat) : Nat :=
  match f with
  | 0 => s.fld (R.TABLES.KPROF_p.FRAG_01.FRAG0 p)
  | 1 => s.fld (R.TABLES.KPROF_p.FRAG_01.FRAG1 p)
  | 2 => s.fld (R.TABLES.KPROF_p.FRAG_23.FRAG2 p)
  | 3 => s.fld (R.TABLES.KPROF_p.FRAG_23.FRAG3 p)
  | 4 => s.fld (R.TABLES.KPROF_p.FRAG_45.FRAG4 p)
  | _ => s.fld (R.TABLES.KPROF_p.FRAG_45.FRAG5 p)
/-- The fragment that a selector takes, where it is present. -/
def PHead.frag (h : PHead) (st : List Hdr) (sel : Nat) : Option Nat :=
  if !bitOf sel 15 then none
  else
    match if bitOf sel 14 then lastHdr st (bitsOf sel 8 6) else firstHdr st (bitsOf sel 8 6) with
    | some d => if h.avail (d.start + sel % 256 + 4) then some (h.be (d.start + sel % 256) 4) else none
    | none => none

/-- The rule key (R214) of a frame. -/
def State.ruleKey (s : State) (h : PHead) (f : Frm) (p fid : Nat) (daHit daLocal lpmHit : Bool) : Nat :=
  let st := f.parsed.stack
  let fr := (List.range 6).map fun k => h.frag st (s.fragSel p k)
  let present := (List.range 6).foldl (fun a k => a + b2n ((fr.getD k none).isSome) * 2 ^ k) 0
  let frags := fr.foldl (fun a x => a * 2 ^ 32 + x.getD 0) 0
  f.src * 2 ^ 314 + b2n f.pass2 * 2 ^ 313 + b2n daHit * 2 ^ 312 + b2n daLocal * 2 ^ 311 + b2n lpmHit * 2 ^ 310 +
    f.dp * 2 ^ 308 + f.tc * 2 ^ 304 + fid * 2 ^ 292 + s.fld (R.TABLES.KPROF_p.CTRL.VRF p) * 2 ^ 280 +
    st.length * 2 ^ 275 + b2n f.parsed.cskip * 2 ^ 274 + present * 2 ^ 268 + f.parsed.first * 2 ^ 261 +
    f.parsed.hits * 2 ^ 197 + frags

/-! ## Actions (R226, R227) -/

/-- Own seat number (R358). -/
def State.ownSeat (s : State) : Nat := s.fld R.NLINK.SEAT.SEAT

/-- Merges an action into a decision, as the rule action is merged (R227 step 2).  ROUTE acts as KEEP. -/
def mergeAction (d : Dec) (a : Nat) : Dec :=
  -- bit 256 marks a row whose parity has failed (R413)
  if bitOf a 256 then { d with fwd := 2, cause := dRule } else
  let d1 : Dec :=
    match bitsOf a 253 3 with
    | 1 => if bitOf a 236 then { d with fwd := 1, group := some (bitsOf a 237 14), flood := false }
           else { d with fwd := 1, group := none, flood := false, seat := bitsOf a 243 10, port := bitsOf a 237 6 }
    | 2 => { d with fwd := 2, cause := dRule }
    | 3 => { d with fwd := 3, xq := bitsOf a 189 4, xcause := bitsOf a 181 8 }
    | 4 => { d with fwd := 4, kprof := bitsOf a 177 4 }
    | _ => d
  { d1 with
    q := if bitOf a 235 then some (bitsOf a 231 4) else d1.q
    dp := if bitOf a 230 then some (bitsOf a 228 2) else d1.dp
    meter := if bitOf a 227 then some (bitsOf a 213 14) else d1.meter
    flowProf := if bitOf a 212 then some (bitsOf a 208 4) else d1.flowProf
    edit := if bitOf a 207 then some (bitsOf a 201 6) else d1.edit
    editData := if bitOf a 207 then bitsOf a 0 160 else d1.editData
    mirror := d1.mirror ||| bitsOf a 193 8
    ets := d1.ets || bitOf a 176
    noLearn := d1.noLearn || bitOf a 175
    sf := if bitOf a 174 then some (bitsOf a 160 14) else d1.sf }

/-- The base decision of a DA result (R217, R227 step 1), with the LPM result. -/
def State.baseDec (s : State) (h : PHead) (st : List Hdr) (fid da prof : Nat) (made : Bool) (lpm : Option Nat)
    (useAction : Bool) : Dec :=
  if !made then Dec.init
  else
    match if s.macOn then s.macFind fid da else none with
    | none => { Dec.init with fwd := 1, group := some fid, flood := true }
    | some i =>
      let r := s.row 1 i
      if bitOf r 44 ∧ useAction then
        let a := s.row 0x20 (bitsOf r 28 16)
        if bitsOf a 253 3 = 5 then
          match lpm with
          | none => { Dec.init with fwd := 2, cause := dNoRoute }
          | some x =>
            let ttl := match s.lpmHdr st prof with
              | some ip => h.at (ip.start + (if ip.typ = s.hV4 then 8 else 7))
              | none => 255
            if ttl ≤ 1 then { Dec.init with fwd := 2, cause := dTtl } else mergeAction Dec.init (s.row 0x20 x)
        else mergeAction Dec.init a
      else { Dec.init with fwd := 1, seat := bitsOf r 54 10, port := bitsOf r 48 6 }

/-- Steps 1 and 2 of R227 for a frame whose parse is done. -/
def State.resolve (s : State) (h : PHead) (f : Frm) (p : Nat) : Dec :=
  let st := f.parsed.stack
  let fid := s.fid h st f.src
  let da := h.be (s.ethAt st) 6
  let vrf := s.fld (R.TABLES.KPROF_p.CTRL.VRF p)
  let made := s.on (R.TABLES.KPROF_p.CTRL.MAC_EN p)
  let hit := if made ∧ s.macOn then s.macFind fid da else none
  let lpm := if s.on (R.TABLES.KPROF_p.CTRL.LPM_EN p) then
      ((s.lpmHdr st p).bind fun ip => s.lpmKey h ip vrf).bind s.lpmFind else none
  let base := s.baseDec h st fid da p made lpm true
  let local_ := match hit with
    | some i => decide (bitsOf (s.row 1 i) 54 10 = s.ownSeat)
    | none => false
  let rule := if s.on (R.TABLES.KPROF_p.CTRL.RULE_EN p) ∧ 0 < s.ruleSize f.epoch then
      s.ruleFind f.epoch (s.ruleKey h f p fid hit.isSome local_ lpm.isSome) else none
  match rule with
  | some a => mergeAction base (s.row 0x20 a)
  | none => base

/-! ## Stream-filter lookup (R348, R349) -/

/-- The filter that the lookup finds: the lowest way of the set that meets R348. -/
def State.sfFind (s : State) (fid da tc : Nat) : Option Nat :=
  ((List.range 8).map fun w => crc32c (macKey fid da) % 2048 * 8 + w).find? fun i =>
    let r := s.row 0x30 i
    decide (bitsOf r 126 2 = 3 ∧ bitsOf r 114 12 = fid ∧ bitsOf r 66 48 = da ∧ (bitsOf r 65 1 = 0 ∨ bitsOf r 61 4 = tc))

/-! ## Learning (R219-R222) -/

/-- A learn request reaches the learn engine's queue of 256 (R220). -/
def State.askLearn (s : State) (l : Learn) : State :=
  if bitOf l.mac 40 then s
  else if 256 ≤ s.pipe.learn.length ∨ !s.macOn then
    (s.bump R.TABLES.LEARN_DROP.COUNT).setB R.TABLES.STICKY.LEARN_DROP_SEEN true
  else { s with pipe := { s.pipe with learn := s.pipe.learn ++ [l] } }

/-- The learn engine handles one request (R219, R220). -/
def State.learnOne (s : State) (l : Learn) : State :=
  match s.macFind l.fid l.mac with
  | some i =>
    let r := s.row 1 i
    if bitOf r 126 then s
    else
      let s1 := s.setRow 1 i ((r - bitsOf r 48 16 * 2 ^ 48 - bitsOf r 45 3 * 2 ^ 45) + l.seat * 2 ^ 54 + l.port * 2 ^ 48)
      if bitsOf r 54 10 = l.seat ∧ bitsOf r 48 6 = l.port then s1 else (s1.bump R.TABLES.MAC_MOVES.COUNT).raise 124
  | none =>
    match s.macFree (macSet l.fid l.mac) with
    | some i => ((s.setRow 1 i (macRow false l.fid l.mac l.seat l.port)).bump R.TABLES.LEARNS.COUNT).showMac
    | none =>
      (((s.bump R.TABLES.LEARN_FULL.COUNT).setB R.TABLES.STICKY.LEARN_FULL_SEEN true).detect 192).raise 122

/-- Removes the dynamic MAC entries that satisfy `p`. -/
def State.macRemove (s : State) (p : Nat → Bool) : State :=
  ((s.rowsOf 1).foldl (fun s e => if bitOf e.2 127 && !bitOf e.2 126 && p e.2 then s.setRow 1 e.1 0 else s) s).showMac

/-- A pass of the ager (R221). -/
def State.agePass (s : State) : State :=
  ((s.rowsOf 1).foldl (fun s e =>
    if bitOf e.2 127 && !bitOf e.2 126 then
      (if bitsOf e.2 45 3 < 4 then s.setRow 1 e.1 (e.2 + 2 ^ 45) else s.setRow 1 e.1 0)
    else s) s).showMac

end Sys2Proof.Machine
end

