-- ==== Sys2Proof/Machine/Editor.lean ====
section
/-! DEFINITION. The rewrite editor: templates, checksums, FRER, and the transparent clock (R288-R300). -/
namespace Sys2Proof.Machine

/-! ## FRER (R297, R298) -/

def State.frer (s : State) (n : Nat) : FrerSt := s.tm.frer.get FrerSt.init n
def State.setFrer (s : State) (n : Nat) (x : FrerSt) : State :=
  { s with tm := { s.tm with frer := s.tm.frer.put FrerSt.init n x } }

/-- Vector recovery of stream `n` on a sequence number: whether the frame passes (R298). -/
def State.recover (s : State) (n seq : Nat) : State × Bool :=
  let x := s.frer n
  let h : Int := s.eff R.EDIT.FRER_CFG.HISTORY
  let ok (x : FrerSt) : State × Bool := (s.setFrer n { x with passed := (x.passed + 1) % 2 ^ 32, lastPass := s.mono }, true)
  if x.takeAny then ok { x with rcv := seq, hist := 1, takeAny := false }
  else
    let d := signedOf 16 ((seq + 65536 - x.rcv) % 65536)
    if h ≤ d ∨ d ≤ -h then
      ((s.setFrer n { x with rogue := (x.rogue + 1) % 65536, discarded := (x.discarded + 1) % 2 ^ 32 }).setB R.EDIT.STICKY.FRER_ROGUE_SEEN true,
        false)
    else if d ≤ 0 then
      if x.hist.testBit (-d).toNat then (s.setFrer n { x with discarded := (x.discarded + 1) % 2 ^ 32 }, false)
      else ok { x with hist := x.hist ||| 2 ^ (-d).toNat }
    else
      ok { x with hist := (x.hist * 2 ^ d.toNat + 1) % 2 ^ 32, rcv := seq, lost := (x.lost + d.toNat - 1) % 2 ^ 32 }

/-! ## Slots (R290-R292) -/

def opOf (w : Nat) : Nat := bitsOf w 61 3
def anchorOf (w : Nat) : Nat := bitsOf w 58 3
def offsetOf (w : Nat) : Int := signedOf 10 (bitsOf w 42 10)
/-- The metadata selector of a slot, where it is a REPLACE of MODE 3. -/
def selectorOf (w : Nat) : Option Nat := if opOf w = 3 ∧ bitsOf w 32 2 = 3 then some (w % 16) else none
/-- A template holds a selector in an executed slot. -/
def State.tplHas (s : State) (t sel : Nat) : Bool := (s.tplSlots t).any fun w => decide (selectorOf w = some sel)
/-- The streams that a template generates numbers of. -/
def State.tplStreams (s : State) (t : Nat) : List Nat :=
  ((s.tplSlots t).filter fun w => decide (selectorOf w = some 2)).map fun w => bitsOf w 16 12

/-! ## The frame under edit -/

/-- One byte under edit: insert number (0 an original byte), offset within the insert or the frame, value, and deleted. -/
structure Atom where
  ins : Nat
  off : Nat
  b : Byte
  dead : Bool
  deriving DecidableEq, Repr

/-- The frame that a template works on: its bytes without FCS, whether its length is known, its stack, the end of headers and
the limit of R295. -/
structure EdIn where
  bytes : List Byte
  known : Bool
  stack : List Hdr
  eoh : Nat
  lim : Nat
  deriving DecidableEq, Repr

/-- A template under execution: the bytes below the limit, the inserts so far with the length of the last one, the changes
that REPLACEs made to original bytes (position, old, new, made by the lane island), skips, a fault, a FRER discard, and the
state. -/
structure EdSt where
  atoms : List Atom
  count : Nat
  recent : Nat
  /-- the changes of original bytes that each REPLACE made: whether it is the correction of R300, and position, old and new byte -/
  log : List (Bool × List (Nat × Byte × Byte))
  skips : Nat
  fault : Bool
  drop : Bool
  s : State
  deriving DecidableEq, Repr

/-- What surrounds a template: the frame, its copy, EDIT_DATA, the egress timestamp where a lane island takes one, and the
frame's final bytes for LENGTH (none in the first walk, which only finds them). -/
structure EdEnv where
  inp : EdIn
  tpl : Nat
  data : Nat
  frm : Frm
  copy : Copy
  tx : Option (Nat × Nat × Nat)
  final : Option (List Atom)
  deriving DecidableEq, Repr

/-- Where an anchor stands: none where its header is absent; some none where it is a fault. -/
def EdEnv.anchor (v : EdEnv) (e : EdSt) (w : Nat) : Option (Option (Nat × Nat)) :=
  match anchorOf w with
  | 0 => some (some (0, 0))
  | 1 => (firstHdr v.inp.stack (bitsOf w 52 6)).map fun h => some (0, h.start)
  | 2 => (lastHdr v.inp.stack (bitsOf w 52 6)).map fun h => some (0, h.start)
  | 3 => some (some (0, v.inp.eoh))
  | _ => if e.count = 0 then some none else some (some (e.count, 0))

/-- `n` bytes from offset `o` of an original frame or of the last insert may be addressed (R295). -/
def EdEnv.legal (v : EdEnv) (e : EdSt) (k : Nat) (o : Int) (n : Nat) : Bool :=
  decide (0 ≤ o) &&
    (if k = 0 then decide (o + n ≤ v.inp.lim) && (!v.inp.known || decide (o + n ≤ v.inp.bytes.length))
     else decide (o + n ≤ e.recent))

/-- The bytes now at `n` places from offset `o`. -/
def EdSt.read (e : EdSt) (k o n : Nat) : List Byte :=
  (List.range n).map fun i => match e.atoms.find? fun a => decide (a.ins = k ∧ a.off = o + i) with
    | some a => a.b
    | none => 0

/-- Writes bytes at places from offset `o`; a deleted byte keeps its value (R291).  Changes of original bytes are logged. -/
def EdSt.write (e : EdSt) (k o : Nat) (l : List Byte) (lane : Bool) : EdSt :=
  let hit (a : Atom) : Bool := decide (a.ins = k ∧ o ≤ a.off ∧ a.off < o + l.length) && !a.dead
  let new (a : Atom) : Byte := l.getD (a.off - o) 0
  { e with
    log := e.log ++ (if k = 0 then [(lane, (e.atoms.filter fun a => hit a && decide (a.b ≠ new a)).map fun a => (a.off, a.b, new a))] else [])
    atoms := e.atoms.map fun a => if hit a then { a with b := new a } else a }

/-- Bytes put before the byte at a place. -/
def insertAt (new : List Atom) (k o : Nat) : List Atom → List Atom
  | [] => new
  | a :: t => if a.ins = k ∧ a.off = o then new ++ a :: t else a :: insertAt new k o t

/-- Live bytes from a place to the end of the edited frame. -/
def EdEnv.tailLen (v : EdEnv) (l : List Atom) (k o : Nat) : Nat :=
  let rest := v.inp.bytes.length - min v.inp.lim v.inp.bytes.length
  if k = 0 ∧ min v.inp.lim v.inp.bytes.length ≤ o then v.inp.bytes.length - o
  else ((l.dropWhile fun a => !decide (a.ins = k ∧ a.off = o)).filter fun a => !a.dead).length + rest

/-! ## Operations -/

/-- INSERT (R291). -/
def EdEnv.insert (v : EdEnv) (e : EdSt) (w k : Nat) (o : Int) : EdSt :=
  let n := bitsOf w 35 7
  let bytes := match bitsOf w 33 2 with
    | 0 => slice (beBytes 128 (e.s.row 0x40 v.tpl)) (w % 128) n
    | 1 => slice (beBytes 20 v.data) (w % 32) n
    | _ => beBytes n (w % 2 ^ 32)
  if !v.legal e k o 1 then { e with fault := true }
  else
    let new := (List.range n).map fun i => ({ ins := e.count + 1, off := i, b := bytes.getD i 0, dead := false } : Atom)
    { e with atoms := insertAt new k o.toNat e.atoms, count := e.count + 1, recent := n }

/-- DELETE (R291, R295): original bytes only. -/
def EdEnv.delete (v : EdEnv) (e : EdSt) (w : Nat) (o : Int) : EdSt :=
  let span : Option Nat :=
    if bitOf w 41 then
      (v.inp.stack.find? fun h => decide (h.typ = bitsOf w 26 6) && decide (o ≤ h.start)).map fun h => ((h.stop : Int) - o).toNat
    else some (bitsOf w 32 9)
  match span with
  | none => { e with skips := e.skips + 1 }
  | some n =>
    if !v.legal e 0 o n then { e with fault := true }
    else { e with atoms := e.atoms.map fun a => if a.ins = 0 ∧ o.toNat ≤ a.off ∧ a.off < o.toNat + n then { a with dead := true } else a }

/-- The value that a metadata selector writes (R292). -/
def EdEnv.meta (v : EdEnv) (e : EdSt) (w sel k anchor : Nat) : Nat :=
  match sel with
  | 0 =>
    match v.final with
    | some l => codeOf 16 ((v.tailLen l k anchor : Int) + signedOf 16 (bitsOf w 16 16))
    | none => 0
  | 1 => v.frm.hash
  | 2 => ((v.copy.gen.find? fun g => decide (g.1 = bitsOf w 16 12)).map (·.2)).getD 0
  | 3 => e.s.fld (R.EDIT.PCP_REMARK_k.PCP (v.copy.q / 8) (v.copy.q % 8))
  | 4 => e.s.fld (R.EDIT.DSCP_REMARK_k.DSCP (v.copy.q / 4) (v.copy.q % 4))
  | _ =>
    -- entry seat and port: of this seat's own ports, or of a flood's shim; of any other frame the spec gives none (free values)
    let own := decide (v.frm.src < 48)
    let flood := match v.frm.shim with
      | some x => bitOf x 5
      | none => false
    let shim := v.frm.shim.getD 0
    let seat := if own then e.s.ownSeat else if flood then bitsOf shim 54 10 else e.s.freeNow % 2 ^ 10
    let port := if own then v.frm.src else if flood then bitsOf shim 48 6 else e.s.freeNow / 2 ^ 10 % 2 ^ 6
    seat * 2 ^ 22 + port * 2 ^ 16 + v.frm.tc * 2 ^ 12 + v.frm.dp * 2 ^ 10 + b2n v.frm.marked * 2 ^ 9 + v.frm.parsed.outcome * 2 ^ 6

/-- The correction of the transparent clock at a place (R300); none where the frame has no ingress timestamp. -/
def EdEnv.correct (v : EdEnv) (e : EdSt) (k : Nat) (o : Int) : EdSt :=
  match v.frm.ts with
  | none => { e with skips := e.skips + 1 }
  | some rx =>
    if !v.legal e k o 8 then { e with fault := true }
    else
      match v.tx with
      | none => e
      | some tx =>
        let old := ofBe (e.read k o.toNat 8)
        e.write k o.toNat (beBytes 8 (codeOf 64 ((old : Int) + e.s.residence rx tx * 65536))) true

/-- REPLACE (R291, R292). -/
def EdEnv.replace (v : EdEnv) (e : EdSt) (w k anchor : Nat) (o : Int) : EdSt :=
  let bit := bitsOf w 39 3
  let wd := bitsOf w 34 5 + 1
  let n := (bit + wd + 7) / 8
  match selectorOf w with
  | some 5 => v.correct e k o
  | sel =>
    if !v.legal e k o n then { e with fault := true }
    else
      let old := ofBe (e.read k o.toNat n)
      let sh := 8 * n - bit - wd
      let field := old / 2 ^ sh % 2 ^ wd
      if sel = some 6 then
        match v.final with
        | some _ =>
          let r := e.s.recover (bitsOf w 16 12) field
          { e with s := r.1, drop := e.drop || !r.2 }
        | none => e
      else
        let new := (match bitsOf w 32 2 with
          | 0 => w % 2 ^ 32
          | 1 => bitsOf v.data (160 - w % 256 - wd) wd
          | 2 => field + w % 2 ^ 32
          | _ => v.meta e w (sel.getD 0) k anchor) % 2 ^ wd
        e.write k o.toNat (beBytes n (old - field * 2 ^ sh + new * 2 ^ sh)) false

/-- The incremental update of a checksum by the changes of each REPLACE (RFC 1624, R293): ~m + m' for every changed 16-bit word,
aligned from `start`; the bytes of a word that keep their value cancel. -/
def csumUpdate (hc : Nat) (start : Int) (l : List (List (Nat × Byte × Byte))) : Nat :=
  let word (c : Nat × Byte × Byte) : Nat := ((c.1 : Int) - start).toNat / 2
  let high (c : Nat × Byte × Byte) : Nat := if ((c.1 : Int) - start).toNat % 2 = 0 then 256 else 1
  let sum := l.foldl (fun a r => ((r.map word).eraseDups).foldl (fun a w =>
    (r.filter fun c => decide (word c = w)).foldl (fun a c => a + c.2.2.toNat * high c - c.2.1.toNat * high c) (a + 65535)) a) (65535 - hc)
  65535 - fold16 (sum % 65536 + sum / 65536)

/-- FIX_CSUM (R293, R295). -/
def EdEnv.fixCsum (v : EdEnv) (e : EdSt) (w k : Nat) (o : Int) : EdSt :=
  let kind := bitsOf w 39 3
  let co := bitsOf w 33 6
  let p := o.toNat
  let h : PHead := { bytes := v.inp.bytes, len := none }
  let field := (o + co).toNat
  if !v.legal e k (o + co) 2 || (decide (kind ≤ 1) && decide (k ≠ 0)) then { e with fault := true }
  else
    let hc := ofBe (e.read k field 2)
    let put (e : EdSt) (x : Nat) : EdSt :=
      { e with atoms := (e.write k field (beBytes 2 x) false).atoms }
    let changes (g : Nat → Bool) : List (List (Nat × Byte × Byte)) := e.log.map fun r => r.2.filter fun c => g c.1
    -- a header that starts before the frame shows no IHL
    let ihl := if o < 0 then 0 else (e.read k p 1).foldl (fun _ b => b.toNat % 16 * 4) 0
    match kind with
    | 0 => put e (csumUpdate hc o ((e.log.filter fun r => !r.1).map fun r => r.2.filter fun c => decide (p ≤ c.1 ∧ c.1 < p + ihl)))
    | 1 =>
      let below := v.inp.stack.filter fun d => decide (d.start < p)
      let stop := (h.ipEnd below).getD (if v.inp.known then v.inp.bytes.length else 65536)
      let held := e.atoms.any (fun a => decide (a.ins = 0 ∧ p ≤ a.off ∧ a.off < stop) && a.dead) ||
        ((e.atoms.dropWhile fun a => !decide (a.ins = 0 ∧ a.off = p)).takeWhile fun a => !decide (a.ins = 0 ∧ stop ≤ a.off + 1)).any
          fun a => decide (a.ins ≠ 0)
      if held then { e with fault := true }
      else
        let v4 := e.s.hV4
        let ip := below.reverse.find? fun d => decide (d.typ = v4 ∨ d.typ = e.s.hV6)
        let own := changes fun c => decide (p ≤ c ∧ c < stop)
        let adr := match ip with
          | some d => changes fun c =>
              if d.typ = v4 then decide (d.start + 12 ≤ c ∧ c < d.start + 20) else decide (d.start + 8 ≤ c ∧ c < d.start + 40)
          | none => []
        let start2 := match ip with
          | some d => d.start
          | none => 0
        let x := csumUpdate (csumUpdate hc o own) start2 adr
        if co = 6 then
          (if hc = 0 ∧ (ip.map (·.typ)) = some v4 then e else put e (if x = 0 then 65535 else x))
        else put e x
    | 2 =>
      if !v.legal e k o ihl then { e with fault := true }
      else
        let z := e.write k field [0, 0] false
        put e (65535 - fold16 (sum16 (z.read k p ihl)))
    | _ => put e 0

/-- One slot. -/
def EdEnv.slot (v : EdEnv) (e : EdSt) (w : Nat) : EdSt :=
  if e.fault || e.drop then e
  else
    match v.anchor e w with
    | none => { e with skips := e.skips + 1 }
    | some none => { e with fault := true }
    | some (some (k, a)) =>
      let o := (a : Int) + offsetOf w
      match opOf w with
      | 1 => v.insert e w k o
      | 2 => v.delete e w o
      | 3 => v.replace e w k a o
      | _ => v.fixCsum e w k o

/-- A walk through the template. -/
def EdEnv.walk (v : EdEnv) (s : State) : EdSt :=
  let n := min v.inp.lim v.inp.bytes.length
  let init : EdSt :=
    { atoms := ((v.inp.bytes.take n).zip (List.range n)).map fun e => { ins := 0, off := e.2, b := e.1, dead := false },
      count := 0, recent := 0, log := [], skips := 0, fault := false, drop := false, s := s }
  (s.tplSlots v.tpl).foldl v.slot init

/-! ## Templates of a copy (R288, R291) -/

/-- Where original byte `p` stands in the edited frame. -/
def EdIn.map (i : EdIn) (l : List Atom) (p : Nat) : Nat :=
  let n := min i.lim i.bytes.length
  let live (l : List Atom) : Nat := (l.filter fun a => !a.dead).length
  if n ≤ p then live l + (p - n) else live (l.takeWhile fun a => !decide (a.ins = 0 ∧ a.off = p))

/-- The edited frame, with the parse stack mapped onto it. -/
def EdIn.after (i : EdIn) (l : List Atom) : EdIn :=
  let n := min i.lim i.bytes.length
  { bytes := (l.filter fun a => !a.dead).map (·.b) ++ i.bytes.drop n
    known := i.known
    stack := (i.stack.filter fun h => !l.any fun a => decide (a.ins = 0 ∧ h.start ≤ a.off ∧ a.off < h.stop) && a.dead).map fun h =>
      { h with start := i.map l h.start, stop := if h.stop ≤ h.start then i.map l h.start else i.map l (h.stop - 1) + 1 }
    eoh := i.map l i.eoh
    lim := i.map l i.lim }

/-- How editing ends: the frame, or a discard. -/
inductive Edited where
  | frame (e : EdIn)
  | discard
  deriving DecidableEq, Repr

/-- Applies one template (R290-R300): skips and faults are counted, and a fault or a recovered duplicate discards the frame. -/
def State.applyTpl (s : State) (i : EdIn) (t data : Nat) (f : Frm) (c : Copy) (tx : Option (Nat × Nat × Nat)) : State × Edited :=
  let v : EdEnv := { inp := i, tpl := t, data := data, frm := f, copy := c, tx := tx, final := none }
  let a := v.walk s
  let b := { v with final := some a.atoms }.walk s
  let s0 := if s.tplHas t 7 && decide (48 ≤ f.src) then b.s.usedFree else b.s
  let s1 := s0.add R.EDIT.EDIT_SKIPS.COUNT b.skips
  if b.fault then ((s1.bump R.EDIT.EDIT_FAULTS.COUNT).setB R.EDIT.STICKY.EDIT_FAULT_SEEN true, .discard)
  else if b.drop then (s1, .discard)
  else (s1, .frame (i.after b.atoms))

/-- The frame of a copy as it reaches the editor: cut to TRUNC where it is a mirror copy (R301). -/
def State.edIn (s : State) (f : Frm) (c : Copy) : EdIn :=
  let all := match f.len with
    | some l => (s.frameBytes f).take (l - 4)
    | none => s.frameBytes f
  { bytes := if c.trunc = 0 then all else all.take (c.trunc - 4), known := f.len.isSome || decide (c.trunc ≠ 0),
    stack := f.parsed.stack, eoh := f.parsed.eoh, lim := 384 }

/-- The edits of a copy at its egress: its own template, then the port template (R288). -/
def State.edit (s : State) (f : Frm) (c : Copy) (tx : Option (Nat × Nat × Nat)) (port : Bool) : State × Edited :=
  let own := match c.tpl with
    | some (t, d) => s.applyTpl (s.edIn f c) t d f c tx
    | none => (s, .frame (s.edIn f c))
  match own, if port then s.portTpl c.port else none with
  | (s1, .frame i), some t => s1.applyTpl i t 0 f c tx
  | r, _ => r

end Sys2Proof.Machine
end

