-- ==== Sys2Proof/Machine/FlowEng.lean ====
section
/-! DEFINITION. The flow engine: keys and hashes, buckets, records, the flow cache, lookups, inserts, placement, expiry and
export, and what a record does to a frame (R236-R287). -/
namespace Sys2Proof.Machine

/-! ## Regions (R236, R237) -/

def bucketBase : Nat := 0x1000000000
def recordBase : Nat := 0x1080000000
/-- P: records of a slice, and the base of the allocation bitmap. -/
def State.perSlice (s : State) : Nat :=
  match s.variant with
  | .v32 => 2 ^ 24
  | .v16 => 2 ^ 23
def State.bitmapBase (s : State) : Nat := recordBase + 4 * s.perSlice * 128
def bucketAddr (b : Nat) : Nat := bucketBase + 64 * b
def recordAddr (r : Nat) : Nat := recordBase + 128 * r
def State.sliceOfRec (s : State) (r : Nat) : Nat := r / s.perSlice

/-- Bit r of the allocation bitmap, bit r mod 8 of its byte. -/
def State.inUse (s : State) (r : Nat) : Bool := (s.byteAt (s.bitmapBase + r / 8)).toNat.testBit (r % 8)
def State.setInUse (s : State) (r : Nat) (b : Bool) : State :=
  let a := s.bitmapBase + r / 8
  let v := (s.byteAt a).toNat
  s.putByte a (BitVec.ofNat 8 (if b then v ||| 2 ^ (r % 8) else v &&& (255 - 2 ^ (r % 8))))

/-! ## Keys (R239-R241) -/

/-- A flow key profile row (R239). -/
def State.prof (s : State) (p : Nat) : Nat := s.row 0x60 p
def profKind (w : Nat) : Nat := bitsOf w 495 4
def profMiss (w : Nat) : Nat := bitsOf w 468 2
def profExport (w : Nat) : Bool := bitOf w 494
/-- Extractor `k`. -/
def profExt (w k : Nat) : Nat := bitsOf w (32 * (7 - k)) 32

/-- The bytes that an extractor takes, with whether every one was available. -/
def PHead.extract (h : PHead) (st : List Hdr) (e : Nat) : List Byte × Bool :=
  let n := bitsOf e 10 5
  match if bitOf e 30 then lastHdr st (bitsOf e 24 6) else firstHdr st (bitsOf e 24 6) with
  | some d =>
    let a := d.start + bitsOf e 15 9
    ((List.range n).map fun i => h.bytes.getD (a + i) 0, h.avail (a + n))
  | none => (List.replicate n 0, false)

/-- The key of a frame under profile `p`, and its swap decision (R240); none where the result is NO_KEY. -/
def State.flowKey (s : State) (h : PHead) (f : Frm) (p vrf : Nat) : Option (List Byte × Bool) :=
  let w := s.prof p
  if !bitOf w 511 then none
  else
    let exts := ((List.range 8).filter fun k => bitOf (profExt w k) 31).map fun k => h.extract f.parsed.stack (profExt w k)
    if bitOf w 507 ∧ exts.any (fun e => !e.2) then none
    else
      let b (k : Nat) : List Byte := (exts.getD k ([], true)).1
      let swap := bitOf w 510 && decide (ofBe (b 1 ++ b 3) < ofBe (b 0 ++ b 2))
      let body := if swap then b 1 ++ b 0 ++ b 3 ++ b 2 ++ (exts.drop 4).flatMap (·.1) else exts.flatMap (·.1)
      some ((if bitOf w 509 then [BitVec.ofNat 8 f.src] else []) ++ (if bitOf w 508 then beBytes 2 vrf else []) ++ body, swap)

/-- The key area (R241). -/
def keyArea (p : Nat) (key : List Byte) : List Byte :=
  ([BitVec.ofNat 8 p, BitVec.ofNat 8 key.length] ++ key ++ List.replicate 46 0).take 48
def hashA (k : List Byte) : Nat := crc32c k
def hashB (k : List Byte) : Nat := crc32 k
def sliceOf (k : List Byte) : Nat := hashA k / 2 ^ 30
def bucketA (k : List Byte) : Nat := sliceOf k * 2 ^ 23 + hashA k % 2 ^ 23
def bucketB (k : List Byte) : Nat :=
  let b := sliceOf k * 2 ^ 23 + hashB k % 2 ^ 23
  if b = bucketA k then bucketA k ^^^ 1 else b
def fingerprint (k : List Byte) : Nat := hashA k ^^^ ((hashB k * 65536 % 2 ^ 32) + hashB k / 65536)
def setOf (k : List Byte) : Nat := hashA k % 4096

/-! ## Slots (R242) -/

def State.slot (s : State) (b k : Nat) : Nat := ofLe (s.bytesAt (bucketAddr b + 16 * k) 16)
def State.setSlot (s : State) (b k v : Nat) : State := s.memPut (bucketAddr b + 16 * k) (leBytes 16 v)
def slotFp (w : Nat) : Nat := bitsOf w 96 32
def slotRec (w : Nat) : Nat := bitsOf w 69 27
def slotAlt (w : Nat) : Nat := bitsOf w 44 25
def slotProf (w : Nat) : Nat := bitsOf w 40 4
def slotState (w : Nat) : Nat := bitsOf w 37 3
def mkSlot (fp r alt p : Nat) : Nat := fp * 2 ^ 96 + r * 2 ^ 69 + alt * 2 ^ 44 + p * 2 ^ 40 + 2 ^ 37
/-- A FREE slot of a bucket. -/
def State.freeSlot (s : State) (b : Nat) : Option Nat :=
  (List.range 4).find? fun k => decide (slotState (s.slot b k) = 0)

/-! ## Records (R243) and the flow cache (R252) -/

/-- The place in the cache of a record, where it is cached. -/
def State.cachedAt (s : State) (r : Nat) : Option (Nat × CacheE) :=
  (s.flow.cache.findSome? fun e => match e.2 with
    | some c => if c.index = r then some (e.1, c) else none
    | none => none)
def State.setCache (s : State) (k : Nat) (c : Option CacheE) : State :=
  { s with flow := { s.flow with cache := s.flow.cache.put none k c } }

/-- The 128 bytes of a record: the cached copy where one exists (R252). -/
def State.record (s : State) (r : Nat) : List Byte :=
  match s.cachedAt r with
  | some e => e.2.bytes
  | none => s.bytesAt (recordAddr r) 128
/-- Writes a record whole (R244). -/
def State.setRecord (s : State) (r : Nat) (b : List Byte) : State :=
  match s.cachedAt r with
  | some e => s.setCache e.1 (some { e.2 with bytes := b, dirty := true })
  | none => s.memPut (recordAddr r) b

/-- Replaces `n` bytes of a record at an offset. -/
def patch (l : List Byte) (o : Nat) (b : List Byte) : List Byte := l.take o ++ b ++ l.drop (o + b.length)

/-- A dirty cached record is written to DRAM (R252). -/
def State.writeBack (s : State) (k : Nat) : State :=
  match s.flow.cache.get none k with
  | some c => if c.dirty then (s.memPut (recordAddr c.index) c.bytes).setCache k (some { c with dirty := false }) else s
  | none => s

/-- The ways that may take a record: the halves that are enabled (R253). -/
def State.ways (s : State) : List Nat :=
  (List.range 8).filter fun w => s.bit R.FLOW.CTRL.CACHE_EN (w / 4) && s.domOn (141 + w / 4)

/-- Tree pseudo-LRU over 8 ways: the bits after a use of way `w`, and the victim among enabled ways. -/
def plruTouch (b w : Nat) : Nat :=
  let set (b i : Nat) (v : Bool) : Nat := if v then b ||| 2 ^ i else b &&& (127 - 2 ^ i)
  set (set (set b 0 (decide (w < 4))) (1 + w / 4) (decide (w % 4 < 2))) (3 + w / 2) (decide (w % 2 = 0))
def plruVictim (b : Nat) (ws : List Nat) : Nat :=
  let half := if ws.all (fun w => decide (w < 4)) then 0 else if ws.all (fun w => decide (4 ≤ w)) then 1 else bitsOf b 0 1
  let pair := bitsOf b (1 + half) 1
  half * 4 + pair * 2 + bitsOf b (3 + half * 2 + pair) 1

/-- A record enters the flow cache; a dirty victim is written back.  With no way enabled it is written to DRAM. -/
def State.cacheIn (s : State) (key : List Byte) (r : Nat) (b : List Byte) (dirty : Bool) : State :=
  let base := sliceOf key * 32768 + setOf key * 8
  match s.ways with
  | [] => if dirty then s.memPut (recordAddr r) b else s
  | ws =>
    let bits := s.flow.plru.get 0 (sliceOf key * 4096 + setOf key)
    let w := match ws.find? fun w => decide (s.flow.cache.get none (base + w) = none) with
      | some w => w
      | none => plruVictim bits ws
    let s1 := (s.writeBack (base + w)).setCache (base + w) (some { index := r, dirty := dirty, bytes := b })
    { s1 with flow := { s1.flow with plru := s1.flow.plru.put 0 (sliceOf key * 4096 + setOf key) (plruTouch bits w) } }

/-- The cached record of a key (R252). -/
def State.cacheFind (s : State) (key : List Byte) : Option (Nat × CacheE) :=
  let base := sliceOf key * 32768 + setOf key * 8
  s.ways.findSome? fun w => match s.flow.cache.get none (base + w) with
    | some c => if c.bytes.take 48 = key then some (base + w, c) else none
    | none => none
/-- A use of a cached place. -/
def State.cacheTouch (s : State) (k : Nat) : State :=
  { s with flow := { s.flow with plru := s.flow.plru.put 0 (k / 8) (plruTouch (s.flow.plru.get 0 (k / 8)) (k % 8)) } }

/-! ## Sticky status of the slices (R262) -/

/-- Shows the stash of a slice; reaching the threshold raises F200 and event 125 (R261). -/
def State.showStash (s : State) (i : Nat) : State :=
  let n := (s.slc i).stash.length
  let s1 := s.set (R.FLOW.SLICE_s_STASH.COUNT i) n
  let high := decide (s.eff R.FLOW.STASH_TH.TH ≤ n)
  let s2 := s1.flowStatus R.FLOW.STATUS.STASH_HIGH i 4 high
  let s3 := s2.level 200 (decide (s2.fld R.FLOW.STATUS.STASH_HIGH ≠ 0))
  if high && !s.bit R.FLOW.STATUS.STASH_HIGH i then s3.raise 125 else s3

/-- Adds to the records in use of a slice; a full partition raises F201 and event 125 (R261). -/
def State.addRecords (s : State) (i : Nat) (d : Int) : State :=
  let n := ((s.fld (R.FLOW.SLICE_s_RECORDS.COUNT i) : Int) + d).toNat
  let s1 := s.set (R.FLOW.SLICE_s_RECORDS.COUNT i) n
  let full := decide (s.perSlice ≤ n)
  let s2 := s1.flowStatus R.FLOW.STATUS.FULL i 0 full
  let s3 := s2.level 201 (decide (s2.fld R.FLOW.STATUS.FULL ≠ 0))
  if full && !s.bit R.FLOW.STATUS.FULL i then s3.raise 125 else s3

/-! ## Poison and quarantine (R254) -/

/-- An uncorrectable block of DRAM lies within `n` bytes at `a` (R521). -/
def State.badBlock (s : State) (a n : Nat) : Bool := s.dram.hard.any fun b => decide (64 * b < a + n ∧ a < 64 * b + 64)
def State.poisoned (s : State) (b : Nat) : Bool := decide (b ∈ (s.slc (b / 2 ^ 23)).poison)
/-- A read of a bucket fails: its block is uncorrectable (R521), or a slot carries a reserved STATE (R242). -/
def State.badBucket (s : State) (b : Nat) : Bool :=
  s.badBlock (bucketAddr b) 64 || (List.range 4).any fun k => decide (2 ≤ slotState (s.slot b k))
/-- A bucket is poisoned (R254). -/
def State.poison (s : State) (b : Nat) : State :=
  let i := b / 2 ^ 23
  if s.poisoned b then s
  else if 16 ≤ (s.slc i).poison.length then (s.detect 204).raise 127
  else
    let s1 := s.modSlice i fun x => { x with poison := x.poison ++ [b] }
    ((s1.set (R.FLOW.SLICE_s_POISON.COUNT i) (s1.slc i).poison.length).detect 203).raise 127
/-- The reports of a quarantine: the record's slot is cleared, and its bitmap bit stays set (R254). -/
def State.quarantined (s : State) : State := ((s.bump R.FLOW.QUARANTINED.COUNT).detect 202).raise 127
/-- The record of slot `k` of a bucket is quarantined. -/
def State.quarantine (s : State) (b k : Nat) : State := (s.setSlot b k 0).quarantined
/-- The record of a stash entry is quarantined. -/
def State.quarantineStash (s : State) (i r : Nat) : State :=
  ((s.modSlice i fun x => { x with stash := x.stash.filter fun e => decide (e.index ≠ r) }).showStash i).quarantined

/-! ## Inserts (R249, R268, R272, R274) -/

/-- Gate-time seconds x 2^32 + nanoseconds (R243). -/
def State.flowNow (s : State) : Nat := let c := s.clk s.gateInst; c.sec % 2 ^ 32 * 2 ^ 32 + c.ns
/-- Elapsed milliseconds since power-up (R243). -/
def State.monoMs (s : State) : Nat := s.mono / 1000000 % 2 ^ 32

/-- A new record (R243, R279). -/
def State.newRecord (s : State) (key act : List Byte) : List Byte :=
  key ++ act ++ List.replicate 16 0 ++ leBytes 8 s.flowNow ++ leBytes 8 s.flowNow ++
    [0, 1, 0] ++ leBytes 4 0xFFFFFFFF ++ leBytes 4 0 ++ [0] ++ leBytes 4 s.monoMs

/-- The first free port of NAT pool `k` from a start (R268); `fuel` ports are left. -/
def State.natPort (s : State) (k low high : Nat) : Nat → Nat → Option Nat
  | 0, _ => none
  | fuel + 1, p =>
    let q := if high < p then low else p
    if s.flow.ports.get false (k * 65536 + q) then s.natPort k low high fuel (q + 1) else some q

/-- The member that R274 chooses for a flow hash: the highest score, the lower member on a tie. -/
def State.lbPick (s : State) (g hash : Nat) : Option Nat :=
  ((List.range 16).filter fun j => s.bit (R.FLOW.LB_g.VALID g) j).foldl (fun (a : Option Nat) j =>
    let score (j : Nat) : Nat := crc32c (beBytes 2 hash ++ [BitVec.ofNat 8 g, BitVec.ofNat 8 j])
    match a with
    | none => some j
    | some b => if score b < score j then some j else some b) none

/-- The mask of an R-NAT map, and the translation of an address, where the map applies (R272). -/
def State.rnat (s : State) (m dir addr : Nat) : Option Nat :=
  let len := s.eff (R.FLOW.RNAT_m.LEN.LEN m)
  let msk := 2 ^ 32 - 2 ^ (32 - len)
  let inn := s.fld (if dir = 0 then R.FLOW.RNAT_m.LOCAL.PREFIX m else R.FLOW.RNAT_m.TRAIN.PREFIX m)
  let out := s.fld (if dir = 0 then R.FLOW.RNAT_m.TRAIN.PREFIX m else R.FLOW.RNAT_m.LOCAL.PREFIX m)
  if len = 0 ∨ 32 < len then none
  else if addr &&& msk = inn then some ((addr % 2 ^ (32 - len)) ||| out) else none

/-- TCP flags of a frame: byte 13 of the last header of type `FLOW.TCP.HTYPE`; none where it is not TCP (R276). -/
def State.tcpFlags (s : State) (h : PHead) (st : List Hdr) : Option Nat :=
  (lastHdr st (s.fld R.FLOW.TCP.HTYPE)).map fun d => h.at (d.start + 13)

/-- The new address of a frame under an RNAT profile, none where its map does not apply (R272). -/
def State.rnatOf (s : State) (h : PHead) (f : Frm) (p : Nat) : Option Nat :=
  let dir := s.fld (R.FLOW.KPARAM_p.DIR p)
  (firstHdr f.parsed.stack s.hV4).bind fun d =>
    s.rnat (s.fld (R.FLOW.KPARAM_p.SET p) % 4) dir (h.be (d.start + (if dir = 0 then 12 else 16)) 4)

/-- The kind of a profile makes no record of the frame, whatever room the slice has: NAPT of a frame other than IPv4 with TCP or UDP (R271;
DEDUCED, log 84), RNAT outside its map (R272), LB without a valid member (R275). -/
def State.noRecord (s : State) (h : PHead) (f : Frm) (p : Nat) (key : List Byte) : Bool :=
  match profKind (s.prof p) with
  | 1 => (firstHdr f.parsed.stack s.hV4).isNone || !decide (beAt key 10 1 = 6 ∨ beAt key 10 1 = 17)
  | 3 => (s.rnatOf h f p).isNone
  | 4 => (s.lbPick (s.fld (R.FLOW.KPARAM_p.SET p)) (hashA key % 65536)).isNone
  | _ => false

/-- What an insert of a kind starts from (R267, R272, R274, R277): its action state with the state after; none where the NAT pool holds no
free port (R268). -/
def State.actionInit (s : State) (h : PHead) (f : Frm) (p : Nat) (key : List Byte) (swap : Bool) : Option (State × List Byte) :=
  let set := s.fld (R.FLOW.KPARAM_p.SET p)
  match profKind (s.prof p) with
  | 1 =>
    let low := s.fld (R.FLOW.NATPOOL_k.PORTS.LOW set)
    let high := s.fld (R.FLOW.NATPOOL_k.PORTS.HIGH set)
    let n := high - low + 1
    match s.natPort set low high n (low + hashA key % 65536 % n) with
    | none => none
    | some q =>
      let s1 := { s with flow := { s.flow with ports := s.flow.ports.put false (set * 65536 + q) true } }
      some (s1, leBytes 4 0 ++ leBytes 4 (s.fld (R.FLOW.NATPOOL_k.ADDR.ADDR set)) ++ leBytes 2 q ++
        [BitVec.ofNat 8 set, 0] ++ List.replicate 20 0)
  | 3 => (s.rnatOf h f p).map fun a => (s, leBytes 4 0 ++ leBytes 4 a ++ leBytes 2 0 ++
      [BitVec.ofNat 8 (set % 4), BitVec.ofNat 8 (s.fld (R.FLOW.KPARAM_p.DIR p))] ++ List.replicate 20 0)
  | 4 => (s.lbPick set (hashA key % 65536)).map fun j => (s, [BitVec.ofNat 8 j, BitVec.ofNat 8 set] ++ List.replicate 30 0)
  | 5 =>
    let st : Nat := match s.tcpFlags h f.parsed.stack with
      | none => 7
      | some g => if g.testBit 1 ∧ ¬ g.testBit 4 ∧ ¬ g.testBit 2 then 1 else 3
    some (s, [BitVec.ofNat 8 st, BitVec.ofNat 8 (b2n swap), 0, 0] ++ List.replicate 28 0)
  | _ => some (s, List.replicate 32 0)

/-- Creates a record and its stash entry: the commit of an insert (R249). -/
def State.create (s : State) (i : Nat) (key act : List Byte) (p : Nat) (swap : Bool) : State × Nat :=
  match (s.slc i).free with
  | [] => (s, 0)
  | r :: rest =>
    let e : StashE := { fp := fingerprint key, index := r, a := bucketA key, b := bucketB key, prof := p }
    let s1 := s.modSlice i fun x => { x with free := rest, stash := x.stash ++ [e] }
    let s2 := (s1.cacheIn key r (s1.newRecord key act) true).addRecords i 1
    ({ s2 with flow := { s2.flow with hidden := s2.flow.hidden.put (0, false) r (0, swap) } }.showStash i, r)

/-- The slice can take one more record: room in the stash, in the partition and in the free-index queue (R249). -/
def State.hasRoom (s : State) (i : Nat) : Bool :=
  decide ((s.slc i).stash.length < 4096) && decide (s.fld (R.FLOW.SLICE_s_RECORDS.COUNT i) < s.perSlice) &&
    !(s.slc i).free.isEmpty

/-- An insert of a frame's flow (R249): the result of R246 and the record. -/
def State.insertFlow (s : State) (h : PHead) (f : Frm) (p : Nat) (key : List Byte) (swap : Bool) : State × Nat × Nat :=
  let i := sliceOf key
  if s.poisoned (bucketA key) || s.poisoned (bucketB key) then (s, 9, 0)
  else if s.noRecord h f p key then ((if profKind (s.prof p) = 4 then s.detect 211 else s), 5, 0)
  else if !s.hasRoom i || s.deferring i then (s, 4, 0)
  else
    match s.actionInit h f p key swap with
    | none => ((s.bump R.FLOW.NAT_EXHAUST.COUNT).detect 208, 4, 0)
    | some (s1, act) =>
      let c := s1.create i key act p swap
      if profKind (s.prof p) = 1 then
        let ext := fun (k n : Nat) => slice key (2 + k) n
        let tw := s.fld (R.FLOW.KPARAM_p.TWIN p)
        let addr := beAt key 2 4
        let port := beAt key 11 2
        let nat := slice act 4 4
        let t : Twin := { fwd := c.2,
                          key := keyArea tw (ext 4 4 ++ List.reverse nat ++ ext 8 1 ++ ext 11 2 ++ List.reverse (slice act 8 2)),
                          addr := addr, port := port, pool := s.fld (R.FLOW.KPARAM_p.SET p) }
        ({ c.1 with flow := { c.1.flow with twins := c.1.flow.twins ++ [t] } }, 2, c.2)
      else (c.1, 2, c.2)

/-! ## What a record does (R266-R280) -/

/-- Result of one CT event (R277): the new state, FIN_DIR, and whether the frame is refused. -/
def ctStep (st fin dir : Nat) (flags : Option Nat) : Nat × Nat × Bool :=
  match flags with
  | none =>
    if st = 7 then (if dir = 1 then 8 else 7, fin, false)
    else
      match st with
      | 1 => (st, fin, decide (dir = 1))
      | 2 => (if dir = 0 then 3 else 2, fin, false)
      | 5 => (6, fin, false)
      | 6 => (6, fin, true)
      | _ => (st, fin, false)
  | some g =>
    let rst := g.testBit 2
    let syn := g.testBit 1
    let ack := g.testBit 4
    let finB := g.testBit 0
    if st = 7 then (if dir = 1 then 8 else 7, fin, false)
    else if st = 8 then (8, fin, false)
    else if rst then (6, fin, false)
    else if syn && ack then
      match st with
      | 1 => if dir = 1 then (2, fin, false) else (st, fin, false)
      | 2 => (st, fin, false)
      | 3 => (st, fin, decide (dir = 1))
      | 4 => (st, fin, decide (dir = 1))
      | 5 => (st, fin, decide (dir = 1))
      | _ => (st, fin, decide (dir = 1))
    else if syn then
      match st with
      | 3 => (st, fin, decide (dir = 0))
      | 4 => (st, fin, decide (dir = 0))
      | 5 => (st, fin, decide (dir = 0))
      | 6 => (1, fin, false)
      | _ => (st, fin, false)
    else if finB then
      match st with
      | 1 => (st, fin, true)
      | 2 => (st, fin, true)
      | 3 => (4, dir, false)
      | 4 => if dir ≠ fin then (5, fin, false) else (st, fin, false)
      | 6 => (st, fin, true)
      | _ => (st, fin, false)
    else
      match st with
      | 1 => (st, fin, decide (dir = 1))
      | 2 => (if dir = 0 then 3 else 2, fin, false)
      | 5 => (6, fin, false)
      | 6 => (st, fin, true)
      | _ => (st, fin, false)

/-- Writes a field of a record. -/
def State.recPut (s : State) (r o : Nat) (b : List Byte) : State := s.setRecord r (patch (s.record r) o b)
/-- Sets bits of a record's FLAGS (R280). -/
def State.recFlag (s : State) (r m : Nat) : State := s.recPut r 0x7B [BitVec.ofNat 8 (beAt (s.record r) 0x7B 1 ||| m)]

/-- The counters and times of a counted hit (R279, R280). -/
def State.countHit (s : State) (r : Nat) (h : PHead) (f : Frm) (p nHit : Nat) (swap : Bool) : State :=
  let b := s.record r
  let hid := s.flow.hidden.get (0, false) r
  let le (o n : Nat) : Nat := ofLe (slice b o n)
  let len := f.len.getD 0
  let fl := (s.tcpFlags h f.parsed.stack).getD 0
  let iat := min ((s.mono - hid.1) / 64) 0xFFFFFFFF
  let upd := decide (le 0x50 8 ≠ 0 ∧ le 0x72 1 = 1 ∧ nHit = 1)
  let b1 := patch b 0x50 (leBytes 8 (le 0x50 8 + nHit) ++ leBytes 8 (le 0x58 8 + nHit * len))
  let b2 := patch b1 0x68 (leBytes 8 s.flowNow ++
    [BitVec.ofNat 8 (le 0x70 1 ||| fl), BitVec.ofNat 8 (max (le 0x71 1) nHit), BitVec.ofNat 8 nHit] ++
    leBytes 4 (if upd then min (le 0x73 4) iat else le 0x73 4) ++ leBytes 4 (if upd then max (le 0x77 4) iat else le 0x77 4))
  let rev := bitOf (s.prof p) 510 && (swap != hid.2)
  let closes := profKind (s.prof p) ≠ 5 ∧ s.on (R.FLOW.KPARAM_p.CLOSE_ON_FIN p) ∧ (fl.testBit 0 ∨ fl.testBit 2)
  let flags := le 0x7B 1 ||| (if 1 < nHit then 2 else 0) ||| (if rev then 8 else 0) ||| (if closes then 1 else 0)
  let b3 := patch b2 0x7B (BitVec.ofNat 8 flags :: leBytes 4 s.monoMs)
  let s1 := s.setRecord r b3
  { s1 with flow := { s1.flow with hidden := s1.flow.hidden.put (0, false) r (s1.mono, hid.2) } }

/-- A record applies to a decision (R266): translation, balancing or tracking. -/
def State.applyRecord (s : State) (r : Nat) (h : PHead) (f : Frm) (p : Nat) (swap : Bool) (d : Dec) : State × Dec :=
  let b := s.record r
  let at_ (o n : Nat) : Nat := ofLe (slice b (0x30 + o) n)
  match profKind (s.prof p) with
  | 0 => (s, d)
  | 4 =>
    let g := at_ 1 1
    let j := at_ 0 1
    let fix : State × Option Nat :=
      if s.bit (R.FLOW.LB_g.VALID g) j then (s, some j)
      else
        match s.lbPick g (hashA (b.take 48) % 65536) with
        | some k =>
          (((s.recPut r 0x30 [BitVec.ofNat 8 k, BitVec.ofNat 8 g, BitVec.ofNat 8 (at_ 2 2 + 1), BitVec.ofNat 8 ((at_ 2 2 + 1) / 256)]).recFlag
            r 4).bump R.FLOW.REPINS.COUNT, some k)
        | none => (s.detect 211, none)
    match fix.2 with
    | some k =>
      let a := s.rowSeen f.rows 0x20 (s.fld (R.FLOW.LB_g.ACTION_BASE g) + k)
      let d1 := mergeAction d a
      (fix.1, if bitOf a 235 then { d1 with qFlow := d1.q } else d1)
    | none => (fix.1, { d with fwd := 2, cause := dNoRoute })
  | 5 =>
    let st := at_ 0 1
    let dir := b2n (b2n swap != at_ 1 1)
    let fl := s.tcpFlags h f.parsed.stack
    let x := ctStep st (at_ 2 1) dir fl
    if x.2.2 then
      let s1 := s.recPut r 0x34 (leBytes 4 (at_ 4 4 + 1))
      if s.on (R.FLOW.KPARAM_p.STRICT p) then (s1.bump R.FLOW.CT_REFUSED.COUNT, { d with fwd := 2, cause := dRule }) else (s, d)
    else
      let restart := decide (st = 6 ∧ x.1 = 1)
      let s1 := s.recPut r 0x30 [BitVec.ofNat 8 x.1, if restart && decide (dir = 1) then BitVec.ofNat 8 (b2n swap) else slice b 0x31 1 |>.headD 0,
                                 BitVec.ofNat 8 x.2.1]
      if x.1 = 6 ∧ st ≠ 6 then (s1.recFlag r 1, d)
      else if restart then (s1.recPut r 0x7B [BitVec.ofNat 8 (beAt (s1.record r) 0x7B 1 &&& 0xFE)], d)
      else (s1, d)
  | _ =>
    let e := at_ 4 4 * 2 ^ 128 + at_ 8 2 * 2 ^ 112 + d.editData % 2 ^ 112
    (s, { d with edit := some (s.fld (R.FLOW.KPARAM_p.EDIT p)), editData := e })

/-- The flow-miss action (R284). -/
def State.flowMiss (s : State) (p res : Nat) (d : Dec) : Dec :=
  match profMiss (s.prof p) with
  | 1 => { d with fwd := 2, cause := dFlowMiss }
  | 2 => { d with fwd := 3, xq := bitsOf (s.prof p) 464 4, xcause := 6, flowMiss := true, flowRes := res }
  | _ => d

/-- What the parser and the key builder read of a frame: its length is known where it is 388 bytes or less, and in a second
pass (R186). -/
def State.phead (_s : State) (f : Frm) : PHead :=
  { bytes := f.head, len := if f.pass2 || decide (f.len.getD 389 ≤ 388) then f.len else none }

/-- The profile asks for an insert at a miss of the frame (R239). -/
def State.asksInsert (s : State) (p : Nat) (f : Frm) : Bool :=
  let w := s.prof p
  decide (bitsOf w 505 2 = 1) || (decide (bitsOf w 505 2 = 2) && f.parsed.hits.testBit (bitsOf w 499 6))

/-- The SA of a head is learnt once its decision is final, unless that decision bars it (R219, R226). -/
def State.learnHead (s : State) (e : FlowHead) : State :=
  match e.learn with
  | some l => if e.dec.noLearn then s else s.askLearn l
  | none => s

/-- The effect of a lookup's result `r` on its head (R246): the record, for the results 0 to 3, counts the frame and applies. -/
def State.lookResult (s : State) (e : FlowHead) (r idx : Nat) : State × FlowHead :=
  let s1 := s.bump (R.FLOW.RESULT_r.COUNT r)
  match s.frame e.frame with
  | none => (s1, { e with look := .ended r })
  | some f =>
    let h : PHead := s.phead f
    if r ≤ 3 then
      let first := decide (r = 2 ∧ profKind (s.prof e.prof) = 5)
      let s2 := s1.countHit idx h f e.prof e.nHit e.swap
      let a := if first then (s2, e.dec) else s2.applyRecord idx h f e.prof e.swap e.dec
      let s3 := if f.len.isNone then a.1.modFrame e.frame fun f =>
          { f with late := some { index := idx, nHit := e.nHit, gone := false } } else a.1
      (s3, { e with look := .ended r, dec := a.2 })
    else
      let d := if r = 5 ∧ profKind (s.prof e.prof) = 4 ∧ s.lbPick (s.fld (R.FLOW.KPARAM_p.SET e.prof)) (hashA e.key % 65536) = none
        ∧ s.asksInsert e.prof f then { e.dec with fwd := 2, cause := dNoRoute } else s.flowMiss e.prof r e.dec
      (s1, { e with look := .ended r, dec := d })

/-- A lookup ends with result `r`, and the SA of its frame is learnt. -/
def State.endLook (s : State) (e : FlowHead) (r idx : Nat) : State × FlowHead :=
  let x := s.lookResult e r idx
  (x.1.learnHead x.2, { x.2 with learn := none })

/-! ## Lookups through the buckets and the stash (R245) -/

/-- What the bucket reads and the stash find for a key: a result of R246 with its record, or none for a miss. -/
def State.findKey (s : State) (key : List Byte) (p : Nat) : State × Option (Nat × Nat) :=
  let bs := [bucketA key, bucketB key]
  if bs.any s.badBucket then (s.each (bs.filter s.badBucket) State.poison, some (9, 0))
  else
    let cands := (bs.flatMap fun b => (List.range 4).map fun k => (b, k)).filter fun e =>
      let w := s.slot e.1 e.2
      decide (slotState w = 1 ∧ slotFp w = fingerprint key ∧ slotProf w = p)
    let bad := fun (r : Nat) => (s.cachedAt r).isNone && s.badBlock (recordAddr r) 128
    match cands.find? fun e => bad (slotRec (s.slot e.1 e.2)) || decide ((s.record (slotRec (s.slot e.1 e.2))).take 48 = key) with
    | some e =>
      let r := slotRec (s.slot e.1 e.2)
      if bad r then (s.quarantine e.1 e.2, some (9, 0))
      else ((if (s.cachedAt r).isNone then s.cacheIn key r (s.record r) false else s), some (1, r))
    | none =>
      match (s.slc (sliceOf key)).stash.find? fun e =>
          decide (e.fp = fingerprint key ∧ e.prof = p) && (bad e.index || decide ((s.record e.index).take 48 = key)) with
      | some e => if bad e.index then (s.quarantineStash (sliceOf key) e.index, some (9, 0)) else ((if (s.cachedAt e.index).isNone then s.cacheIn key e.index (s.record e.index) false else s), some (1, e.index))
      | none => (s, none)

/-- The record that a lookup which has ended is bound to, for the lookups merged with it. -/
def State.boundRec (s : State) (key : List Byte) (p : Nat) : Nat :=
  match s.cacheFind key with
  | some e => e.2.index
  | none => match (s.findKey key p).2 with
    | some x => x.2
    | none => 0

/-! ## Placement (R249, R250) -/

/-- Marks the lookups whose bucket reads are out and whose buckets a move touches (R250). -/
def State.touchLooks (s : State) (bs : List Nat) : State :=
  { s with pipe := { s.pipe with stage := s.pipe.stage.map fun e => (e.1, e.2.map fun x =>
      match x.look with
      | .reading m r => { x with look := .reading (m || decide (bucketA x.key ∈ bs ∨ bucketB x.key ∈ bs)) r }
      | _ => x) } }

/-- A chain from bucket `b` to a FREE slot: the slots that move, nearest first (R249); with the buckets whose reads failed on the way, which
are poisoned and lead nowhere (R242, R254). -/
def State.chain (s : State) : Nat → List Nat → Nat → List Nat × Option (List (Nat × Nat))
  | fuel, seen, b =>
    if s.poisoned b then ([], none)
    else if s.badBucket b then ([b], none)
    else if (s.freeSlot b).isSome then ([], some [])
    else
      match fuel with
      | 0 => ([], none)
      | n + 1 => (List.range 4).foldl (fun a k =>
          let alt := slotAlt (s.slot b k)
          if a.2.isSome ∨ alt ∈ seen then a
          else
            let c := s.chain n (alt :: seen) alt
            (a.1 ++ c.1, c.2.map fun l => (b, k) :: l)) ([], none)

/-- A flush expires a record that a move carries to a bucket which its pass has left behind (R260, R273). -/
def State.carried (s : State) (b r p : Nat) : State :=
  match (s.slc (b / 2 ^ 23)).flush with
  | some (n, m) =>
    if m.testBit p ∧ b % 2 ^ 23 < n then
      s.modSlice (b / 2 ^ 23) fun x =>
        { x with expiries := x.expiries.filter (fun e => decide (e.index ≠ r)) ++ [{ index := r, reason := 4, forced := true }] }
    else s
  | none => s

/-- Moves the slot (b, k) to a FREE slot of its ALT bucket: the copy first, then the original (R249). -/
def State.moveSlot (s : State) (e : Nat × Nat) : State :=
  let w := s.slot e.1 e.2
  match s.freeSlot (slotAlt w) with
  | some j =>
    (((s.setSlot (slotAlt w) j (mkSlot (slotFp w) (slotRec w) e.1 (slotProf w))).setSlot e.1 e.2 0).touchLooks [e.1, slotAlt w]).carried
      (slotAlt w) (slotRec w) (slotProf w)
  | none => s

/-- The buckets of lookups that wait for their retry: no new move starts on them (R250). -/
def State.retryBuckets (s : State) : List Nat :=
  ((s.pipe.stage.flatMap (·.2)).filter fun e => decide (e.look = .retry)).flatMap fun e => [bucketA e.key, bucketB e.key]

/-- The oldest stash entry is placed (R249); a move on a bucket that a retry waits for does not start yet (R250). -/
def State.place (s : State) (i : Nat) : State :=
  match (s.slc i).stash with
  | [] => s
  | e :: rest =>
    let put (s : State) (x other : Nat) : State :=
      match s.freeSlot x with
      | some j =>
        (((s.setSlot x j (mkSlot e.fp e.index other e.prof)).modSlice i fun y => { y with stash := rest }).touchLooks [x] |>.showStash i).carried
          x e.index e.prof
      | none => s
    -- a FREE slot of A, then of B, then a chain from either
    let d := s.eff R.FLOW.CFG.RELOC_DEPTH
    let tries := [(0, e.a, e.b), (0, e.b, e.a), (d, e.a, e.b), (d, e.b, e.a)].map fun t => (t.2, s.chain t.1 [t.2.1] t.2.1)
    let used := tries.takeWhile fun t => t.2.2.isNone
    let s1 := s.each ((tries.take (used.length + 1)).flatMap fun t => t.2.1) State.poison
    match tries.findSome? fun t => t.2.2.map fun l => (t.1, l) with
    | some (x, l) =>
      if (x.1 :: l.flatMap fun m => [m.1, slotAlt (s.slot m.1 m.2)]).any fun b => decide (b ∈ s.retryBuckets) then s1
      else put (s1.each l.reverse State.moveSlot) x.1 x.2
    | none => (s1.bump R.FLOW.RELOC_FAIL.COUNT).modSlice i fun y => { y with stuck := true }

/-! ## Expiry and export (R256-R260, R270) -/

def profIdle (w : Nat) : Nat := bitsOf w 478 16
def profHold (w : Nat) : Nat := bitsOf w 470 8
/-- The key area and the profile of a record. -/
def State.recKey (s : State) (r : Nat) : List Byte := (s.record r).take 48
def State.recProf (s : State) (r : Nat) : Nat := s.prof (beAt (s.record r) 0 1 % 16)
/-- The number of the record that PEER names, where it is valid (R267). -/
def State.peerNo (s : State) (r : Nat) : Option Nat :=
  let w := ofLe (slice (s.record r) 0x30 4)
  if (profKind (s.recProf r) = 1 ∨ profKind (s.recProf r) = 2) ∧ bitOf w 31 ∧ s.inUse r then some (w % 2 ^ 27) else none
/-- The other record of a pair, while both are in the table (R270). -/
def State.peerOf (s : State) (r : Nat) : Option Nat :=
  match s.peerNo r with
  | some q => if s.peerNo q = some r then some q else none
  | none => none
/-- The VALID slot that points to a record. -/
def State.slotOf (s : State) (r : Nat) : Option (Nat × Nat) :=
  ([bucketA (s.recKey r), bucketB (s.recKey r)].flatMap fun b => (List.range 4).map fun k => (b, k)).find? fun e =>
    decide (slotState (s.slot e.1 e.2) = 1 ∧ slotRec (s.slot e.1 e.2) = r)
/-- A record is in the table: its slot is in the stash, or VALID in a bucket that is not poisoned. -/
def State.inTable (s : State) (r : Nat) : Bool :=
  s.inUse r && ((s.slc (s.sliceOfRec r)).stash.any (fun e => decide (e.index = r)) ||
    (match s.slotOf r with
     | some e => !s.poisoned e.1
     | none => false))

/-- Milliseconds since the last hit of a record, or of its pair (R256, R270). -/
def State.idleMs (s : State) (r : Nat) : Nat :=
  let age (r : Nat) : Nat := (s.monoMs + 2 ^ 32 - ofLe (slice (s.record r) 0x7C 4)) % 2 ^ 32
  match s.peerOf r with
  | some q => min (age r) (age q)
  | none => age r
/-- The reason for which a record is due to expire: 1 IDLE, 2 CLOSE, 0 none (R256). -/
def State.expiryDue (s : State) (r : Nat) : Nat :=
  if profIdle (s.recProf r) * 1000 ≤ s.idleMs r then 1
  else if bitOf (beAt (s.record r) 0x7B 1) 0 ∧ profHold (s.recProf r) * 1000 ≤ s.idleMs r then 2
  else 0

/-- An expiry waits for its turn; a record waits once, and an expiry without an idle test replaces one with it. -/
def State.askExpiry (s : State) (r reason : Nat) (forced : Bool) : State :=
  s.modSlice (s.sliceOfRec r) fun x =>
    if x.expiries.any fun e => decide (e.index = r) && (e.forced || !forced) then x
    else { x with expiries := x.expiries.filter (fun e => decide (e.index ≠ r)) ++ [{ index := r, reason := reason, forced := forced }] }

/-- The flush ends once no slice has a bucket of its pass to come, nor an expiry of it (R260, R273). -/
def State.flushEnd (s : State) : State :=
  if (List.range 4).all fun i => (s.slc i).flush.isNone && !(s.slc i).expiries.any fun e => decide (e.reason = 4) then
    s.setB R.FLOW.STATUS.FLUSH_BUSY false
  else s

/-- The current export batch, opened where none is open; none where it is full, where it is due and the channel cannot take its message,
and where no buffer can be had (R259). -/
def State.openExport (s : State) : Option State :=
  match s.svc.openBatch with
  | some _ => if 64 ≤ s.flow.batch ∨ (s.flow.batchDue ∧ ¬ s.hwRoom (s.eff R.FLOW.EXPORT.CHANNEL) 2) then none else some s
  | none =>
    match s.take 1 9216 (some 4) with
    | (s1, some (k, i)) => some { s1 with svc := { s1.svc with openBatch := some (s1.bufAddr k i) } }
    | (_, none) => none

/-- Writes a record and its trailer into the current batch (R258). -/
def State.exportOut (s : State) (r reason : Nat) (b : List Byte) : State :=
  match s.svc.openBatch with
  | none => s
  | some a =>
    let seq := s.flow.exportSeq + 1
    let trailer := leBytes 4 r ++ [BitVec.ofNat 8 reason, BitVec.ofNat 8 (s.sliceOfRec r), 0, 0] ++ leBytes 8 seq
    let s1 := s.memPut (a + 144 * s.flow.batch) (b ++ trailer)
    { s1 with flow := { s1.flow with
        batch := s.flow.batch + 1, batchAt := if s.flow.batch = 0 then s.now else s.flow.batchAt, exportSeq := seq, exportWait := none } }

/-- A frame that still owes its bytes to record `r` learns that it has expired (R279). -/
def lateGone (r : Nat) (f : Frm) : Frm :=
  match f.late with
  | some l => if l.index = r then { f with late := some { l with gone := true } } else f
  | none => f

/-- The expiry of a record, in the order of R258; `out` where it is exported. -/
def State.expire (s : State) (r reason : Nat) (out : Bool) : State :=
  let i := s.sliceOfRec r
  let b := s.record r
  let kind := profKind (s.recProf r)
  let peer := s.peerOf r
  let s1 := match s.slotOf r with
    | some e => s.setSlot e.1 e.2 0
    | none => s
  let s2 := s1.modSlice i fun x =>
    { x with stash := x.stash.filter (fun e => decide (e.index ≠ r)), stuck := false,
             expiries := x.expiries.filter (fun e => decide (e.index ≠ r)) }
  let s3 := if out then s2.exportOut r reason b else s2
  let s4 : State := match s3.cachedAt r with
    | some e => (s3.writeBack e.1).setCache e.1 none
    | none => s3
  let s5 : State := s4.setInUse r false
  let s6 : State := { s5 with
    flow := { s5.flow with
      hidden := s5.flow.hidden.del r,
      twins := s5.flow.twins.filter (fun t => decide (t.fwd ≠ r)),
      ports := if kind = 1 then s5.flow.ports.put false (beAt b 0x3A 1 * 65536 + ofLe (slice b 0x38 2)) false else s5.flow.ports }
    buf := { s5.buf with frames := s5.buf.frames.map fun e => (e.1, e.2.map (lateGone r)) } }
  let s7 := (((s6.bump (R.FLOW.EXPIRED_r.COUNT (reason - 1))).addRecords i (-1)).showStash i)
  let s8 := if reason ≠ 5 && !s.on R.FLOW.CTRL.EXPORT_EN then s7.bump R.FLOW.NOT_EXPORTED.COUNT else s7
  match peer with
  | some q => s8.askExpiry q reason true
  | none => s8

/-- An expiry takes its turn on its bucket (R257, R259). -/
def State.expiryTurn (s : State) (r : Nat) : State :=
  let i := s.sliceOfRec r
  match (s.slc i).expiries.find? fun e => decide (e.index = r) with
  | none => s
  | some e =>
    let gone := s.modSlice i fun x => { x with expiries := x.expiries.filter fun e => decide (e.index ≠ r) }
    let why := if e.forced then e.reason else s.expiryDue r
    if !s.inTable r || decide (why = 0) then gone.flushEnd
    else if profExport (s.recProf r) && s.on R.FLOW.CTRL.EXPORT_EN && decide (why ≠ 5) then
      match s.openExport with
      | some s1 => (s1.expire r why true).flushEnd
      | none =>
        let s1 := if s.flow.exportWait.isNone && s.svc.openBatch.isNone then s.takeFailed true else s
        { s1 with flow := { s1.flow with exportWait := some (s.flow.exportWait.getD s.now) } }
    else (s.expire r why false).flushEnd

/-- The batch is sent when it holds 64 entries or is due, and the channel has room (R259). -/
def State.sendBatch (s : State) : State :=
  let ch := s.eff R.FLOW.EXPORT.CHANNEL
  match s.svc.openBatch with
  | none => s
  | some a =>
    if s.flow.batch = 0 ∨ (s.flow.batch < 64 ∧ ¬ s.flow.batchDue) then s
    else if !s.hwRoom ch 2 then { s with flow := { s.flow with exportWait := some (s.flow.exportWait.getD s.now) } }
    else
      let w := s.flow.batchSeq % 2 ^ 32 * 2 ^ 32 + s.flow.batch
      let s1 := (s.hwSend ch [BitVec.ofNat 64 a, BitVec.ofNat 64 w]).bump R.FLOW.EXPORT_BATCHES.COUNT
      { s1 with
        flow := { s1.flow with batch := 0, batchDue := false, batchSeq := s.flow.batchSeq + 1, exportWait := none }
        svc := { s1.svc with openBatch := none } }

/-- What the sweeper's visit of a bucket asks for (R254, R256, R260): a bucket or record that DRAM cannot give is poisoned or
quarantined, and `why` names the reason of each VALID slot's expiry, 0 none. -/
def State.visitBucket (s : State) (b : Nat) (forced : Bool) (why : State → Nat → Nat → Nat) : State :=
  if s.poisoned b then s
  else if s.badBlock (bucketAddr b) 64 then s.poison b
  else
    s.each (List.range 4) fun s k =>
      let w := s.slot b k
      if slotState w = 0 then s
      else if slotState w ≠ 1 then s.poison b
      else if (s.cachedAt (slotRec w)).isNone && s.badBlock (recordAddr (slotRec w)) 128 then s.quarantine b k
      else if why s (slotRec w) (slotProf w) = 0 then s
      else s.askExpiry (slotRec w) (why s (slotRec w) (slotProf w)) forced

/-- The sweeper's pass goes on, or its next one may begin: passes begin `SWEEP.PASS` seconds apart (R256). -/
def State.passOn (s : State) (i : Nat) : Bool :=
  decide ((s.slc i).sweep ≠ 0) || (match (s.slc i).passAt with
    | some t => decide (t + s.eff R.FLOW.SWEEP.PASS * 1000000000 ≤ s.mono)
    | none => true)

/-- The sweeper of slice `i` visits its next bucket (R256), or the next one of a flush pass (R260). -/
def State.sweep (s : State) (i : Nat) (flush : Bool) : State :=
  if s.bit R.FLOW.STATUS.PANIC i then s
  else if flush then
    match (s.slc i).flush with
    | none => s
    | some (n, m) =>
      let s1 := s.visitBucket (i * 2 ^ 23 + n) true fun _ _ p => if m.testBit p then 4 else 0
      if n + 1 < 2 ^ 23 then s1.modSlice i fun x => { x with flush := some (n + 1, m) }
      else
        ((s1.each (s1.slc i).stash fun s e => if m.testBit e.prof then s.askExpiry e.index 4 true else s).modSlice i
          fun x => { x with flush := none }).flushEnd
  else if s.on R.FLOW.CTRL.SWEEP_EN && s.passOn i then
    (s.visitBucket (i * 2 ^ 23 + (s.slc i).sweep) false fun s r _ => s.expiryDue r).modSlice i
      fun x => { x with sweep := (x.sweep + 1) % 2 ^ 23, passAt := if x.sweep = 0 then some s.mono else x.passAt }
  else s

/-! ## Twins (R269) -/

/-- The twin of a committed NAPT record is lost: the forward record expires without export. -/
def State.twinLost (s : State) (t : Twin) : State := (((s.expire t.fwd 3 false).bump R.FLOW.TWIN_LOST.COUNT).detect 212)

/-- A key is in the table. -/
def State.keyPresent (s : State) (key : List Byte) (p : Nat) : Bool :=
  (s.cacheFind key).isSome || (match (s.findKey key p).2 with
    | some x => decide (x.1 = 1)
    | none => false)

/-- The oldest twin insert runs; it waits while the slice's free-index queue is empty. -/
def State.insertTwin (s : State) : State :=
  match s.flow.twins with
  | [] => s
  | t :: rest =>
    let i := sliceOf t.key
    let p := beAt t.key 0 1
    let s1 := { s with flow := { s.flow with twins := rest } }
    if 4096 ≤ (s.slc i).stash.length ∨ s.perSlice ≤ s.fld (R.FLOW.SLICE_s_RECORDS.COUNT i) ∨ !s.bit R.FLOW.CTRL.SLICE_EN i ∨
        s.bit R.FLOW.STATUS.SLICE_QUIESCED i ∨ s.poisoned (bucketA t.key) ∨ s.poisoned (bucketB t.key) ∨ s.keyPresent t.key p then
      s1.twinLost t
    else if (s.slc i).free.isEmpty then s
    else
      let act := leBytes 4 (2 ^ 31 + t.fwd) ++ leBytes 4 t.addr ++ leBytes 2 t.port ++ [BitVec.ofNat 8 t.pool, 1] ++
        List.replicate 20 0
      let c := s1.create i t.key act p false
      c.1.recPut t.fwd 0x30 (leBytes 4 (2 ^ 31 + c.2))

/-! ## Free indexes, cache halves and slices (R249, R252, R253, R255) -/

/-- The first record from `r` whose bitmap bit is 0. -/
def State.nextFree (s : State) : Nat → Nat → Option Nat
  | 0, _ => none
  | n + 1, r => if s.inUse r then s.nextFree n (r + 1) else some r
/-- Takes up to `n` indexes from the bitmap into the slice's queue, lowest first. -/
def State.refill (s : State) (i : Nat) : Nat → Nat → State
  | 0, _ => s
  | n + 1, r =>
    match s.nextFree ((i + 1) * s.perSlice - r) r with
    | some x => ((s.setInUse x true).modSlice i fun y => { y with free := y.free ++ [x] }).refill i n (x + 1)
    | none => s

/-- The lookups in flight on a slice. -/
def State.inFlight (s : State) (i : Nat) : List FlowHead :=
  (s.pipe.stage.flatMap (·.2)).filter fun e => decide (sliceOf e.key = i) && (match e.look with
    | .reading _ _ => true
    | .retry => true
    | .merged _ => true
    | _ => false)

/-- Steps 3 and 4 of R255, once the lookups of a disabled slice have ended. -/
def State.sliceQuiesce (s : State) (i : Nat) : State :=
  if s.bit R.FLOW.CTRL.SLICE_EN i || s.bit R.FLOW.STATUS.SLICE_QUIESCED i || !(s.inFlight i).isEmpty then s
  else
    let cells := s.mem.filter fun e => decide (bucketBase + i * 2 ^ 29 ≤ e.1 ∧ e.1 < bucketBase + (i + 1) * 2 ^ 29)
    let slots : List (Nat × Nat) := (cells.map fun e => ((e.1 - bucketBase) / 64, (e.1 - bucketBase) / 16 % 4)).eraseDups
    let inBuckets := (slots.filter fun e => decide (slotState (s.slot e.1 e.2) = 1) && !s.poisoned e.1).map fun e => slotRec (s.slot e.1 e.2)
    let rs := (s.slc i).stash.map (·.index) ++ inBuckets
    ((s.each rs fun s r => if s.inTable r then s.expire r 5 false else s).setBit R.FLOW.STATUS.SLICE_QUIESCED i true).disarm (.quiesceAck (137 + i))

/-- A disabled cache half is emptied: its dirty records are written back (R253). -/
def State.halfQuiesce (s : State) (h : Nat) : State :=
  let ks := (s.flow.cache.filter fun e => decide (e.1 % 8 / 4 = h)).map (·.1)
  (s.each ks fun s k => (s.writeBack k).setCache k none).setBit R.FLOW.STATUS.CACHE_QUIESCED h true

/-- A slice is enabled again: its buckets are cleared, and the rebuild of its bitmap quarter begins (R255). -/
def State.sliceEnable (s : State) (i : Nat) : State :=
  let lo := bucketBase + i * 2 ^ 29
  let s1 := s.each (s.slc i).free fun s r => s.setInUse r false
  (s1.clearArea lo (lo + 2 ^ 29)).modSlice i fun x =>
    { x with free := [], rebuilding := true, stash := [] }

/-- A write of `FLOW.CTRL` (R253, R255, R256, R259). -/
def State.flowCtrl (s : State) (v : Nat) : State :=
  let s1 := (s.set R.FLOW.CTRL.SWEEP_EN (bitsOf v 0 1)).set R.FLOW.CTRL.EXPORT_EN (bitsOf v 1 1)
  let s2 := s1.each (List.range 2) fun s h =>
    let b := v.testBit (12 + h)
    let was := s.bit R.FLOW.CTRL.CACHE_EN h
    let s' := s.setBit R.FLOW.CTRL.CACHE_EN h b
    if was && !b then s'.halfQuiesce h else if b && !was then s'.setBit R.FLOW.STATUS.CACHE_QUIESCED h false else s'
  s2.each (List.range 4) fun s i =>
    let b := v.testBit (8 + i)
    let was := s.bit R.FLOW.CTRL.SLICE_EN i
    let s' := s.setBit R.FLOW.CTRL.SLICE_EN i b
    if was && !b then
      (if s'.bit R.FLOW.STATUS.SLICE_QUIESCED i then s'
       else (s'.arm (.quiesceAck (137 + i)) (usec (s'.eff R.POWER.QUIESCE.DRAIN_TO) + msec 1)).sliceQuiesce i)
    else if b && !was && s.bit R.FLOW.STATUS.SLICE_QUIESCED i then s'.sliceEnable i else s'

/-- The present value of `FLOW.CTRL`. -/
def State.flowCtrlNow (s : State) : Nat :=
  s.fld R.FLOW.CTRL.SWEEP_EN + 2 * s.fld R.FLOW.CTRL.EXPORT_EN + 2 ^ 8 * s.fld R.FLOW.CTRL.SLICE_EN +
    2 ^ 12 * s.fld R.FLOW.CTRL.CACHE_EN

/-! ## The flow stage (R238, R245-R250, R281) -/

/-- A slice serves lookups: it is enabled and neither quiesced, being rebuilt, nor switched off (R255). -/
def State.sliceOn (s : State) (i : Nat) : Bool :=
  s.bit R.FLOW.CTRL.SLICE_EN i && !s.bit R.FLOW.STATUS.SLICE_QUIESCED i && !(s.slc i).rebuilding && s.domOn (137 + i)

/-- The flow key profile of a frame, where it makes a lookup (R238, R263). -/
def State.flowProfOf (s : State) (f : Frm) (kprof : Nat) (d : Dec) : Option Nat :=
  if d.fwd ≠ 1 ∧ d.fwd ≠ 4 then none
  else
    match d.flowProf with
    | some p => some p
    | none => if s.on (R.TABLES.KPROF_p.CTRL.FLOW_EN kprof) && decide (f.src < 48) then
        some (s.fld (R.TABLES.KPROF_p.CTRL.FLOW_PROF kprof)) else none

/-- The bucket reads of a lookup go out (R245), on the slice's real-time port. -/
def State.readBuckets (s : State) (e : FlowHead) (retried : Bool) : State × FlowHead :=
  (s.rtIssue (sliceOf e.key) 2, { e with look := .reading false retried })

/-- A head with its decision enters the flow stage, and its lookup begins (R238, R245, R281, R391); `l` is the learn request of its SA. -/
def State.flowEnter (s : State) (i : Nat) (h : PHead) (kprof : Nat) (d : Dec) (l : Option Learn) : State × FlowHead :=
  let e0 : FlowHead := { frame := i, dec := d, look := .none, prof := 0, key := [], swap := false, nHit := 1, since := s.now,
                         route := s.nel.nWrites, learn := l }
  let none_ (s : State) (e : FlowHead) : State × FlowHead := (s.learnHead e, { e with learn := none })
  match s.frame i with
  | none => none_ s e0
  | some f =>
    match s.flowProfOf f kprof d with
    | none => none_ s e0
    | some p =>
      match s.flowKey h f p (s.fld (R.TABLES.KPROF_p.CTRL.VRF kprof)) with
      | none => s.endLook { e0 with prof := p } 6 0
      | some (body, sw) =>
        let key := keyArea p body
        let n := sliceOf key
        let e : FlowHead := { e0 with prof := p, key := key, swap := sw }
        let s0 := s.modFrame i fun f => { f with hash := hashA key % 65536 }
        if !s.sliceOn n then s0.endLook e 8 0
        else
          let skip := decide (profKind (s.prof p) = 0) && decide (1 < s.nOf n)
          let c := (s.slc n).c + 1
          let s1 := if skip then s0.modSlice n fun x => { x with c := if s.nOf n ≤ c then 0 else c } else s0
          if skip ∧ c < s.nOf n then none_ (s1.bump R.FLOW.SAMPLE_SKIPS.COUNT) e
          else
            let e1 := if skip then { e with nHit := s.nOf n } else e
            if 1024 ≤ (s.inFlight n).length then s1.endLook e1 7 0
            else
              match s1.cacheFind key with
              | some x => (s1.cacheTouch x.1).endLook e1 0 x.2.index
              | none =>
                match (s.inFlight n).find? fun x => decide (x.key = key) with
                | some x => (s1, { e1 with look := .merged (match x.look with
                    | .merged m => m
                    | _ => x.frame) })
                | none =>
                  if s.poisoned (bucketA key) || s.poisoned (bucketB key) then s1.endLook e1 9 0
                  else s1.readBuckets e1 false

/-- The lookup of a head has not ended (R247). -/
def FlowHead.open_ (e : FlowHead) : Bool :=
  match e.look with
  | .none => false
  | .ended _ => false
  | _ => true

/-- The stage of a pipeline. -/
def State.stage (s : State) (p : Nat) : List FlowHead := s.pipe.stage.get [] p
def State.setStage (s : State) (p : Nat) (l : List FlowHead) : State :=
  { s with pipe := { s.pipe with stage := s.pipe.stage.put [] p l } }
/-- Replaces the head of frame `i` wherever it stands. -/
def State.putHead (s : State) (i : Nat) (e : FlowHead) : State :=
  { s with pipe := { s.pipe with stage := s.pipe.stage.map fun x => (x.1, x.2.map fun y => if y.frame = i then e else y) } }

/-- Inserts a head by the time of its entry. -/
def bySince (e : FlowHead) : List FlowHead → List FlowHead
  | [] => [e]
  | x :: t => if e.since ≤ x.since then e :: x :: t else x :: bySince e t

/-- A lookup ends, and the lookups merged with it end directly after it, in the order of their entry (R248, R285). -/
def State.endAll (s : State) (e : FlowHead) (r idx : Nat) : State :=
  let a := s.endLook e r idx
  let s1 := a.1.putHead e.frame a.2
  let ms := ((s1.pipe.stage.flatMap (·.2)).filter fun x => decide (x.look = .merged e.frame)).foldr bySince []
  let s2 := s1.each ms fun s x =>
    let b := s.endLook x (if r = 2 then 3 else r) idx
    b.1.putHead x.frame b.2
  s2.sliceQuiesce (sliceOf e.key)

/-- The head of frame `i` in the flow stage. -/
def State.headOf (s : State) (i : Nat) : Option FlowHead :=
  (s.pipe.stage.flatMap (·.2)).find? fun e => decide (e.frame = i)

/-- The bucket and record reads of a lookup complete (R245, R246, R249, R250). -/
def State.lookDone (s : State) (e : FlowHead) : State :=
  match e.look with
  | .reading moved retried =>
    let s0 := s.rtDone (sliceOf e.key) 2
    match s0.findKey e.key e.prof with
    | (s1, some (r, idx)) => s1.endAll e r idx
    | (s1, none) =>
      if moved && !retried then s1.putHead e.frame { e with look := .retry }
      else
        match s1.frame e.frame with
        | none => s1
        | some f =>
          if !s1.asksInsert e.prof f then s1.endAll e 5 0
          else
            let h : PHead := s1.phead f
            let x := s1.insertFlow h f e.prof e.key e.swap
            x.1.endAll e x.2.1 x.2.2
  | _ => s

/-- The bytes of a frame whose length was not known at its hit are added once its last byte has come (R279). -/
def State.lateBytes (s : State) (i : Nat) : State :=
  match s.frame i with
  | some f =>
    match f.late, f.len with
    | some l, some n =>
      let s1 := s.setFrame i (some { f with late := none })
      if l.gone then s1.add R.FLOW.LATE_BYTES.COUNT (l.nHit * n)
      else s1.recPut l.index 0x58 (leBytes 8 (ofLe (slice (s1.record l.index) 0x58 8) + l.nHit * n))
    | _, _ => s
  | none => s

end Sys2Proof.Machine
end

