-- ==== Sys2Proof/Machine/Governor.lean ====
section
/-! DEFINITION. The cadence governor: predictions, the goal, the ceiling and the levels that VCORE is held at (R29-R43). -/
namespace Sys2Proof.Machine

/-- The lowest entry of a list with its place, 0 for an empty one.  Of equal lowest entries the first counts: which metronome
`LIMITER.METRO` names on a tie is not in the spec (DESIGN CHOICE, log 81). -/
def lowest : List Nat → Nat → Nat × Nat
  | [], i => (0, i)
  | [x], i => (x, i)
  | x :: y :: t, i => if x ≤ (lowest (y :: t) (i + 1)).1 then (x, i) else lowest (y :: t) (i + 1)

/-- The highest entry of a list, 0 for an empty one. -/
def highest (l : List Nat) : Nat := l.foldl max 0

/-- The four predictions of pipeline `n`. -/
def metronomes (pred : List Nat) (n : Nat) : List Nat := (pred.drop (4 * n)).take 4

/-- Two metronomes of one pipeline disagree by more than 15 % of the lower one (R43). -/
def spreadOver (l : List Nat) : Bool := decide (15 * (lowest l 0).1 < (highest l - (lowest l 0).1) * 100)

/-- The disagreement of one pipeline in per cent, saturating at 255 (R44); the part of a per cent is dropped, which the spec does not
state (DESIGN CHOICE, log 81). -/
def spreadPct (l : List Nat) : Nat :=
  if (lowest l 0).1 = 0 then (if highest l = 0 then 0 else 255)
  else min 255 ((highest l - (lowest l 0).1) * 100 / (lowest l 0).1)

/-- Boost is raising VCORE, or was when the last report was made (R32, R40). -/
def State.boostRising (s : State) : Bool :=
  s.on R.CADENCE.STATUS.BOOST && s.cad.riseEnd.any fun t => decide (s.cad.reportAt ≤ t)

/-- The pipeline is below the floor (R40): capacity below 640 Mtok/s while VCORE is not below the ceiling by light load or by
boost still rising.  Before the first report since t0 no capacity is reported. -/
def State.belowFloor (s : State) (n : Nat) : Bool :=
  !s.cad.peaks.isEmpty && decide (s.fld (R.CADENCE.LIVE_Pn.CAPACITY n) < 640) &&
    !(decide (s.cad.v < 2 * s.fld R.CADENCE.VCORE.CEILING) && s.on R.CADENCE.STATUS.LIGHT_ACTIVE) && !s.boostRising

/-- Shows which pipelines are below the floor, and whether any is (R40, F032). -/
def State.showFloor (s : State) : State :=
  let m := (List.range 4).foldl (fun m n => m + b2n (s.belowFloor n) * 2 ^ n) 0
  ((s.set R.CADENCE.STATUS.BELOW_FLOOR m).orIn R.CADENCE.STICKY.BELOW_FLOOR_SEEN m).level 32 (decide (m ≠ 0))

/-- Sets VCORE, in units of 0.5 mV. -/
def State.setV (s : State) (v : Nat) : State :=
  { s with cad := { s.cad with v := v } }.set R.CADENCE.VCORE.VCORE (v / 2)

/-- A status bit of `CADENCE.STATUS` [12:8] and its sticky copy; `j` counts from bit 8. -/
def State.cadStatus (s : State) (f : Fld) (j : Nat) (b : Bool) : State :=
  let s1 := s.setB f b
  if b then s1.orIn R.CADENCE.STICKY.SEEN (2 ^ j) else s1

/-- Where VCORE is held rather than governed (R30-R33): at VSET within the ceiling with FIXED, at the ceiling while the
governor is off, before forwarding and in boost; otherwise it stays within the ceiling. -/
def State.holdV (s : State) : State :=
  let top := 2 * s.fld R.CADENCE.VCORE.CEILING
  let s1 := s.setB R.CADENCE.STATUS.FIXED_ACTIVE (s.on R.CADENCE.CTRL.FIXED)
  if s.on R.CADENCE.CTRL.FIXED then s1.setV (min top (max 1240 (2 * s.fld R.CADENCE.VSET.VSET)))
  else if !s.on R.CADENCE.CTRL.GOV_EN || !s.on R.DEAL.STATUS.FWD || s.on R.CADENCE.STATUS.BOOST then s1.setV top
  else s1.setV (min s.cad.v top)

/-- Twice the loop's goal (R30): the target, or under light load 1.5 times the peak demand of the last 64 us, not below
LIGHT_MIN. -/
def State.goal2 (s : State) : Nat :=
  let t := 2 * s.eff R.CADENCE.TARGET.TARGET
  if s.on R.CADENCE.CTRL.LIGHT_EN && !s.on R.CADENCE.STATUS.BOOST then
    min t (max (2 * s.eff R.CADENCE.LIGHT.LIGHT_MIN) (3 * highest s.cad.peaks))
  else t

/-- The loop's step in multiples of 2.5 mV, none of them beyond STEP_MAX (R30, R44).  The spec gives the step before it is taken in
multiples of 2.5 mV and not the rounding, so a step that is not a multiple goes to either neighbour within STEP_MAX (free value). -/
def State.govStep (s : State) (err2 : Int) : Int :=
  let bound : Int := 20 * s.eff R.CADENCE.LOOP.STEP_MAX
  let x := max (-bound) (min bound (err2 * s.eff R.CADENCE.LOOP.GAIN))
  let lo := x / 50
  if x % 50 = 0 then lo
  else if bound < 50 * (lo + 1) then lo
  else if 50 * lo < -bound then lo + 1
  else lo + (s.freeNow % 2 : Nat)

/-- Sets a field to a temperature, in tenths of a degree, as whole degrees in two's complement; what it shows of one that eight bits
cannot hold is not stated (free value). -/
def State.setTemp (s : State) (f : Fld) (t : Int) : State :=
  if -128 ≤ t / 10 ∧ t / 10 ≤ 127 then s.set f (codeOf 8 (t / 10)) else (s.set f s.freeNow).usedFree

/-- The junction in tenths of a degree Celsius. -/
def State.junction (s : State) : Int := s.sup.tj

/-- Millivolts by which the thermal rule lowers the ceiling: 10 for each whole degree above 125 (R31). -/
def State.thermDrop (s : State) : Nat := (10 * ((s.junction - 1250) / 10)).toNat

/-- The ceiling that both rules leave, its status bits and their sources (R31, R40, F037). -/
def State.setCeiling (s : State) : State :=
  let pow := decide (s.cad.powDrop ≠ 0)
  let was := s.on R.CADENCE.STATUS.CAP_POWER
  let s1 := s.set R.CADENCE.VCORE.CEILING (max 620 (850 - max s.cad.powDrop s.thermDrop))
  let s2 := { s1 with cad := { s1.cad with
    capAt := if pow && !was then s1.now else s1.cad.capAt,
    capTotal := if was && !pow then s1.cad.capTotal + (s1.now - s1.cad.capAt) else s1.cad.capTotal } }
  let s3 := (s2.cadStatus R.CADENCE.STATUS.CAP_POWER 3 pow).cadStatus R.CADENCE.STATUS.CAP_THERMAL 4 (decide (1260 ≤ s.junction))
  (s3.level 37 pow).holdV

end Sys2Proof.Machine
end

