-- ==== Sys2Proof/Machine/Mac.lean ====
section
/-! DEFINITION. The lane islands of the Ethernet ports: the SecY, the pre-classifier, the checks of the receiving MAC, the
source FIFOs with shedding, and the states of a port and its link (R36, R135-R162). -/
namespace Sys2Proof.Machine

/-! ## The state of a port -/

def State.secy (s : State) (p : Nat) : SecY := s.mac.secy.get SecY.init p
def State.setSecy (s : State) (p : Nat) (x : SecY) : State :=
  { s with mac := { s.mac with secy := s.mac.secy.put SecY.init p x } }
def State.rx (s : State) (p : Nat) : Option Rx := s.mac.rx.get none p
def State.setRx (s : State) (p : Nat) (x : Option Rx) : State := { s with mac := { s.mac with rx := s.mac.rx.put none p x } }
/-- The link fault that stands on a port, as DOWN_REASON codes it; 11 is a lost FEC alignment. -/
def State.fault (s : State) (p : Nat) : Nat := s.mac.fault.get 0 p
def State.setFault (s : State) (p v : Nat) : State := { s with mac := { s.mac with fault := s.mac.fault.put 0 p v } }
/-- The quiesce of a port: 0 none, 1 running, 2 running with EN written 1 again. -/
def State.portQuiesce (s : State) (p : Nat) : Nat := s.mac.quiesce.get 0 p
def State.setPortQuiesce (s : State) (p v : Nat) : State :=
  { s with mac := { s.mac with quiesce := s.mac.quiesce.put 0 p v } }
/-- The port is enabled and does not quiesce. -/
def State.portLive (s : State) (p : Nat) : Bool :=
  s.portExists p && s.on (R.PORT.CTRL.EN p) && decide (s.portQuiesce p = 0) && s.powered p && s.powered (48 + p)
def State.linkUp (s : State) (p : Nat) : Bool := s.on (R.PORT.STATUS.LINK p)
def State.secyOn (s : State) (p : Nat) : Bool := s.on (R.PORT.SECY_CTRL.EN p)

/-- A valid transmit SA exists (R152, R153). -/
def State.txSa (s : State) (p : Nat) : Option Sa := if (s.secy p).stopped then none else (s.secy p).tx
/-- The controlled port operates (R152). -/
def State.ctrlOper (s : State) (p : Nat) : Bool :=
  !s.secyOn p || (!s.on (R.PORT.SECY_CTRL.PROTECT_ONLY p) && !(s.secy p).everTx) || (s.txSa p).isSome
/-- Shows the SecY of a port. -/
def State.showSecy (s : State) (p : Nat) : State :=
  let y := s.secy p
  ((s.set (R.PORT.SECY_STATUS.RX_SCS p) y.rx.length).setB
    (R.PORT.SECY_STATUS.TX_SA_VALID p) (s.txSa p).isSome).set (R.PORT.SECY_STATUS.TX_AN p) (match y.tx with
      | some a => a.an
      | none => 0)
/-- A frame may be admitted to an egress port (R138, R152, R158-R160, R386): a port, its link and its controlled port operate. -/
def State.portTakes (s : State) (p : Nat) (uncontrolled : Bool) : Bool :=
  if p < 48 then s.portLive p && s.linkUp p && (uncontrolled || s.ctrlOper p)
  else if p < 56 then s.on (R.NLINK.CTRL.EN (p - 48)) && decide (s.fld (R.NLINK.STATE.STATE (p - 48)) ≠ 0)
  else true

/-! ## SecTAG and protection (R149-R154) -/

def State.macAddr (s : State) (p : Nat) : List Byte :=
  beBytes 2 (s.fld (R.PORT.MAC_HI.MAC p)) ++ beBytes 4 (s.fld (R.PORT.MAC_LO.MAC p))
def State.stat (s : State) (p k : Nat) : State := s.bump (R.PORT.MACSEC_STAT_k.COUNT p k)
/-- An XPN cipher suite. -/
def State.xpn (s : State) (p : Nat) : Bool := decide (2 ≤ s.fld (R.PORT.SECY_CTRL.CIPHER p))
/-- The nonce of a frame under a SA. -/
def State.secIv (s : State) (p : Nat) (a : Sa) (sci : List Byte) (pn : Nat) : List Byte :=
  if s.xpn p then xorBytes a.salt (beBytes 4 a.ssci ++ beBytes 8 pn) else sci ++ beBytes 4 pn
/-- The confidentiality offset, none for integrity only. -/
def State.confOffset (s : State) (p : Nat) : Option Nat :=
  match s.fld (R.PORT.SECY_CTRL.CONF_OFFSET p) with
  | 0 => some 0
  | 1 => some 30
  | 2 => some 50
  | _ => none

/-- The next packet number of the transmit SA: the last one stops the SA, and the threshold is reported (R153). -/
def State.usePn (s : State) (p : Nat) (a : Sa) : State :=
  let last := if s.xpn p then 2 ^ 64 - 1 else 2 ^ 32 - 1
  let th := s.fld (R.PORT.PN_TH.TH p)
  let hit := if s.xpn p then decide (a.pn / 2 ^ 32 = th ∧ (a.pn % 2 ^ 32 = 0 ∨ a.pn ≤ 1)) else decide (a.pn = th)
  let y := s.secy p
  let s1 := s.setSecy p { y with tx := some { a with pn := a.pn + 1 }, stopped := decide (last ≤ a.pn) }
  let s2 := if hit then (s1.setB (R.PORT.STICKY.PN_TH_SEEN p) true).raise (136 + p) else s1
  (if last ≤ a.pn then s2.detect (48 + p) else s2).showSecy p

/-- Protection of a frame that leaves port `p` (R152, R154). -/
def State.protectFrame (s : State) (p : Nat) (uncontrolled : Bool) (m : List Byte) : State × List Byte :=
  if !s.secyOn p || uncontrolled then (s, m)
  else
    match s.txSa p with
    | none => (s.stat p 11, m)
    | some a =>
      let sc := s.on (R.PORT.SECY_CTRL.INCLUDE_SCI p)
      let sci := s.macAddr p ++ [0, 1]
      let data := m.drop 12
      let conf := s.confOffset p
      let tci := 0x40 * b2n (s.on (R.PORT.SECY_CTRL.USE_ES p) && !sc) + 0x20 * b2n sc +
        0x10 * b2n (s.on (R.PORT.SECY_CTRL.USE_SCB p) && !sc) + 0x0C * b2n conf.isSome + a.an
      let tag := [0x88, 0xE5, BitVec.ofNat 8 tci, BitVec.ofNat 8 (if data.length < 48 then data.length else 0)] ++
        beBytes 4 a.pn ++ (if sc then sci else [])
      let clear := match conf with
        | some o => data.take o
        | none => data
      let r := gcmSeal a.key (s.secIv p a sci a.pn) (m.take 12 ++ tag ++ clear) (data.drop clear.length)
      ((s.usePn p a).stat p (if conf.isSome then 10 else 9), m.take 12 ++ tag ++ clear ++ r.1 ++ r.2)

/-- A received SecTAG: TCI and AN, SL, packet number, SCI where it is given, and its length. -/
structure SecTag where
  tci : Nat
  sl : Nat
  pn : Nat
  sci : Option (List Byte)
  len : Nat
  deriving DecidableEq, Repr

/-- The SecTAG of a frame with EtherType 0x88E5. -/
def secTag (m : List Byte) : SecTag :=
  let t := beAt m 14 1
  { tci := t, sl := beAt m 15 1, pn := beAt m 16 4,
    sci := if t.testBit 5 then some (slice m 20 8) else if t.testBit 6 then some (slice m 6 6 ++ [0, 1])
           else if t.testBit 4 then some (slice m 6 6 ++ [0, 0]) else none
    len := if t.testBit 5 then 16 else 8 }

/-- What the SecY makes of a received frame before its ICV is checked: a refusal or a delivery with the statistic that counts
it, or the SA that verifies it with the packet number. -/
inductive SecJudge where
  | refuse (stat : Option Nat)
  | clear (stat : Nat)
  | strip (stat : Option Nat)
  | verify (sci : List Byte) (a : Sa) (pn : Nat)
  deriving DecidableEq, Repr

/-- The packet number of a tag under a SA: under XPN its high word follows the lowest acceptable one. -/
def State.fullPn (s : State) (p : Nat) (a : Sa) (low : Nat) : Nat :=
  if s.xpn p then
    let hi := a.pn / 2 ^ 32
    (if (a.pn % 2 ^ 32).testBit 31 && !low.testBit 31 then hi + 1 else hi) * 2 ^ 32 + low
  else low

/-- The receive SC of a tag: the one it names, or the only one (802.1AE). -/
def State.rxSc (s : State) (p : Nat) (t : SecTag) : Option (List Byte × List Sa) :=
  match t.sci with
  | some c => ((s.secy p).rx.find? fun e => decide (beBytes 8 e.1 = c)).map fun e => (c, e.2)
  | none => match (s.secy p).rx with
    | [e] => some (beBytes 8 e.1, e.2)
    | _ => none

/-- The handling of a received frame by 802.1AE-2018 clause 10.6 up to the ICV; `whole` where the frame's end is known. -/
def State.secJudge (s : State) (p : Nat) (m : List Byte) (whole : Bool) : SecJudge :=
  let strict := decide (s.fld (R.PORT.SECY_CTRL.VALIDATE p) = 2)
  if beAt m 12 2 ≠ 0x88E5 then
    -- EAPOL reaches the uncontrolled port
    if strict && decide (beAt m 12 2 ≠ 0x888E) then .refuse (some 1) else .clear 0
  else
    let t := secTag m
    let c := t.tci.testBit 2
    let e := t.tci.testBit 3
    let dataLen := m.length - 12 - t.len - 16
    let bad := t.tci.testBit 7 || (t.tci.testBit 5 && (t.tci.testBit 6 || t.tci.testBit 4)) || decide (48 ≤ t.sl) ||
      (!s.xpn p && decide (t.pn = 0)) || (whole && decide (m.length < 28 + t.len ∨ (t.sl = 0 ∧ dataLen < 48) ∨ dataLen < t.sl))
    if bad then .refuse (some 2)
    else if e && !c then .refuse none
    else
      match s.rxSc p t with
      | none => if strict || c then .refuse (some 3) else .strip (some 4)
      | some (sci, sas) =>
        match sas.find? fun a => decide (a.an = t.tci % 4) && a.inUse with
        | none => if strict || c then .refuse (some 12) else .strip (some 13)
        | some a =>
          let pn := s.fullPn p a t.pn
          if s.on (R.PORT.SECY_CTRL.REPLAY p) && decide (pn + s.fld (R.PORT.REPLAY_WINDOW.WINDOW p) < a.pn) then .refuse (some 7)
          else if s.fld (R.PORT.SECY_CTRL.VALIDATE p) = 0 then .strip none
          else .verify sci a pn

/-- The secure data of a frame: without addresses, SecTAG and ICV, and without padding where SL gives its length. -/
def secData (m : List Byte) (t : SecTag) : List Byte × List Byte :=
  let rest := m.drop (12 + t.len)
  let n := if t.sl = 0 then rest.length - 16 else t.sl
  (rest.take n, slice rest n 16)

/-- Verification of a whole received frame without FCS: the frame delivered, none where the SecY refuses it (R152). -/
def State.secVerify (s : State) (p : Nat) (m : List Byte) : State × Option (List Byte) :=
  let t := secTag m
  let d := secData m t
  match s.secJudge p m true with
  | .refuse none => (s, none)
  | .refuse (some k) => (s.stat p k, none)
  | .clear k => (s.stat p k, some m)
  | .strip o => (match o with
    | some k => s.stat p k
    | none => s, some (m.take 12 ++ d.1))
  | .verify sci a pn =>
    let c := t.tci.testBit 2
    let off := if t.tci.testBit 3 then (s.confOffset p).getD 0 else d.1.length
    let o := gcmOpen a.key (s.secIv p a sci pn) (m.take (12 + t.len) ++ d.1.take off) (d.1.drop off) d.2
    match o with
    | some x =>
      let y := s.secy p
      let upd (b : Sa) : Sa := if b.an = a.an ∧ b.pn ≤ pn then { b with pn := pn + 1 } else b
      let y1 := { y with rx := y.rx.map fun e => if beBytes 8 e.1 = sci then (e.1, e.2.map upd) else e }
      ((s.setSecy p y1).stat p 8, some (m.take 12 ++ d.1.take off ++ x))
    | none =>
      if c || decide (s.fld (R.PORT.SECY_CTRL.VALIDATE p) = 2) then (s.stat p 5, none)
      else (s.stat p 6, some (m.take 12 ++ d.1))

/-- The head of a frame in reception as the pre-classifier sees it: its bytes so far that lie before ICV and FCS; none where the
SecY is to refuse the frame. -/
def State.secHead (s : State) (p : Nat) (m : List Byte) : Option (List Byte) :=
  if !s.secyOn p then some (m.take (m.length - 4))
  else
    let t := secTag m
    let d := m.drop (12 + t.len)
    let body := d.take (d.length - 20)
    match s.secJudge p m false with
    | .refuse _ => none
    | .clear _ => some (m.take (m.length - 4))
    | .strip _ => some (m.take 12 ++ body)
    | .verify sci a pn =>
      let off := if t.tci.testBit 3 then (s.confOffset p).getD 0 else body.length
      let ct := body.drop off
      some (m.take 12 ++ body.take off ++
        gctr (aesKeys a.key) (ct.length / 16 + 1) (ofBe (s.secIv p a sci pn ++ [0, 0, 0, 1])) ct)

/-- A write of SA state (R151): at most 7 receive SCs. -/
def State.saWrite (s : State) (p : Nat) (op : SaOp) : State :=
  let y := s.secy p
  let y1 : SecY := match op with
    | .tx an key salt ssci pn =>
      { y with tx := some { an := an.val, key := key, salt := salt, ssci := ssci, pn := pn, inUse := true }, everTx := true, stopped := false }
    | .txOff => { y with tx := none }
    | .rx sci an key salt ssci low =>
      let a : Sa := { an := an.val, key := key, salt := salt, ssci := ssci, pn := low, inUse := true }
      if y.rx.any fun e => decide (e.1 = sci.toNat) then
        { y with rx := y.rx.map fun e => if e.1 = sci.toNat then (e.1, a :: e.2.filter fun b => decide (b.an ≠ an.val)) else e }
      else if y.rx.length < 7 then { y with rx := y.rx ++ [(sci.toNat, [a])] }
      else y
    | .rxOff sci an =>
      let keep := y.rx.map fun (e : Nat × List Sa) => if e.1 = sci.toNat then (e.1, e.2.filter fun b => decide (b.an ≠ an.val)) else e
      { y with rx := keep.filter fun e => !e.2.isEmpty }
  (s.setSecy p y1).showSecy p

/-! ## The pre-classifier (R145-R147) -/

def State.pcpEntry (s : State) (p e : Nat) : Nat := s.fld (R.PORT.PCP_MAP_k.ENTRY p (e / 4) (e % 4))
def State.dscpEntry (s : State) (p d : Nat) : Nat := s.fld (R.PORT.DSCP_MAP_k.ENTRY p (d / 4) (d % 4))
def isTpid (n : Nat) : Bool := decide (n = 0x8100 ∨ n = 0x88A8)

/-- The traffic class and drop precedence of a frame. -/
def State.preclass (s : State) (p : Nat) (m : List Byte) : Nat × Nat :=
  let tag1 := isTpid (beAt m 12 2)
  let o := if tag1 && isTpid (beAt m 16 2) then 20 else if tag1 then 16 else 12
  let ety := beAt m o 2
  let dflt := (s.fld (R.PORT.PRECLASS.DEFAULT_TC p), s.fld (R.PORT.PRECLASS.DEFAULT_DP p))
  let split (e : Nat) : Nat × Nat := (e % 16, e / 16 % 4)
  match (List.range 8).find? fun k => s.on (R.PORT.ETYPE_k.EN p k) && decide (s.fld (R.PORT.ETYPE_k.ETYPE p k) = ety) with
  | some k => (s.fld (R.PORT.ETYPE_k.TC p k), s.fld (R.PORT.ETYPE_k.DP p k))
  | none =>
    let tci := beAt m 14 2
    let byPcp := if tag1 then split (s.pcpEntry p (bitsOf tci 12 1 * 8 + bitsOf tci 13 3)) else dflt
    let ip := ety = 0x0800 ∨ ety = 0x86DD
    let dscp := if ety = 0x0800 then beAt m (o + 3) 1 / 4 else beAt m (o + 2) 2 / 64 % 64
    match s.fld (R.PORT.PRECLASS.TRUST p) with
    | 0 => dflt
    | 1 => byPcp
    | 2 => if ip then split (s.dscpEntry p dscp) else dflt
    | _ => if ip then split (s.dscpEntry p dscp) else byPcp

/-! ## Source FIFOs (R34-R39, R32) -/

/-- The heads in a source FIFO (R311). -/
def State.fifo (s : State) (src : Nat) : List Nat := s.pipe.fifo.get [] src
/-- Some source FIFO holds more than half the boost threshold (R32). -/
def State.fifosFull (s : State) : Bool := s.pipe.fifo.any fun e => decide (s.eff R.CADENCE.LIGHT.BOOST_TH < 2 * e.2.length)
/-- While some source FIFO holds more than half the boost threshold, boost goes on for 100 us from now (R32). -/
def State.boostNote (s : State) : State :=
  if s.on R.CADENCE.STATUS.BOOST ∧ s.fifosFull then s.arm .boost (usec 100) else s
/-- A source FIFO changes; how full the FIFOs stood until now is noted for boost. -/
def State.setFifo (s : State) (src : Nat) (l : List Nat) : State :=
  { s.boostNote with pipe := { s.pipe with fifo := s.pipe.fifo.put [] src l } }

/-- A source FIFO has reached the boost threshold: boost begins, and its slew of 50 mV/us from the present VCORE to the ceiling
(R30, R32). -/
def State.boostStart (s : State) : State :=
  if !s.on R.CADENCE.STATUS.BOOST ∧ s.on R.CADENCE.CTRL.GOV_EN ∧ !s.on R.CADENCE.CTRL.FIXED ∧ s.on R.DEAL.STATUS.FWD ∧
      s.pipe.fifo.any (fun e => decide (s.eff R.CADENCE.LIGHT.BOOST_TH ≤ e.2.length)) then
    let d := 2 * s.fld R.CADENCE.VCORE.CEILING - s.cad.v
    let s1 := { s with cad := { s.cad with riseEnd := if d = 0 then none else some (s.now + (d + 1) / 2) } }
    (((s1.cadStatus R.CADENCE.STATUS.BOOST 1 true).holdV).arm .boost (usec 100)).showFloor
  else s

/-- A frame is trump-protected (R35). -/
def State.trump (s : State) (f : Frm) : Bool := decide (s.eff R.CADENCE.TRUMP_TC.TC_MIN ≤ f.tc)
/-- The fill at which a frame is shed, for a FIFO of 96 heads (R36). -/
def State.shedTh (s : State) (f : Frm) : Nat :=
  if s.trump f then 96
  else match f.dp with
    | 3 => s.eff R.CADENCE.SHED_TH.TH3
    | 2 => s.eff R.CADENCE.SHED_TH.TH2
    | 1 => s.eff R.CADENCE.SHED_TH.TH1
    | _ => s.eff R.CADENCE.SHED_TH.TH0

/-- The head of frame `i` is written to source FIFO `src`, or the frame is shed (R36, R39); whether it entered.  Before forwarding begins
and in Fold the frame is discarded (R55, R403); a marker is no frame, and is dropped without count (R384). -/
def State.enterFifo (s : State) (src i : Nat) : State × Bool :=
  match s.frame i with
  | none => (s, false)
  | some f =>
   if s.on R.FAULT.STATE.FOLD then (s.discard i dFold, false)
   else
    let n := if src < 56 then pipeOf src else src - 56
    let s0 := { s with cad := { s.cad with offered := s.cad.offered.upd 0 n (· + 1) } }
    if (if 56 ≤ src then 2 else 1) * s.shedTh f ≤ (s.fifo src).length then
     if f.shim.any fun x => bitOf x 3 then (s0.forget i, false)
     else
      let k := if s.trump f then 4 else f.dp
      let s1 := (s0.bump (R.CADENCE.SHED_Pn_Ck.COUNT n k)).setBit R.CADENCE.STICKY.SHED_SEEN n true
      let s2 := { s1 with cad := { s1.cad with shedAt := s1.cad.shedAt.put none n (some s1.now) } }
      ((s2.detect 33).discard i dShed, false)
    else ((s0.setFifo src (s0.fifo src ++ [i])).boostStart, true)

/-! ## Reception (R141-R143) -/

/-- A new frame of an Ethernet port. -/
def State.newRx (s : State) (p ago tc dp : Nat) : State × Nat :=
  s.newFrame { src := p, cells := [], got := 0, head := [], len := none, whole := false, noCell := false, crcBad := false, tc := tc, dp := dp,
               ts := some (s.rxStamp p ago), pass2 := false, epoch := 0, counted := false, hash := 0, marked := false, kprof := 0,
               shim := none, parsed := Parsed.init, late := none, doom := 0, settled := false, rows := s.tabs.nWrites }

/-- The index of the RX_ERR counter of the first check of R141 that a whole frame fails, and the frame that the SecY delivers.
`err`: 1 a bad preamble or SFD, 2 truncation. -/
def State.rxCheck (s : State) (p err : Nat) (m : List Byte) : State × (Nat ⊕ List Byte) :=
  if err = 1 then (s, .inl 7)
  else if err = 2 then (s, .inl 4)
  else if m.length < 64 then (s, .inl 1)
  else if s.eff (R.PORT.CFG.MAX_LEN p) < m.length then (s, .inl 2)
  else
    let body := m.take (m.length - 4)
    let v := if s.secyOn p then s.secVerify p body else (s, some body)
    match v.2 with
    | none => (v.1, .inl 3)
    | some x => if crc32 body = ofLe (m.drop (m.length - 4)) then (v.1, .inr x) else (v.1, .inl 0)

def State.rxErr (s : State) (p k : Nat) : State := s.bump (R.PORT.RX_ERR_k.COUNT p k)
/-- A frame has passed R141 and is not MAC control (R164). -/
def State.rxGood (s : State) (p n : Nat) : State := (s.bump (R.PORT.RX_FRAMES.COUNT p)).add (R.PORT.RX_BYTES.COUNT p) n
/-- The port receives: its lane has no link fault and its receiver runs. -/
def State.receives (s : State) (p : Nat) : Bool :=
  s.portExists p && s.powered p && s.powered (48 + p) && decide (s.fault p = 0) && decide (s.eff (R.LANE.CTRL.MODE p) ≠ 0)

/-- The port accepts a frame whose SFD came `ago` ns ago: it is live, or the SFD came before the write of 0 to EN (R159). -/
def State.accepts (s : State) (p ago : Nat) : Bool :=
  s.portLive p || (s.mac.closedAt.get none p).any fun t => decide (20 * s.now ≤ 20 * t + ago)

/-- A whole frame of 388 bytes or less, as received: rejected, or its head enters (R142). -/
def State.rxShort (s : State) (p err ago : Nat) (m : List Byte) : State :=
  if !s.accepts p ago then s.rxErr p 6
  else
    match s.rxCheck p err m with
    | (s1, .inl k) => s1.rxErr p k
    | (s1, .inr x) =>
      if beAt m 12 2 = 0x8808 then s1.rxErr p 5
      else
        let c := s1.preclass p x
        let r := (s1.rxGood p m.length).newRx p ago c.1 c.2
        let s2 := (r.1.append r.2 x).modFrame r.2 fun f => { f with len := some (x.length + 4), whole := true }
        (s2.enterFifo p r.2).1

/-- The head of a longer frame, of which `m` has been received (R142). -/
def State.rxHead (s : State) (p ago : Nat) (m : List Byte) : State :=
  if !s.accepts p ago then s.setRx p (some { bytes := [], frame := none, dead := true }) |>.rxErr p 6
  else
    let rest : Rx := { bytes := m, frame := none, dead := false }
    match if beAt m 12 2 = 0x8808 then none else s.secHead p m with
    | none => s.setRx p (some rest)
    | some x =>
      if x.length < 384 then s
      else
        let c := s.preclass p x
        let r := s.newRx p ago c.1 c.2
        match (r.1.append r.2 x).enterFifo p r.2 with
        | (s1, ok) => s1.setRx p (some { rest with frame := if ok then some r.2 else none })

/-! ## Links (R156-R160) -/

/-- The SPEED code of a port's mode, with the PHY's SGMII speed where it is used (R135, R139). -/
def State.speedCode (s : State) (p phy : Nat) : Nat :=
  match s.eff (R.LANE.CTRL.MODE p) with
  | 1 => 1 + (if s.on (R.PORT.CTRL.AN p) then phy else s.eff (R.PORT.CTRL.SGMII_SPEED p))
  | 2 => 3
  | 3 => 4
  | 4 => 5
  | 5 => 6
  | 6 => 7
  | _ => 0

/-- Every copy of a port's queues and ready slots is discarded (R158, R159). -/
def State.flushPort (s : State) (p : Nat) : State :=
  (s.purgeReady p dPortDown fun _ => true).each (List.range 16) fun s q => s.purge p q dPortDown fun _ => true

/-- Shows that a port's link is down. -/
def State.showDown (s : State) (p reason : Nat) : State :=
  ((((s.setB (R.PORT.STATUS.LINK p) false).set (R.PORT.STATUS.DOWN_REASON p) (if reason = 11 then 4 else reason)).set
    (R.PORT.STATUS.SPEED p) 0).setB (R.PORT.STATUS.HOLDING p) false)

/-- What lane `l` has lost, or hi_ber, is seen in its STICKY (R163). -/
def State.laneSeen (s : State) (l reason : Nat) : State :=
  let m := if reason = 3 then 3 else if reason = 4 then 2 else if reason = 5 then 4 else 0
  if s.powered (48 + l) then s.orIn (R.LANE.STICKY.SEEN l) m else s

/-- The port of lane `l`: a gang's port is that of its lead lane (R138). -/
def State.lanePort (s : State) (l : Nat) : Nat := if s.gang (l / 4) then l / 4 * 4 else l

/-- A write of 0 to EN (R159): no SFD is accepted from now on; a hold-down that runs goes on, and its end discards what remains (R160). -/
def State.portDisable (s : State) (p : Nat) : State :=
  if !s.on (R.PORT.CTRL.EN p) || !s.portExists p then s
  else
    let was := s.linkUp p
    let d := usec (s.eff (R.PORT.DRAIN_TO.TIMEOUT p))
    let s1 := ((((s.setB (R.PORT.CTRL.EN p) false).showDown p 1).setPortQuiesce p 1).arm (.portDrain p) d).arm (.quiesceAck p) (d + msec 1)
    let s2 := ((s1.disarm (.holdUp p)).setB (R.PORT.STATUS.QUIESCED p) false).setB (R.PORT.STATUS.HOLDING p) (s.running (.holdDown p))
    let s2 := { s2 with mac := { s2.mac with closedAt := s2.mac.closedAt.put none p (some s.now) } }
    let s3 := if was then s2.raise (136 + p) else s2
    if s.on (R.PORT.CTRL.DRAIN_MODE p) then s3.flushPort p else s3

/-- The port waits for a fault-free interval of HOLD_UP (R156). -/
def State.holdUp (s : State) (p : Nat) : State :=
  (s.arm (.holdUp p) (msec (s.eff (R.PORT.LINK_HOLD.HOLD_UP p)))).setB (R.PORT.STATUS.HOLDING p) true

/-- A write of 1 to EN (R160): before QUIESCED, the port re-enables once its quiesce has run. -/
def State.portEnable (s : State) (p : Nat) : State :=
  if s.on (R.PORT.CTRL.EN p) || !s.portExists p then s
  else if s.portQuiesce p = 1 then (s.setB (R.PORT.CTRL.EN p) true).setPortQuiesce p 2
  else
    let s1 := ((s.setB (R.PORT.CTRL.EN p) true).setB (R.PORT.STATUS.QUIESCED p) false).showDown p (if s.fault p = 0 then 1 else s.fault p)
    if s.fault p = 0 then s1.holdUp p else s1

/-- Step 3 of R159 once nothing is left to send. -/
def State.portQuiesced (s : State) (p : Nat) : State :=
  let e := s.eport p
  if s.portQuiesce p ≠ 0 ∧ e.ready.isEmpty ∧ e.wire.isNone ∧ (List.range 16).all (fun q => (s.queue p q).isEmpty) then
    let again := decide (s.portQuiesce p = 2)
    let s0 := (((s.setPortQuiesce p 0).disarm (.portDrain p)).disarm (.quiesceAck p)).disarm (.holdDown p)
    let s1 := ((s0.setB (R.PORT.STATUS.HOLDING p) false).setB (R.PORT.STATUS.QUIESCED p) true).raise (136 + p)
    if again then ((s1.setB (R.PORT.CTRL.EN p) false).portEnable p) else s1
  else s

end Sys2Proof.Machine
end

