-- ==== Sys2Proof/Machine/Police.lean ====
section
/-! DEFINITION. Ingress policing: stream filters, stream gates, meters and the exception-queue policers (R206, R348-R354). -/
namespace Sys2Proof.Machine

/-! ## Stream gates (R351) -/

def State.sg (s : State) (l : Nat) : SgSt := s.pipe.sg.get SgSt.init l
def State.setSg (s : State) (l : Nat) (x : SgSt) : State :=
  { s with pipe := { s.pipe with sg := s.pipe.sg.put SgSt.init l x } }
/-- The start of each entry of a list within its cycle. -/
def State.sgStarts (s : State) (l : Nat) : List (Nat × Nat) :=
  ((List.range (s.sgCount l)).foldl (fun (a : Nat × List (Nat × Nat)) e => (a.1 + sgNs (s.sgEntry l e), a.2 ++ [(e, a.1)])) (0, [])).2
/-- The entry of a list at an instant of the gate-time instance. -/
def State.sgAt (s : State) (l : Nat) (t : Int) : Nat :=
  let c := s.sgCycle l
  let o := if c = 0 then 0 else t % (c : Int)
  match (s.sgStarts l).reverse.find? fun e => decide ((e.2 : Int) ≤ o) with
  | some e => e.1
  | none => 0
/-- The entry that a frame meets: that of its ingress timestamp, or the one held after a step (R181). -/
def State.sgMeets (s : State) (l : Nat) (f : Frm) : Nat :=
  let x := s.sg l
  if x.restart.isSome then x.entry
  else match f.ts with
    | some ts => s.sgAt l (s.toGate ts)
    | none => x.entry
/-- A stream-gate list takes the entry that is due, and its octet count restarts (R351); a held list restarts with entry 0 at
its boundary (R181). -/
def State.sgNext (s : State) (l : Nat) : State :=
  if s.sgCount l = 0 then s
  else
    let x := s.sg l
    match x.restart with
    | some t => if t ≤ s.gateNs then s.setSg l { entry := 0, octets := 0, restart := none } else s
    | none => s.setSg l { x with entry := s.sgAt l s.gateNs, octets := 0 }

/-! ## Stream filters (R349, R350) -/

def State.sf (s : State) (n : Nat) : SfSt := s.pipe.sf.get SfSt.init n
def State.setSf (s : State) (n : Nat) (x : SfSt) : State :=
  { s with pipe := { s.pipe with sf := s.pipe.sf.put SfSt.init n x } }
def State.modSf (s : State) (n : Nat) (g : SfSt → SfSt) : State := s.setSf n (g (s.sf n))
def inc32 (n : Nat) : Nat := (n + 1) % 2 ^ 32
/-- The meter that a filter names. -/
def sfMeter (r : Nat) : Option Nat := if bitOf r 51 then some (bitsOf r 37 14) else none
def sfGate (r : Nat) : Option Nat := if bitOf r 60 then some (bitsOf r 52 8) else none
def sfMaxSdu (r : Nat) : Nat := bitsOf r 23 14

/-- What stream filtering makes of a frame: refused, or passed with a queue where an entry gives one. -/
inductive SfOut where
  | refused
  | passed (q : Option Nat)
  deriving DecidableEq, Repr

/-- Steps 1 to 5 of R350 for a frame of length `len` bound to filter `n`. -/
def State.sfCheck (s : State) (n len : Nat) (f : Frm) : State × SfOut :=
  let r := s.rowSeen f.rows 0x30 n
  let x := s.sf n
  if x.blocked then ((s.setSf n { x with sdu := inc32 x.sdu }).setB R.TM.POLICE_STICKY.BLOCKED_SEEN true, .refused)
  else if sfMaxSdu r ≠ 0 ∧ sfMaxSdu r < len then
    let b := bitOf r 22
    let s1 := (s.setSf n { x with sdu := inc32 x.sdu, blocked := b }).setB R.TM.POLICE_STICKY.SDU_SEEN true
    (if b then s1.setB R.TM.POLICE_STICKY.BLOCKED_SEEN true else s1, .refused)
  else
    match sfGate r with
    | none => (s, .passed none)
    | some l =>
      let w := s.sgEntry l (s.sgMeets l f)
      let g := s.sg l
      let cap := bitsOf w 0 24
      if !bitOf w 61 then ((s.setSf n { x with gate := inc32 x.gate }).setB R.TM.POLICE_STICKY.GATE_DROP_SEEN true, .refused)
      else if cap ≠ 0 ∧ cap < g.octets + len then (s.setSf n { x with oct := inc32 x.oct }, .refused)
      else (s.setSg l { g with octets := g.octets + len }, .passed (if bitOf w 60 then some (bitsOf w 56 4) else none))

/-- The queue that the entry which a frame meets gives it, where its filter lets it pass (step 5 of R350). -/
def State.sfQueue (s : State) (n : Nat) (f : Frm) : Option Nat :=
  (sfGate (s.rowSeen f.rows 0x30 n)).bind fun l =>
    let w := s.sgEntry l (s.sgMeets l f)
    if bitOf w 60 then some (bitsOf w 56 4) else none

/-- `SF_UNBLOCK` (R350). -/
def State.sfUnblock (s : State) (n : Nat) : State := s.modSf n fun x => { x with blocked := false }

/-! ## Meters (R352) -/

def State.mt (s : State) (n : Nat) : MtSt := s.pipe.meter.get MtSt.init n
def State.setMt (s : State) (n : Nat) (x : MtSt) : State :=
  { s with pipe := { s.pipe with meter := s.pipe.meter.put MtSt.init n x } }

/-- The buckets of a meter with row `r` at the present instant, in 1/8,000,000 byte. -/
def State.refill2 (s : State) (n r : Nat) : Nat × Nat :=
  let x := s.mt n
  let dt := s.mono - x.since
  let cbs := bitsOf r 168 24 * shUnit
  let ebs := bitsOf r 144 24 * shUnit
  let tc := (x.tc.getD cbs) + bitsOf r 224 32 * dt
  (min tc cbs, min ebs ((x.te.getD ebs) + bitsOf r 192 32 * dt + (if bitOf r 143 then tc - cbs else 0)))

/-- The colour that meter `n` with row `r` gives a frame of `b` bytes with drop precedence `dp`: 0 green, 1 yellow, 2 red (R352). -/
def State.colour (s : State) (n r b dp : Nat) : State × Nat :=
  let x := s.mt n
  let t := s.refill2 n r
  let d := b * shUnit
  let aware := bitOf r 142
  if x.red then (s.setMt n { x with tc := some t.1, te := some t.2, since := s.mono, nRed := inc32 x.nRed }, 2)
  else if (!aware || decide (dp ≤ 1)) && decide (d ≤ t.1) then
    (s.setMt n { x with tc := some (t.1 - d), te := some t.2, since := s.mono, nGreen := inc32 x.nGreen }, 0)
  else if (!aware || decide (dp ≠ 3)) && decide (d ≤ t.2) then
    (s.setMt n { x with tc := some t.1, te := some (t.2 - d), since := s.mono, nYellow := inc32 x.nYellow }, 1)
  else
    (s.setMt n { x with tc := some t.1, te := some t.2, since := s.mono, red := bitOf r 140, nRed := inc32 x.nRed }, 2)

/-- `METER_CLEAR_RED` (R357). -/
def State.meterClearRed (s : State) (n : Nat) : State := s.setMt n { s.mt n with red := false }

/-- What the meter, with the row `r` that the frame's head saw, makes of a frame: its drop precedence, or none where it is discarded. -/
def State.meter (s : State) (n r b dp : Nat) (sf : Option Nat) : State × Option Nat :=
  let c := s.colour n r b dp
  let s1 := c.1
  let drop (s : State) : State := match sf with
    | some k => s.modSf k fun x => { x with red := inc32 x.red }
    | none => s
  match c.2 with
  | 0 => (s1, some dp)
  | 1 =>
    if bitOf r 141 then (drop s1, none)
    else (match sf with
      | some k => s1.modSf k fun x => { x with yellow := inc32 x.yellow }
      | none => s1, some (max dp (bitsOf r 138 2)))
  | _ => (drop (s1.setB R.TM.POLICE_STICKY.RED_SEEN true), none)

/-! ## Exception queues (R206) -/

/-- The policer of exception queue `q` takes one frame, or refuses it. -/
def State.xpolTake (s : State) (q : Nat) : State × Bool :=
  if !s.on (R.PARSE.XPOL_RATE_q.EN q) then (s, true)
  else
    let cap := s.eff (R.PARSE.XPOL_BURST_q.BURST q) * 1000000000
    let x := s.pipe.xpol.get (none, 0) q
    let t := min cap ((x.1.getD cap) + s.eff (R.PARSE.XPOL_RATE_q.RATE q) * (s.mono - x.2))
    let ok := decide (1000000000 ≤ t)
    let s1 := { s with pipe := { s.pipe with xpol := s.pipe.xpol.put (none, 0) q (some (if ok then t - 1000000000 else t), s.mono) } }
    if ok then (s1, true) else (s1.bump (R.PARSE.XPOL_DROP_q.COUNT q), false)

end Sys2Proof.Machine
end

