-- ==== Sys2Proof/Machine/Route.lean ====
section
/-! DEFINITION. Seat routes, shims, reorder guards and the credit that selection asks for (R20, R358-R362, R368, R382-R385). -/
namespace Sys2Proof.Machine

/-! ## Routes (R382) -/

def State.routeEntry (s : State) (d : Nat) : Nat := s.nel.routes.get 0 d
/-- How often the route of a seat has changed its link. -/
def State.moves (s : State) (d : Nat) : Nat := s.nel.moves.get 0 d
/-- The link in use of a route entry. -/
def linkOf (e : Nat) : Option Nat :=
  if bitOf e 23 then (if bitOf e 27 then some (bitsOf e 24 3) else none) else if bitOf e 31 then some (bitsOf e 28 3) else none
/-- The entry of seat `d` as a head sees it that entered after `n` route writes (R382). -/
def State.routeSeen (s : State) (n d : Nat) : Nat :=
  match s.nel.wrote.find? fun e => decide (n < e.1) && decide (e.2.1 = d) with
  | some e => e.2.2
  | none => s.routeEntry d
/-- Forgets the old entries that no head in the flow stage can still need. -/
def State.routeForget (s : State) : State :=
  if s.pipe.stage.any fun e => !e.2.isEmpty then s else { s with nel := { s.nel with wrote := [] } }
/-- A frame has met an invalid route. -/
def State.noRoute (s : State) : State := s.setB R.NLINK.SEAT_STICKY.NO_ROUTE_SEEN true

/-! ## Shims (R362) -/

/-- A shim from its fields. -/
def mkShim (seat port cls hash epoch hops len : Nat) (flood : Bool) : Nat :=
  seat % 1024 * 2 ^ 54 + port % 64 * 2 ^ 48 + cls % 16 * 2 ^ 44 + hash % 65536 * 2 ^ 28 + epoch % 4 * 2 ^ 26 + hops % 64 * 2 ^ 20 +
    len % 2 ^ 14 * 2 ^ 6 + b2n flood * 2 ^ 5
def shSeat (x : Nat) : Nat := bitsOf x 54 10
def shPort (x : Nat) : Nat := bitsOf x 48 6
def shClass (x : Nat) : Nat := bitsOf x 44 4
def shHash (x : Nat) : Nat := bitsOf x 28 16
def shEpoch (x : Nat) : Nat := bitsOf x 26 2
def shHops (x : Nat) : Nat := bitsOf x 20 6
def shLen (x : Nat) : Nat := bitsOf x 6 14
def shFlood (x : Nat) : Bool := bitOf x 5
def shAbort (x : Nat) : Bool := bitOf x 4
def shMarker (x : Nat) : Bool := bitOf x 3
def shEcho (x : Nat) : Bool := bitOf x 2
/-- The shim with HOPS decremented (R20). -/
def shDec (x : Nat) : Nat := x - bitsOf x 20 6 * 2 ^ 20 + (bitsOf x 20 6 - 1) * 2 ^ 20
/-- The shim with another LENGTH. -/
def shWithLen (x n : Nat) : Nat := x - bitsOf x 6 14 * 2 ^ 6 + n % 2 ^ 14 * 2 ^ 6
/-- HOPS of a frame that enters the Table here (R359). -/
def State.hopInit (s : State) : Nat := s.eff R.NLINK.HOP_INIT.HOPS

/-! ## Links -/

def State.link_ (s : State) (n : Nat) : Link := s.nel.links.get Link.init n
def State.setLink (s : State) (n : Nat) (x : Link) : State :=
  { s with nel := { s.nel with links := s.nel.links.put Link.init n x } }
def State.modLink (s : State) (n : Nat) (g : Link → Link) : State := s.setLink n (g (s.link_ n))
def State.linkState (s : State) (n : Nat) : Nat := s.fld (R.NLINK.STATE.STATE n)
/-- `a` lies before `b` in 24-bit serial arithmetic. -/
def before24 (a b : Nat) : Bool := decide (0 < (b + 2 ^ 24 - a % 2 ^ 24) % 2 ^ 24 ∧ (b + 2 ^ 24 - a % 2 ^ 24) % 2 ^ 24 < 2 ^ 23)
/-- Link `n` holds credit for class `k` (R368). -/
def State.credit (s : State) (n k : Nat) : Bool := before24 ((s.link_ n).sent.get 0 k) ((s.link_ n).grant.get 0 k)

/-! ## Guards (R383) -/

def State.guard (s : State) (d : Nat) : Option Guard := s.nel.guards.get none d
/-- A copy is held by a running guard: it stands on a new link, to which its seat's route had changed when it was committed. -/
def State.isHeld (s : State) (c : Copy) : Bool :=
  match c.seat with
  | some (d, m) =>
    (match s.guard d with
    | some g => (g.holds.any fun e => decide (c.port = 48 + e.1 ∧ e.2 ≤ m)) && !c.oldPath
    | none => false)
  | none => false
/-- A copy for a seat is to be discarded when it is selected (R385). -/
def State.isStalePath (s : State) (c : Copy) : Bool :=
  c.oldPath && (match c.seat with
    | some (d, m) => (s.guard d).isNone || decide (s.moves d ≠ m)
    | none => false)

end Sys2Proof.Machine
end

