-- ==== Sys2Proof/Machine/Pipeline.lean ====
section
/-! DEFINITION. The ingress pipelines: taking a head, lookups and learning, the way out of the flow stage, policing, the final
decision, replication, mirroring and cut-through (R17-R24, R34, R155, R185, R227, R247, R301, R318-R323, R371, R372, R384). -/
namespace Sys2Proof.Machine

/-! ## The round robin (R34) -/

/-- The source FIFOs of pipeline `p`. -/
def pipeSrcs (p : Nat) : List Nat := ((List.range 12).map fun k => 12 * p + k) ++ [48 + 2 * p, 49 + 2 * p, 56 + p]
/-- The weight of a source. -/
def State.srcWeight (s : State) (src : Nat) : Nat :=
  if 56 ≤ src then 2 else if src < 48 ∧ src % 4 = 0 ∧ s.gang (src / 4) then 4 else 1
/-- The source that pipeline `p` serves next, with the heads left to it afterwards: the present one while it has heads and
weight left, else the next one that holds a head. -/
def State.pickSrc (s : State) (p : Nat) : Option (Nat × Nat) :=
  let l := pipeSrcs p
  let c := s.pipe.wrr.get (0, 0) p
  let busy (k : Nat) : Bool := !(s.fifo (l.getD k 0)).isEmpty
  if c.2 ≠ 0 ∧ busy c.1 then some (c.1, c.2 - 1)
  else (((List.range 15).map fun k => (c.1 + 1 + k) % 15).find? busy).map fun k => (k, s.srcWeight (l.getD k 0) - 1)
/-- The head that pipeline `p` takes. -/
def State.popHead (s : State) (p : Nat) : Option (Nat × State) :=
  (s.pickSrc p).bind fun c =>
    let src := (pipeSrcs p).getD c.1 0
    match s.fifo src with
    | [] => none
    | i :: t => some (i, (({ s with pipe := { s.pipe with wrr := s.pipe.wrr.put (0, 0) p c } }).setFifo src t))

/-! ## Into the flow stage -/

/-- The frame joins the flow stage of pipeline `p`. -/
def State.join (s : State) (p : Nat) (e : FlowHead) : State := s.setStage p (s.stage p ++ [e])
/-- A head without a flow lookup, with its decision. -/
def State.plainHead (s : State) (i : Nat) (d : Dec) : FlowHead :=
  { frame := i, dec := d, look := .none, prof := 0, key := [], swap := false, nHit := 1, since := s.now, route := s.nel.nWrites, learn := none }

/-- The action of a parse outcome (R201, R202): ACTION, XQ and L2_QUEUE.  A record is kept with bit 64 set. -/
def State.outcomeAct (s : State) (c : Nat) : Nat × Nat × Nat :=
  let r := s.row 0x104 c
  if bitOf r 64 then (bitsOf r 62 2, bitsOf r 58 4, bitsOf r 54 4)
  else (0, (if c ≤ 2 then 12 else c + 10), 0)

/-- The learn request of a frame from an Ethernet port (R219). -/
def State.learnOf (s : State) (h : PHead) (f : Frm) (kp fid : Nat) : Option Learn :=
  if s.on (R.TABLES.KPROF_p.CTRL.LEARN_EN kp) then
    some { fid := fid, mac := h.be (s.ethAt f.parsed.stack + 6) 6, seat := s.ownSeat, port := f.src }
  else none

/-- The stream-filter lookup of a frame whose profile asks for it (R348): an action's SET_SF stands before its result. -/
def State.sfLook (s : State) (h : PHead) (f : Frm) (kp fid : Nat) (d : Dec) : State × Dec :=
  if s.on (R.TABLES.KPROF_p.CTRL.SF_EN kp) then
    match s.sfFind fid (h.be (s.ethAt f.parsed.stack) 6) f.tc with
    | some n => (s, { d with sf := some (d.sf.getD n) })
    | none => (s.bump R.TM.SF_MISSES.COUNT, d)
  else (s, d)

/-- A head of an Ethernet frame or of a second pass goes through parser, key builder and lookups (R185-R227). -/
def State.ethHead (s : State) (p i : Nat) (f0 : Frm) : State :=
  let s0 := if f0.pass2 then s else
    let e := s.fld R.TABLES.RULESET_ACTIVE.BANK
    (s.setFrame i (some { f0 with epoch := e, counted := true })).bump (R.TABLES.INFLIGHT_k.COUNT e)
  let h := s.phead f0
  let node := if f0.pass2 then s.fld R.PARSE.START_RECIRC.NODE else s.fld (R.PARSE.START_k.NODE (f0.src / 4) (f0.src % 4))
  let pr := s.parse h node (s.domOn (150 + p))
  let fid := s.fid h pr.stack f0.src
  let kp := if f0.pass2 then f0.kprof else s.portKprof f0.src
  let s1 := s0.modFrame i fun f => { f with parsed := pr, hash := if f.pass2 then f.hash else s.plainHash h pr.stack fid }
  let s2 := s1.bump (R.PARSE.OUTCOME_Pp_c.COUNT p pr.outcome)
  let s3 := if pr.cskip then s2.bump (R.PARSE.OUTCOME_Pp_CSUM_SKIPPED.COUNT p) else s2
  match s3.frame i with
  | none => s3
  | some f =>
    if pr.outcome = 0 then
      let x := s3.sfLook h f kp fid (s3.resolve h f kp)
      let s4 := if f.pass2 then x.1.landed i else x.1
      let e := s4.flowEnter i h kp x.2 (s4.learnOf h f kp fid)
      e.1.join p e.2
    else
      let a := s3.outcomeAct pr.outcome
      let s4 := if f.pass2 then s3.landed i else s3
      match a.1 with
      | 1 => s4.discard i dParse
      | 2 =>
        let d := { s4.baseDec h pr.stack fid (h.be (s4.ethAt pr.stack) 6) kp true none false with q := some a.2.2 }
        let s5 := s4.modFrame i fun f => { f with marked := true }
        let e := { s5.plainHead i d with learn := s5.learnOf h f kp fid }
        (s5.learnHead e).join p { e with learn := none }
      | _ => s4.join p (s4.plainHead i { Dec.init with fwd := 3, xq := a.2.1, xcause := pr.outcome })

/-! ## Heads from links (R371, R372, R384) -/

/-- A unit that is no frame, for queue `q` of link `l`. -/
def unitCopy (l q : Nat) (unit : List Byte) : Copy :=
  { frame := none, unit := unit, port := 48 + l, q := q, cls := 0, tpl := none, trunc := 0, mirror := false, since := 0, ets := none,
    uncontrolled := false, shim := none, seat := none, oldPath := false, gen := [], xcause := 0, xmiss := false, xres := 0 }

/-- The bytes of a marker or an echo (R384). -/
def markerUnit (seat q hops origin id queue : Nat) (echo : Bool) : List Byte :=
  beBytes 8 (mkShim seat 0 q 0 0 hops 8 false + 2 ^ 3 + b2n echo * 2 ^ 2) ++ beBytes 2 origin ++ beBytes 2 id ++ beBytes 1 queue ++ [0, 0, 0]

/-- Shows how many guards run, and the GUARD bit of a seat's route. -/
def State.showGuards (s : State) (d : Nat) : State :=
  let e := s.routeEntry d
  let g := e - bitsOf e 22 1 * 2 ^ 22 + b2n (s.guard d).isSome * 2 ^ 22
  ({ s with nel := { s.nel with routes := s.nel.routes.put 0 d g } }).set R.NLINK.GUARDS.COUNT s.nel.guards.length

/-- The guard of seat `d` ends. -/
def State.guardEnd (s : State) (d : Nat) : State :=
  ({ s with nel := { s.nel with guards := s.nel.guards.put none d none } }).showGuards d

/-- An echo of guard `id` for queue `q` has returned (R383). -/
def State.echo (s : State) (id q : Nat) : State :=
  match s.nel.guards.find? fun e => match e.2 with
      | some g => decide (g.id = id) && g.echoes.isSome
      | none => false with
  | some (d, some g) =>
    let left := (g.echoes.getD []).filter fun x => decide (x ≠ q)
    if left.isEmpty then (s.guardEnd d).bump R.NLINK.GUARD_ECHO.COUNT
    else { s with nel := { s.nel with guards := s.nel.guards.put none d (some { g with echoes := some left }) } }
  | _ => s

/-- A unit goes to seat `d` by its route, as a frame does, or is dropped without count (R384). -/
def State.sendUnit (s : State) (d q : Nat) (unit : List Byte) : State :=
  match linkOf (s.routeEntry d) with
  | some l => if s.portTakes (48 + l) false then s.enqueue { unitCopy l q unit with since := s.mono, seat := some (d, s.moves d) } else s
  | none => s

/-- A marker or an echo that has reached the pipeline (R384). -/
def State.markerHead (s : State) (x : Nat) (body : List Byte) : State :=
  let origin := beAt body 0 2 % 1024
  if shSeat x = s.ownSeat then
    if shEcho x then s.echo (beAt body 2 2) (beAt body 4 1)
    else s.sendUnit origin 15 (markerUnit origin 15 s.hopInit (beAt body 0 2) (beAt body 2 2) (beAt body 4 1) true)
  else if shHops x ≤ 1 then s
  else s.sendUnit (shSeat x) (shClass x) (beBytes 8 (shDec x) ++ body.take 8)

/-- A head of a frame that came over link `n`, treated by its shim alone. -/
def State.linkHead (s : State) (p i : Nat) (f : Frm) (x : Nat) : State :=
  if shMarker x then (s.markerHead x f.head).forget i
  else
    let d : Dec := { Dec.init with fwd := 1, q := some (shClass x) }
    if shFlood x then
      let g := shHash x
      if !(s.fld R.NLINK.FLOOD_TREE.LINKS).testBit (f.src - 48) then s.discard i dNoRoute
      else
        let s1 := if s.on R.TABLES.MAC_CFG.REMOTE_LEARN ∧ g < 4096 ∧ shSeat x ≠ s.ownSeat then
            s.askLearn { fid := g, mac := beAt f.head 6 6, seat := shSeat x, port := shPort x }
          else s
        s1.join p (s1.plainHead i { d with group := some g, flood := true })
    else s.join p (s.plainHead i { d with seat := shSeat x, port := shPort x })

/-- The pipeline takes its next head (R34); in Fold the frame is discarded (R403), and so it is before forwarding begins
(R55). -/
def State.takeHead (s : State) (p : Nat) : State :=
  match s.popHead p with
  | none => s
  | some (i, s1) =>
    match s1.frame i with
    | none => s1
    | some f =>
      if s1.on R.FAULT.STATE.FOLD then s1.discard i dFold
      else
        -- the head sees the tables as they stand now (R230, R397)
        let f1 := { f with rows := s1.tabs.nWrites }
        match f.shim with
        | some x => (s1.setFrame i (some f1)).linkHead p i f1 x
        | none => (s1.setFrame i (some f1)).ethHead p i f1

/-! ## Destinations -/

/-- A copy of frame `i` for queue `q` of an egress port. -/
def mkCopy (i port q : Nat) : Copy := { unitCopy 0 q [] with frame := some i, port := port }

/-- The queue that a decision gives, none where it sets none (R148, R350). -/
def Dec.queue (d : Dec) (ipv : Option Nat) : Option Nat :=
  match d.qFlow, ipv with
  | some q, _ => some q
  | none, some q => some q
  | none, none => d.q

/-- The shim that a frame takes on a link: its own, with HOPS decremented, or a new one (R20, R218, R359, R362, R371). -/
def State.shimFor (s : State) (f : Frm) (d : Dec) (q : Nat) : Nat :=
  match f.shim with
  | some x => shDec x
  | none =>
    match d.group with
    | some g => mkShim s.ownSeat f.src q g f.epoch s.hopInit 0 true
    | none => mkShim d.seat d.port q f.hash f.epoch s.hopInit 0 false

/-- The discard of a decision that gives a frame no destination (R20, R227, R371), none where there is one. -/
def State.finalDrop (s : State) (f : Frm) (d : Dec) : Option Nat :=
  match d.fwd with
  | 0 => some dNoRoute
  | 1 =>
    if d.group.isSome then (if s.domOn 148 then none else some dNoRoute)
    else if d.seat = s.ownSeat then
      (if 48 ≤ d.port then some dNoRoute else if f.shim.isNone ∧ d.port = f.src then some dRule else none)
    else if f.shim.any fun x => decide (shHops x ≤ 1) then some dTtl
    else if d.link.isNone then some dNoRoute
    else none
  | 2 => some d.cause
  | 4 => if f.pass2 then some dPassLimit else none
  | _ => none

/-- Notes a forward to a seat whose route is invalid (R382, R389). -/
def State.noteRoute (s : State) (d : Dec) : State :=
  if d.fwd = 1 ∧ d.group.isNone ∧ d.seat ≠ s.ownSeat ∧ d.link.isNone then s.noRoute else s

/-- The row of a multicast group as the head of a frame saw it (R230, R397). -/
def State.groupRow (s : State) (f : Frm) (g : Nat) : Nat := s.rowSeen f.rows 0x21 g

/-- The member ports of a group for a frame (R318, R319, R372): no ingress port, no arrival link, no gang member, and not the port at
which a flooded frame entered the Table here. -/
def State.members (s : State) (f : Frm) (g : Nat) : List Nat :=
  let r := s.groupRow f g
  let tree := bitOf r 71
  (List.range 56).filter fun p =>
    (if p < 48 then bitOf r (72 + p) && s.portExists p
     else if tree then (s.fld R.NLINK.FLOOD_TREE.LINKS).testBit (p - 48) else bitOf r (72 + p)) &&
    decide (p ≠ f.src) && !(f.shim.any fun x => shFlood x && decide (shSeat x = s.ownSeat ∧ shPort x = p)) && !(decide (48 ≤ p) && f.shim.any fun x => decide (shHops x ≤ 1))

/-- The flow hash of a frame with its decision: a flooded frame takes its group index (R391). -/
def Dec.hash (d : Dec) (f : Frm) : Nat :=
  match if d.flood then d.group else none with
  | some g => g
  | none => f.hash

/-- What a copy of a forwarding decision carries beside its place (R175, R288). -/
def Dec.dress (d : Dec) (f : Frm) (c : Copy) : Copy :=
  { c with tpl := if f.shim.isNone then d.edit.map fun t => (t, d.editData) else none, ets := if d.ets then some (d.hash f) else none }

/-- The copies of a decision, without its mirrors. -/
def State.copies (s : State) (i : Nat) (f : Frm) (d : Dec) (ipv : Option Nat) : List Copy :=
  let q := (d.queue ipv).getD f.tc
  match d.fwd with
  | 1 =>
    match d.group with
    | some g =>
      let gq := (d.queue ipv).getD (bitsOf (s.groupRow f g) 67 4)
      (s.members f g).map fun p =>
        d.dress f { mkCopy i p gq with shim := if p < 48 then none else some (s.shimFor f d gq) }
    | none =>
      if d.seat = s.ownSeat then [d.dress f (mkCopy i d.port q)]
      else
        match d.link with
        | some l => [d.dress f { mkCopy i (48 + l) q with shim := some (s.shimFor f d q), seat := some (d.seat, s.moves d.seat) }]
        | none => []
  | 3 => [{ mkCopy i 56 d.xq with xcause := d.xcause, xmiss := d.flowMiss, xres := d.flowRes }]
  | 4 => [d.dress f (mkCopy i 57 q)]
  | _ => []

/-! ## Mirror sessions (R301) -/

/-- The copy of session `m`; none where the session is off or leads nowhere.  The destination that the shim of a KIND 1 copy
on a link names is not given by the spec: a free value.  `hash` is the flow hash of the original (R392); `links` gives the links of the seats of KIND 2 as the head saw them (R382). -/
def State.mirrorCopy (s : State) (i : Nat) (f : Frm) (hash : Nat) (links : List (Nat × Option Nat)) (m : Nat) : Option Copy :=
  let q := s.fld (R.EDIT.MIRROR_m.DEST.QUEUE m)
  let p := s.fld (R.EDIT.MIRROR_m.DEST.PORT m)
  let d := s.fld (R.EDIT.MIRROR_m.DEST.SEAT m)
  let tr := s.eff (R.EDIT.MIRROR_m.CFG.TRUNC m)
  let dress (c : Copy) : Copy :=
    { c with mirror := true, trunc := if tr = 0 then 0 else max 64 tr,
             tpl := if s.on (R.EDIT.MIRROR_m.CFG.TPL_EN m) then some (s.fld (R.EDIT.MIRROR_m.CFG.TPL m), 0) else none }
  let shim (seat port : Nat) : Option Nat := some (mkShim seat port q hash f.epoch s.hopInit 0 false)
  match s.fld (R.EDIT.MIRROR_m.DEST.KIND m) with
  | 0 => none
  | 1 =>
    if p < 48 then some (dress (mkCopy i p q))
    else if p < 56 then some (dress { mkCopy i p q with shim := shim (s.freeNow % 1024) (s.freeNow / 1024) })
    else none
  | 2 =>
    if d = s.ownSeat then (if p < 48 then some (dress (mkCopy i p q)) else none)
    else
      let link := match links.find? fun e => decide (e.1 = d) with
        | some e => e.2
        | none => linkOf (s.routeEntry d)
      link.map fun l => dress { mkCopy i (48 + l) q with shim := shim d p, seat := some (d, s.moves d) }
  | _ => some (dress { mkCopy i 56 q with xcause := max 6 (s.fld (R.EDIT.MIRROR_m.CFG.CAUSE m)) })

/-- The mirror copies of a decision.  Those for an exception queue pass its policer (R206). -/
def State.mirrors (s : State) (i : Nat) (f : Frm) (d : Dec) : State × List Copy :=
  (List.range 8).foldl (fun (a : State × List Copy) m =>
    if !d.mirror.testBit m then a
    else
      match a.1.mirrorCopy i f (d.hash f) d.mlinks m with
      | none => a
      | some c =>
        let s1 := if s.fld (R.EDIT.MIRROR_m.DEST.KIND m) = 1 ∧ 48 ≤ c.port then a.1.usedFree else a.1
        if c.port = 56 then
          (match s1.xpolTake c.q with
          | (s2, true) => (s2, a.2 ++ [c])
          | (s2, false) => (s2.countAt f.src dPolice, a.2))
        else (s1, a.2 ++ [c])) (s, [])

/-! ## Admission -/

/-- A deferred comparison of a whole frame fails (R198). -/
def deferredFails (f : Frm) : Bool := f.parsed.deferred.any fun v => decide (f.len.getD 0 < v + 4)

/-- The streams whose numbers a frame takes at its commit (R297). -/
def State.frerStreams (s : State) (own : Option Nat) (l : List Copy) : List Nat :=
  ((match own with
    | some t => s.tplStreams t
    | none => []) ++ l.flatMap fun c => match s.portTpl c.port with
    | some t => s.tplStreams t
    | none => []).eraseDups

/-- Copies for ports that take none are counted in `DISC_PORT_DOWN` of their egress port (R138, R152, R158-R160, R386), and
those for a switched-off exception path in `DISC_LIMIT` (R560). -/
def State.sieve (s : State) (l : List Copy) : State × List Copy :=
  let takes (c : Copy) : Bool := if c.port = 56 then s.domOn 149 else s.portTakes c.port c.uncontrolled
  (s.each (l.filter fun c => !takes c) fun s c =>
     if c.port = 56 then s.countAt (s.srcOf c) dLimit else s.countAt c.port dPortDown, l.filter takes)

/-- Commits a frame with its copies (R297, R312, R320): the copies that are admitted, none where the frame is not committed. -/
def State.commitCopies (s : State) (i dp : Nat) (own : Option Nat) (l : List Copy) (put : State → Copy → State) :
    State × Option (List Copy) :=
  let gens := (s.frerStreams own l).map fun n => (n, (s.frer n).gen)
  let r := s.admitWith i dp (l.map fun c => { c with gen := gens }) put
  match r.2 with
  | none => r
  | some cs =>
    (r.1.each (s.frerStreams own cs) fun s n => s.setFrer n { s.frer n with gen := ((s.frer n).gen + 1) % 65536 }, some cs)

/-- Marks a frame as counted. -/
def State.count (s : State) (i cause : Nat) : State :=
  match s.frame i with
  | some f => if f.settled then s else (s.countAt f.src cause).setFrame i (some { f with settled := true })
  | none => s

/-- The mirror copies of a frame that its decision discards are made all the same (R301); the frame itself is counted. -/
def State.dropWithMirrors (s : State) (i : Nat) (f : Frm) (d : Dec) (cause : Nat) : State :=
  let s1 := (s.count i cause).landed i
  let m := s1.mirrors i f d
  let v := m.1.sieve m.2
  if v.2.isEmpty then v.1.forget i
  else
    match v.1.commitCopies i (d.dp.getD f.dp) none v.2 State.enqueue with
    | (s2, some _) => s2
    | (s2, none) => (s2.each v.2 fun s _ => s.mirrorRefused f.src).forget i

/-- The drop precedence and the queue of a bound frame of length `len` after policing: stream filter first, the meter for a forward
(R350, R352).  Left: the cause of the discard, plus 100 where the decision itself discards. -/
def State.police (s : State) (f : Frm) (d : Dec) (len : Nat) : State × (Nat ⊕ (Option Nat × Nat)) :=
  let dp := d.dp.getD f.dp
  let pass := match d.sf with
    | some n => s.sfCheck n len f
    | none => (s, SfOut.passed none)
  match pass with
  | (s1, .refused) => (s1, .inl dPolice)
  | (s1, .passed ipv) =>
    match s1.finalDrop f d with
    | some c => (s1, .inl (c + 100))
    | none =>
      let mt := match d.sf.bind fun n => sfMeter (s1.rowSeen f.rows 0x30 n) with
        | some m => some m
        | none => d.meter
      let ovhd := signedOf 8 (s1.eff (R.TM.OVERHEAD.OVERHEAD f.src))
      let r : State × Option Nat := match mt with
        | some m =>
          if d.fwd = 1 ∧ f.src < 48 then s1.meter m (s1.rowSeen f.rows 0x32 m) ((len : Int) + ovhd).toNat dp d.sf else (s1, some dp)
        | none => (s1, some dp)
      match r with
      | (s2, none) => (s2, .inl dPolice)
      | (s2, some dp2) => (match d.sf with
          | some n => s2.modSf n fun x => { x with passed := inc32 x.passed }
          | none => s2, .inr (ipv, dp2))

/-- Admission of a whole frame that policing has passed with queue `ipv` and drop precedence `dp` (R227, R301, R302, R312). -/
def State.admitFrame (s : State) (i : Nat) (f : Frm) (d : Dec) (ipv : Option Nat) (dp : Nat) : State :=
  let x := if d.fwd = 3 then s.xpolTake d.xq else (s, true)
  if !x.2 then x.1.discard i dPolice
  else
    let base := x.1.copies i f d ipv
    let m := x.1.mirrors i f d
    if base.isEmpty && m.2.isEmpty then
      -- a flood that its hop limit alone keeps from every member (R20)
      let far : Frm := { f with shim := f.shim.map fun y => y ||| 63 * 2 ^ 20 }
      m.1.discard i (if (x.1.copies i far d ipv).isEmpty then dNoRoute else dTtl)
    else
      let v := m.1.sieve (base ++ m.2)
      if v.2.isEmpty then v.1.forget i
      else
        match v.1.commitCopies i dp d.edit v.2 State.enqueue with
        | (s2, none) => (s2.each (v.2.filter (·.mirror)) fun s _ => s.mirrorRefused f.src).discard i dLimit
        | (s2, some _) =>
          if d.fwd = 4 then s2.modFrame i fun f => { f with kprof := d.kprof } else s2.landed i

/-- The disposition of a whole frame with its decision (R227, R312).  Where a deferred comparison fails, the frame is discarded for it
alone, though what its head has done to the filters and meters stands (R198). -/
def State.finish (s : State) (i : Nat) (d : Dec) : State :=
  match s.frame i with
  | none => s
  | some f =>
    if f.crcBad then s.discard i dCellCrc
    else
      let r := s.police f d (f.len.getD 0)
      if deferredFails f then (r.1.bump (R.PARSE.OUTCOME_Pp_DEFERRED.COUNT (pipeOf f.src))).discard i dParse
      else
        match r with
        | (s1, .inl c) => if c < 100 then s1.discard i c else (s1.noteRoute d).dropWithMirrors i f d (c - 100)
        | (s1, .inr (ipv, dp)) => s1.admitFrame i f d ipv dp

/-! ## The order of policing and of exceptions (R205, R353) -/

/-- The decision passes a stream filter or a meter. -/
def Dec.polices (d : Dec) : Bool := d.sf.isSome || (d.meter.isSome && decide (d.fwd = 1))
/-- The causes under which a frame with the decision enters exception queues: its own, and those of its mirror sessions (R205, R301). -/
def State.excCauses (s : State) (d : Dec) : List Nat :=
  (if d.fwd = 3 then [d.xcause] else []) ++
    (((List.range 8).filter fun m => d.mirror.testBit m && decide (s.fld (R.EDIT.MIRROR_m.DEST.KIND m) = 3)).map fun m =>
      max 6 (s.fld (R.EDIT.MIRROR_m.CFG.CAUSE m)))
/-- A frame with decision `d` comes after one with decision `a` at the filters and meters, or in an exception queue. -/
def State.follows (s : State) (a d : Dec) : Bool :=
  (a.polices && d.polices) || (s.excCauses d).any fun c => decide (c ∈ s.excCauses a)
/-- The lookup of a head that is open may still bind it to a meter or give it an exception: a load balancer's action does, and a miss
whose action is an exception. -/
def State.mayFollow (s : State) (e : FlowHead) (d : Dec) : Bool :=
  let lb := decide (profKind (s.prof e.prof) = 4)
  e.open_ && ((lb && d.polices) || (s.excCauses d).any fun c =>
    (lb && decide (6 ≤ c)) || (decide (profMiss (s.prof e.prof) = 2) && decide (c = 6)))
/-- Frame `i` with its final decision waits for an earlier frame of its source. -/
def State.mustWait (s : State) (i : Nat) (d : Dec) : Bool :=
  let src := (s.frame i).map Frm.fillSrc
  let before (j : Nat) : Bool := decide (j < i) && decide ((s.frame j).map Frm.fillSrc = src)
  ((s.pipe.stage.flatMap (·.2)).any fun e => before e.frame && (s.follows e.dec d || s.mayFollow e d)) ||
    s.pipe.held.any fun e => before e.1 && s.follows e.2 d
/-- The first held frame that is whole and need not wait. -/
def State.nextHeld (s : State) : Option (Nat × Dec) :=
  s.pipe.held.find? fun e => (s.frame e.1).any (·.whole) && !s.mustWait e.1 e.2
/-- Frame `i` is held no longer. -/
def State.unhold (s : State) (i : Nat) : State :=
  { s with pipe := { s.pipe with held := s.pipe.held.filter fun e => decide (e.1 ≠ i) } }
/-- The held frames that may go on, in order; `fuel` bounds their number. -/
def State.releaseHeld (s : State) : Nat → State
  | 0 => s
  | fuel + 1 =>
    match s.nextHeld with
    | some e => ((s.unhold e.1).finish e.1 e.2).releaseHeld fuel
    | none => s
def State.release_ (s : State) : State := s.releaseHeld s.pipe.held.length

/-! ## Cut-through (R155, R322, R323) -/

/-- No entry of the port's oper list closes the queue's gate (condition 4). -/
def State.neverGated (s : State) (p q : Nat) : Bool :=
  !s.gated p || (List.range (s.operCount p)).all fun e => (entGates (s.operEntry p e)).testBit q

/-- The egress port is idle and its shapers permit service (condition 5). -/
def State.idle (s : State) (p q : Nat) : Bool :=
  let e := s.eport p
  e.ready.isEmpty && e.wire.isNone && (List.range 16).all (fun k => (s.queue p k).isEmpty) &&
    (!s.cbsEn p q || decide (0 ≤ (s.qst p q).credit)) && (!s.tbEn p q || decide (0 ≤ s.qTokens p q)) &&
    (!s.on (R.TM.CTRL.PORT_TB_EN p) || decide (0 ≤ s.pTokens p))

/-- The copy of a frame that is cut through, where every condition of R155 holds; a guard that holds the copy stores it (R383). -/
def State.cutCopy (s : State) (i : Nat) (f : Frm) (d : Dec) : Option Copy :=
  match if d.fwd = 1 then s.copies i f d (d.sf.bind fun n => s.sfQueue n f) else [] with
  | [c] =>
    let p := c.port
    let out := if p < 48 then s.on (R.PORT.CTRL.CUT_OUT_EN p) && s.linkUp p && decide (s.fault p = 0)
      else decide (s.linkState (p - 48) = 3) && s.credit (p - 48) (s.qClass p c.q)
    let plain := (match c.tpl with
      | some t => !s.tplHas t.1 0
      | none => true) && (match s.portTpl p with
      | some t => !s.tplHas t 0
      | none => true)
    let s1 := s.settleP p
    if decide (f.src < 48) && !f.pass2 && s.on (R.PORT.CTRL.CUT_IN_EN f.src) && !s.secyOn f.src && !s.belowFloor (pipeOf f.src) &&
        out && decide (d.mirror = 0) && s.neverGated p c.q && s1.idle p c.q && plain && !s.isHeld c &&
        decide (s.egressMbps p ≤ s.egressMbps f.src) && s.portTakes p false && (s.finalDrop f d).isNone then some c
    else none
  | _ => none

/-- A cut-through starts: the copy is committed and goes to the wire at once, charged for the bytes received so far. -/
def State.cutStart (s : State) (i : Nat) (d : Dec) (dp : Nat) (c : Copy) : State :=
  let s0 := s.settleP c.port
  match s0.commitCopies i dp d.edit [c] fun s c =>
      s.modEport c.port fun e => { e with wire := some { copy := { c with cls := s.qClass c.port c.q }, bytes := [], cut := true, stomp := false } } with
  | (s1, none) => s1.discard i dLimit
  | (s1, some _) =>
    match s1.frame i, (s1.eport c.port).wire with
    | some f1, some w =>
      -- its cells stand in no queue and in no ready slot (R311, R316)
      let s2 := ((s1.charge c.port c.q (s1.chargeLen w.copy)).unshare c.port c.q (s1.copyCells w.copy)).landed i
      let tx := if c.port < 48 then some (s2.txStamp c.port 0) else none
      match s2.edit f1 w.copy tx (decide (c.port < 48)) with
      | (s3, .discard) => (s3.modEport c.port fun e => { e with wire := none }).discard i dRule
      | (s3, .frame x) =>
        let s4 := s3.modEport c.port fun e => { e with wire := some { w with bytes := x.bytes } }
        match c.ets, tx with
        | some tag, some t => s4.etsPush c.port tag t
        | _, _ => s4
    | _, _ => s1

/-- A frame is to be cut through: the filter and the meter act first, on a length which is not known yet and is a free value within its
bounds (R155, R350, R352; log 37). -/
def State.cutFrame (s : State) (i : Nat) (f : Frm) (d : Dec) (c : Copy) : State :=
  let len := 389 + s.freeNow % 8828
  match (if d.polices then s.usedFree else s).police f d len with
  | (s1, .inl c) => s1.discard i (c % 100)
  | (s1, .inr (_, dp)) => s1.cutStart i d dp c

/-- The port on which frame `i` is being cut through. -/
def State.cutPort (s : State) (i : Nat) : Option (Nat × Wire) :=
  (List.range 56).findSome? fun p => match (s.eport p).wire with
    | some w => if w.cut && decide (w.copy.frame = some i) then some (p, w) else none
    | none => none

/-- What ends a frame on an Ethernet wire: its FCS, complemented where it has gone bad (R144, R323). -/
def Wire.fcs (w : Wire) : List Byte :=
  let x := leBytes 4 (crc32 w.bytes)
  if w.stomp then x.map fun b => ~~~b else x

/-- A cut-through frame goes bad (R322, R323): it is stomped, or aborted on a link, and counted at its ingress port. -/
def State.cutBad (s : State) (i p : Nat) (w : Wire) (cause : Nat) : State :=
  let s1 := ((s.bump (R.BUF.STOMPED_p.COUNT p)).setB R.BUF.STICKY.STOMP_SEEN true).discard i cause
  if p < 48 then s1.modEport p fun e => { e with wire := some { w with cut := false, stomp := true } }
  else
    let x := shWithLen (w.copy.shim.getD 0) (w.bytes.length + 4) ||| 2 ^ 4
    s1.modEport p fun e =>
      { e with wire := none, ready := e.ready ++ [{ unitCopy (p - 48) w.copy.q (beBytes 8 x ++ w.bytes ++ leBytes 4 (crc32 w.bytes)) with cls := w.copy.cls }] }

/-- A cell of a frame has been poisoned (R325). -/
def State.poisonedFrame (s : State) (f : Frm) : Bool :=
  f.cells.any fun n => match s.cell n with
    | some x => x.poison
    | none => false

/-- A copy that was on the wire of a link comes back to a place that counts for its queue (R311, R316). -/
def State.reshare (s : State) (c : Copy) : State :=
  if s.fld R.BUF.CFG.MODE = 0 then s else s.share c.port c.q (s.poolPart c.port c.q (s.copyCells c))

/-- The last bytes of a cut-through frame that stayed good: `more` of them had not been received at its start.  The shapers are
charged for them. -/
def State.cutEnd (s : State) (i p : Nat) (w : Wire) (was : Nat) (more : List Byte) : State :=
  match s.frame i with
  | none => s
  | some f =>
    if f.noCell then s.cutBad i p w dLimit
    else if f.crcBad || s.poisonedFrame f then s.cutBad i p w dCellCrc
    else if deferredFails f then (s.bump (R.PARSE.OUTCOME_Pp_DEFERRED.COUNT (pipeOf f.src))).cutBad i p w dParse
    else
      let s1 := (s.settleP p).charge p w.copy.q ((s.chargeLen w.copy : Int) - was)
      if p < 48 then
        let r := s1.protectFrame p w.copy.uncontrolled (w.bytes ++ more)
        r.1.modEport p fun e => { e with wire := some { w with bytes := r.2, cut := false } }
      else (s1.reshare w.copy).modEport p fun e => { e with wire := none, ready := w.copy :: e.ready }

/-! ## Out of the flow stage (R247) -/

/-- The flow hash by which the stage keeps order (R391). -/
def State.hashOf (s : State) (e : FlowHead) : Nat :=
  match s.frame e.frame with
  | some f => e.dec.hash f
  | none => 65536
/-- The first head that may leave: its lookup has ended, and no earlier head of its hash waits. -/
def State.exitHead (s : State) : List FlowHead → List Nat → Option FlowHead
  | [], _ => none
  | e :: t, held =>
    if !e.open_ && !(held.contains (s.hashOf e)) then some e else s.exitHead t (s.hashOf e :: held)

/-- A frame waits in the order of its source, or for its last byte. -/
def State.hold_ (s : State) (i : Nat) (d : Dec) : State := { s with pipe := { s.pipe with held := s.pipe.held ++ [(i, d)] } }

/-- The way of a head after the flow stage: final decision, policing and admission, at once or when the frame is whole and its turn has
come (R205, R353).  A decision that discards a frame acts at once where no deferred comparison may yet take its place (R198). -/
def State.decide_ (s : State) (i : Nat) (d : Dec) : State :=
  match s.frame i with
  | none => s
  | some f =>
    let s1 := match d.sf with
      | some n => s.modSf n fun x => { x with hit := inc32 x.hit }
      | none => s
    if f.doom ≠ 0 then s1.discard i (f.doom - 1)
    else if s1.mustWait i d then s1.hold_ i d
    else if f.whole then s1.finish i d
    else
      match if d.sf.isNone && decide (d.mirror = 0) && f.parsed.deferred.isEmpty then s1.finalDrop f d else none with
      | some c => (s1.noteRoute d).discard i c
      | none =>
        match s1.cutCopy i f d with
        | some c => s1.cutFrame i f d c
        | none => s1.hold_ i d

/-- A head leaves the flow stage of pipeline `p` (R247). -/
def State.stageExit (s : State) (p : Nat) : State :=
  match s.exitHead (s.stage p) [] with
  | none => s
  | some e =>
    let seats := ((List.range 8).filter fun m => e.dec.mirror.testBit m && decide (s.fld (R.EDIT.MIRROR_m.DEST.KIND m) = 2)).map fun m =>
      s.fld (R.EDIT.MIRROR_m.DEST.SEAT m)
    let d0 : Dec := { e.dec with mlinks := seats.map fun d => (d, linkOf (s.routeSeen e.route d)) }
    let d : Dec := if d0.fwd = 1 ∧ d0.group.isNone ∧ d0.seat ≠ s.ownSeat then
        { d0 with link := linkOf (s.routeSeen e.route d0.seat) } else d0
    (((s.setStage p ((s.stage p).filter fun x => decide (x.frame ≠ e.frame))).routeForget).decide_ e.frame d).release_

/-! ## The end of a frame (R141, R198, R279) -/

/-- A frame whose head has entered is rejected (R141, R322): counted in `DISC_STALL`, wherever it stands. -/
def State.rejectFrame (s : State) (i : Nat) : State :=
  match s.frame i with
  | none => s
  | some f =>
    match s.cutPort i with
    | some (p, w) => s.cutBad i p w dStall
    | none =>
      if (s.headOf i).isSome then (s.markBad f.cells).setFrame i (some { f with doom := dStall + 1, whole := true })
      else
        let src := f.fillSrc
        (((s.setFifo src ((s.fifo src).filter fun x => decide (x ≠ i))).unhold i).discard i dStall).release_

/-- A frame whose head has entered is whole: `x` is the frame without FCS. -/
def State.wholeFrame (s : State) (i : Nat) (x : List Byte) : State :=
  match s.frame i with
  | none => s
  | some f =>
    let more := x.drop f.got
    let was := match s.cutPort i with
      | some c => s.chargeLen c.2.copy
      | none => 0
    let s1 := ((s.append i more).modFrame i fun f => { f with len := some (x.length + 4), whole := true }).lateBytes i
    match s1.cutPort i with
    | some (p, w) => s1.cutEnd i p w was more
    | none =>
      if s1.pipe.held.any fun e => decide (e.1 = i) then s1.release_ else s1

/-- The last byte of a frame of port `p` has arrived with the bytes `m` after those received so far (R141-R143). -/
def State.rxEnd (s : State) (p err ago : Nat) (m : List Byte) : State :=
  match s.rx p with
  | none => s.rxShort p err ago m
  | some r =>
    let s0 := s.setRx p none
    if r.dead then s0
    else
      let all := r.bytes ++ m
      match s0.rxCheck p err all with
      | (s1, .inl k) =>
        (match r.frame with
          | some i => (s1.rxErr p k).rejectFrame i
          | none => s1.rxErr p k)
      | (s1, .inr x) =>
        if beAt all 12 2 = 0x8808 then s1.rxErr p 5
        else
          match r.frame with
          | some i => (s1.rxGood p all.length).wholeFrame i x
          | none => s1.rxGood p all.length

end Sys2Proof.Machine
end

