-- ==== Sys2Proof/Machine/Tm.lean ====
section
/-! DEFINITION. The traffic manager: eligibility, selection, staging, the start check, ageing, recirculation and gate lists
(R303, R321, R324, R325, R337-R347). -/
namespace Sys2Proof.Machine

/-! ## Eligibility (R337) -/

/-- The copy that selection would take from a queue: copies that a guard holds are passed over (R383). -/
def State.headCopy (s : State) (p q : Nat) : Option Copy :=
  match (s.queue p q).find? fun c => !s.isHeld c with
  | some c => if (c.frame.bind s.frame).all (·.whole) then some c else none
  | none => none

/-- The frame fits before the next close of its queue's gate (R346). -/
def State.fitsGate (s : State) (p q b : Nat) : Bool :=
  s.gateOpen p q && (match s.nextClose p q with
    | some t => s.fits p b (t - s.gateNs)
    | none => true)

/-- The gate of queue `q` is open, its shapers and the port bucket hold at least 0, and its link reports credit: R337's conditions
that do not look at the head copy. -/
def State.mayServe (s : State) (p q : Nat) : Bool :=
  s.gateOpen p q && (!s.cbsEn p q || decide (0 ≤ (s.qst p q).credit)) &&
    (!s.tbEn p q || decide (0 ≤ s.qTokens p q)) && (!s.on (R.TM.CTRL.PORT_TB_EN p) || decide (0 ≤ s.pTokens p)) &&
    (decide (p < 48) || s.credit (p - 48) (s.qClass p q))

/-- Queue `q` of port `p` is eligible at a selection (R337). -/
def State.eligible (s : State) (p q : Nat) : Bool :=
  match s.headCopy p q with
  | none => false
  | some c => s.fitsGate p q (s.chargeLen c) && s.mayServe p q

/-- `QSTATUS.HELD`: the queues that hold copies and are not eligible (R337). -/
def State.heldQueues (s : State) (p : Nat) : Nat :=
  let s1 := s.settleP p
  (List.range 16).foldl (fun a q => a + b2n (!(s.queue p q).isEmpty && !s1.eligible p q) * 2 ^ q) 0

/-! ## Selection (R338) -/

/-- The number of weighted queues of a port. -/
def State.weighted (s : State) (p : Nat) : Nat := 16 - s.eff (R.TM.CTRL.TRUMP_COUNT p)
def State.isTrump (s : State) (p q : Nat) : Bool := decide (s.weighted p ≤ q)

/-- Visits of the weighted group, `el` the eligible queues: the queue that may take its head. -/
def State.drr (s : State) (p : Nat) (el : List Nat) : Nat → State × Option Nat
  | 0 => (s, none)
  | fuel + 1 =>
    let n := s.weighted p
    let q := if (s.eport p).cur < n then (s.eport p).cur else 0
    let x := s.qst p q
    let next (s : State) : State := s.modEport p fun e => { e with cur := (q + 1) % n }
    if q ∈ el then
      let x1 := if x.topped then x else
        { x with deficit := x.deficit + s.weight p q * s.eff (R.TM.CTRL.QUANTUM p), topped := true }
      let s1 := (s.setQst p q x1).modEport p fun e => { e with cur := q }
      let b := match s.headCopy p q with
        | some c => s.chargeLen c
        | none => 0
      if b ≤ x1.deficit then (s1, some q)
      else (next (s1.setQst p q { x1 with topped := false })).drr p el fuel
    else (next (s.setQst p q { x with topped := false })).drr p el fuel

/-- The queue that selection chooses. -/
def State.chooseQ (s : State) (p : Nat) : State × Option Nat :=
  let n := s.weighted p
  match ((List.range 16).reverse).find? fun q => decide (n ≤ q) && s.eligible p q with
  | some q => (s, some q)
  | none =>
    let el := (List.range n).filter fun q => s.eligible p q
    if el.isEmpty then (s, none) else s.drr p el 8192

/-- Discards the copy that stands at the head of queue `q` for selection. -/
def State.dropHead (s : State) (p q : Nat) (c : Copy) (cause : Nat) : State :=
  let s1 := s.settleQ p q
  ((s1.setQueue p q ((s1.queue p q).erase c)).emptied p q).discardCopy c cause

/-- A copy's residence exceeds an age in nanoseconds (R321). -/
def State.aged (s : State) (c : Copy) (ns : Nat) : Bool := decide (ns ≠ 0) && decide (ns < s.mono - c.since)

/-- Takes the head copy of queue `q` into a ready slot (R338). -/
def State.stageCopy (s : State) (p q : Nat) (c : Copy) : State :=
  let b := s.chargeLen c
  let s1 := s.charge p q b
  let x := s1.qst p q
  let s2 := if s.isTrump p q then s1 else s1.setQst p q { x with deficit := x.deficit - b }
  let s3 := (s2.setQueue p q ((s2.queue p q).erase c)).emptied p q
  s3.modEport p fun e => { e with ready := e.ready ++ [{ c with cls := s.qClass p q }] }

/-- Head copies that never fit their queue's longest window are discarded (R347). -/
def State.dropOverrun (s : State) (p q : Nat) : Nat → State
  | 0 => s
  | fuel + 1 =>
    match s.headCopy p q, s.longestWindow p q with
    | some c, some w =>
      if s.gated p && !s.fits p (s.chargeLen c) w then
        ((s.dropHead p q c dGateOverrun).setB (R.TM.STICKY.OVERRUN_SEEN p) true).dropOverrun p q fuel
      else s
    | _, _ => s

/-- One selection: heads that are too old or on an old path are discarded, and the traffic manager selects again (R321, R385). -/
def State.select (s : State) (p : Nat) : Nat → State
  | 0 => s
  | fuel + 1 =>
    match s.chooseQ p with
    | (s1, none) => s1
    | (s1, some q) =>
      match s1.headCopy p q with
      | none => s1
      | some c =>
        if s1.isStalePath c then (s1.dropHead p q c dGuard).select p fuel
        else if s1.aged c (s1.qAge p q * 1000) then (s1.dropHead p q c dAge).select p fuel
        else s1.stageCopy p q c

/-- TM_SELECT: a ready slot of port `p` is free. -/
def State.tmSelect (s : State) (p : Nat) : State :=
  if 2 ≤ (s.eport p).ready.length ∨ s.on R.FAULT.STATE.FOLD then s
  else
    let s1 := s.settleP p
    let s2 := s1.each (List.range 16) fun s q => s.dropOverrun p q (s.queue p q).length
    s2.select p ((List.range 16).foldl (fun a q => a + (s2.queue p q).length) 1)

/-! ## Start and end of a transmission (R339, R346) -/

/-- The staged frame that starts next: one of a trump queue first, else the first staged. -/
def State.firstStaged (s : State) (p : Nat) : Option Copy :=
  let l := (s.eport p).ready
  match l.find? fun c => s.isTrump p c.q with
  | some c => some c
  | none => l.head?

/-- The staged copies of queue `q` return to its head, in order, with their charges. -/
def State.unstage (s : State) (p q : Nat) : State :=
  let l := (s.eport p).ready.filter fun c => decide (c.q = q)
  let s1 := (s.modEport p fun e => { e with ready := e.ready.filter fun c => decide (c.q ≠ q) })
  let s2 := s1.each l fun s c =>
    let b := s.chargeLen c
    let s1 := s.charge p q (-(b : Int))
    let x := s1.qst p q
    if s.isTrump p q then s1 else s1.setQst p q { x with deficit := x.deficit + b }
  (s2.setQueue p q (l ++ s2.queue p q)).showQueue p q

/-- A gate closes before the staged frames of queue `q` could leave: they return (R346). -/
def State.giveBack (s : State) (p q : Nat) : State :=
  ((s.unstage p q).bump R.TM.GATE_RETURNS.COUNT).setB (R.TM.STICKY.RETURN_SEEN p) true

/-- The frame that starts, after the returns of those that cannot. -/
def State.startable (s : State) (p : Nat) : Nat → State × Option Copy
  | 0 => (s, none)
  | fuel + 1 =>
    match s.firstStaged p with
    | none => (s, none)
    | some c => if s.fitsGate p c.q (s.chargeLen c) then (s, some c) else (s.giveBack p c.q).startable p fuel

/-- The read of a copy's cells (R324, R325): `rd` 1, a retry of cell `k` succeeded; 2, its read failed persistently.  False where
the copy is discarded. -/
def State.readCells (s : State) (c : Copy) (rd k : Nat) : State × Bool :=
  match c.frame.bind s.frame with
  | none => (s, true)
  | some f =>
    if s.poisonedFrame f then (s, false)
    else
      match f.cells[k]? with
      | none => (s, true)
      | some n =>
        if rd = 1 then (s.crcRetry (n / 8192), true)
        else if rd = 2 then
          (((match s.cell n with
            | some x => s.setCell n (some { x with poison := true })
            | none => s).crcPersist (n / 8192)), false)
        else (s, true)

/-- Padding to 60 bytes before the FCS (R144). -/
def pad60 (l : List Byte) : List Byte := l ++ List.replicate (60 - l.length) 0

/-- FRAME_TRANSMIT_START on Ethernet port `p`, the first bit after the SFD leaving `sfd` ns from now. -/
def State.transmit (s : State) (p sfd rd k : Nat) : State :=
  let e := s.eport p
  if e.wire.isSome || decide (s.fault p ≠ 0) || !(s.linkUp p || decide (s.portQuiesce p ≠ 0)) || s.on R.FAULT.STATE.FOLD then s
  else
    match (s.settleP p).startable p 3 with
    | (s1, none) => s1
    | (s1, some c) =>
      let s2 := s1.modEport p fun e => { e with ready := e.ready.erase c }
      -- while the controlled port does not operate, a frame that waited is discarded as one that is admitted is (R152; log 35)
      if s2.secyOn p && !c.uncontrolled && !s2.ctrlOper p then s2.discardCopy c dPortDown
      else
      match s2.readCells c rd k with
      | (s3, false) => s3.discardCopy c dCellCrc
      | (s3, true) =>
        match c.frame.bind s3.frame with
        | none => s3
        | some f =>
          let tx := s3.txStamp p sfd
          match s3.edit f c (some tx) (decide (f.src ≠ 64)) with
          | (s4, .discard) => s4.discardCopy c dRule
          | (s4, .frame x) =>
            let r := s4.protectFrame p c.uncontrolled x.bytes
            let s5 := match c.ets with
              | some tag => r.1.etsPush p tag tx
              | none => r.1
            (s5.unshare p c.q (s5.copyCells c)).modEport p fun e =>
              { e with wire := some { copy := c, bytes := pad60 r.2, cut := false, stomp := false } }

/-- FRAME_TRANSMIT_END on Ethernet port `p`: the last byte has left with its FCS, and its references are released (R144, R320); a stomped
frame is no delivered one (R323). -/
def State.transmitEnd (s : State) (p : Nat) : State :=
  match (s.eport p).wire with
  | some w =>
    if w.cut then s
    else if w.stomp then s.modEport p fun e => { e with wire := none }
    else
      ((((s.modEport p fun e => { e with wire := none }).bump (R.PORT.TX_FRAMES.COUNT p)).add (R.PORT.TX_BYTES.COUNT p)
        (max 64 (w.bytes.length + 4)))).deref w.copy
  | none => s

/-! ## Ageing outside selection (R314, R321, R385) -/

/-- The head copies of a port that is port 57 or a link that is not UP are tested. -/
def State.ageHeads (s : State) (p : Nat) : State :=
  if p ≠ 57 ∧ (p < 48 ∨ 55 < p ∨ s.linkState (p - 48) = 3) then s
  else s.each (List.range 16) fun s q =>
    match s.queue p q with
    | [] => s
    | c :: _ =>
      let us := s.qAge p q
      let ns := if us = 0 ∧ p < 56 then s.eff (R.NLINK.STALE_AGE.MS (p - 48)) * 1000000 else us * 1000
      if s.aged c ns then s.dropHead p q c dAge else s

/-! ## Recirculation (R21, R303, R304) -/

/-- The pipeline whose share a copy of port 57 takes. -/
def State.shareOf (s : State) (c : Copy) : Nat :=
  match c.frame.bind s.frame with
  | some f => pipeOf f.src
  | none => 0

/-- The copy that port 57 serves next for pipeline `n`: queue 15 first. -/
def State.recircNext (s : State) (n : Nat) : Option Copy :=
  ((List.range 16).reverse).findSome? fun q => (s.queue 57 q).find? fun c => decide (s.shareOf c = n)

/-- The operation waits, since the demand on a bank port is above its capacity (R310). -/
def State.recircYield (s : State) : State := (s.bump R.BUF.RECIRC_YIELD.COUNT).setB R.BUF.STICKY.RECIRC_YIELD_SEEN true

/-- Port 57 serves one frame of pipeline `n` within its 50 Gb/s share: it is edited, written into new cells, and its head enters
the recirculation FIFO; `rd` 3: it waits for the bank ports; `fuel` bounds the copies that age on the way. -/
def State.recircServe (s : State) (n rd k : Nat) : Nat → State
  | 0 => s
  | fuel + 1 =>
    let now := s.time.elapsed
    if rd = 3 then s.recircYield
    else if now < s.tm.recirc.get 0 n ∨ s.on R.FAULT.STATE.FOLD then s
    else
      match s.recircNext n with
      | none => s
      | some c =>
        if s.aged c (s.qAge 57 c.q * 1000) then (s.dropHead 57 c.q c dAge).recircServe n rd k fuel
        else
          let s1 := (s.setQueue 57 c.q ((s.queue 57 c.q).erase c)).emptied 57 c.q
          match s1.readCells c rd k with
          | (s2, false) => s2.discardCopy c dCellCrc
          | (s2, true) =>
            match c.frame, c.frame.bind s2.frame with
            | some i, some f =>
              match s2.edit f c none false with
              | (s3, .discard) => s3.discardCopy c dRule
              | (s3, .frame x) =>
                -- L + 20 bytes at 50 Gb/s, in 2^-16 ns
                let s4 := { s3 with tm := { s3.tm with recirc := s3.tm.recirc.put 0 n (now + (x.bytes.length + 24) * 8 * 65536 / 50) } }
                let s5 := s4.bump (R.TM.RECIRC_FRAMES_Pn.COUNT n)
                let g : Frm := { f with cells := [], got := 0, head := [], len := some (x.bytes.length + 4), pass2 := true,
                                        parsed := Parsed.init, late := none, noCell := false, crcBad := false }
                -- the old cells are freed unless a mirror copy still holds them
                let s6 := (s5.modFrame i fun f => { f with counted := false }).dropCopy c
                let y := s6.newFrame g
                ((y.1.append y.2 x.bytes).enterFifo (56 + n) y.2).1
            | _, _ => s2

/-! ## Gate lists (R342-R347) -/

/-- The instant's entry is taken at the pins (R343). -/
def State.gateStep (s : State) (p : Nat) : State := (s.settleP p).showGates p

/-- The values of a list to be armed (R342). -/
def State.adminOk (s : State) (p : Nat) : Bool :=
  let n := s.adminCount p
  let c := s.adminCycle p
  decide (1 ≤ n ∧ n ≤ 1024 ∧ 1000 ≤ c ∧ c ≤ 4000000000 ∧ c % 8 = 0) && decide (s.fld (R.TM.ADMIN_NS.NS p) < 1000000000) &&
    (List.range n).all fun e => decide (1 ≤ bitsOf (s.adminEntry p e) 0 32 ∧ bitsOf (s.adminEntry p e) 0 32 ≤ 500000000)

/-- `GATE_CMD.ARM` (R344, R345). -/
def State.armGates (s : State) (p : Nat) : State :=
  if s.on (R.TM.GATE_STATUS.PENDING p) then s.setB (R.TM.STICKY.ADMIN_LOCKED p) true
  else if !s.adminOk p then s.setB (R.TM.STICKY.LIST_ERROR p) true
  else
    let earliest := s.gateNs + 2000
    let t := boundary (s.adminBase p) (s.adminCycle p) earliest
    let s1 := (s.modEport p fun e => { e with change := some t }).setB (R.TM.GATE_STATUS.PENDING p) true
    if s.adminBase p < earliest then s1.setB (R.TM.STICKY.BASE_IN_PAST p) true else s1

/-- `GATE_CMD.CANCEL` (R345). -/
def State.cancelGates (s : State) (p : Nat) : State :=
  (s.modEport p fun e => { e with change := none }).setB (R.TM.GATE_STATUS.PENDING p) false

/-- The event source of an egress port. -/
def portEvent (p : Nat) : Nat := if p < 48 then 136 + p else 128 + (p - 48)

/-- The admin list becomes oper once its change time is reached, or with the restart that it waits for (R181, R344). -/
def State.swapGates (s : State) (p : Nat) : State :=
  match (s.eport p).change with
  | none => s
  | some t =>
    if s.gateNs < t then s
    else
      let s0 := s.settleP p
      let l := (List.range (s.adminCount p)).foldl (fun o e => o.put 0 (p * 1024 + e) (s.adminEntry p e))
        (s.tm.oper.drop fun k => decide (k / 1024 = p))
      let s1 := { s0 with tm := { s0.tm with oper := l } }
      let s2 := ((((s1.set (R.TM.OPER_SEC_LO.SEC p) (s.fld (R.TM.ADMIN_SEC_LO.SEC p))).set (R.TM.OPER_SEC_HI.SEC p)
        (s.fld (R.TM.ADMIN_SEC_HI.SEC p))).set (R.TM.OPER_SEC_HI.COUNT p) (s.adminCount p)).set (R.TM.OPER_NS.NS p)
        (s.fld (R.TM.ADMIN_NS.NS p))).set (R.TM.OPER_CYCLE.CYCLE p) (s.adminCycle p)
      let s3 := s2.modEport p fun e => { e with oper := true, change := none, restart := none }
      let s4 := ((s3.setB (R.TM.GATE_STATUS.RESTARTING p) false).setB (R.TM.GATE_STATUS.PENDING p) false).showGates p
      ((s4.raise (portEvent p)).bump R.TM.GATE_SWAPS.COUNT).setB R.TM.TM_STICKY.SWAP_SEEN true

/-- The restart boundary after a step of the gate-time instance is reached (R181): a pending list whose change time fell there
becomes oper, else the oper list goes on with entry 0. -/
def State.restartGates (s : State) (p : Nat) : State :=
  match (s.eport p).restart with
  | none => s
  | some t =>
    if s.gateNs < t then s
    else if (s.eport p).change.any fun c => decide (c ≤ t) then s.swapGates p
    else (((s.settleP p).modEport p fun e => { e with restart := none }).setB (R.TM.GATE_STATUS.RESTARTING p) false).showGates p

end Sys2Proof.Machine
end

