-- ==== Sys2Proof/Machine/Nelyan.lean ====
section
/-! DEFINITION. The Nelyan links: blocks, acknowledgement, credits, sessions, the seat handshake, rekeying, seat routes and guards
(R119-R120, R358-R389). -/
namespace Sys2Proof.Machine

/-! ## Constants and small views -/

/-- ACK_TO in periods (R366). -/
def State.ackTo (s : State) (n : Nat) : Nat := (s.fld (R.NLINK.RTT.NS n) + 19) / 20 + usec (s.eff (R.NLINK.ACK_MARGIN.US n))
/-- The window of a link in blocks (R369). -/
def State.window (s : State) (n : Nat) : Nat :=
  if s.fld (R.NLINK.CTRL.REACH n) = 1 ∧ s.on (R.NLINK.STATE.LONG_WINDOW n) then 8192 else 512
/-- A session stands on the link. -/
def State.inSession (s : State) (n : Nat) : Bool := decide (s.linkState n = 3 ∨ s.linkState n = 4)
/-- The lane of link `n` holds its lock. -/
def State.laneLock (s : State) (n : Nat) : Bool := s.on (R.LANE.STATUS.LOCK (48 + n))

/-- A link changes its state, which raises its event (R377, R387). -/
def State.setLState (s : State) (n v : Nat) : State :=
  if s.linkState n = v then s
  else
    let s1 := (((s.set (R.NLINK.STATE.STATE n) v).modLink n fun l => { l with stateAt := s.now }).raise (128 + n))
    { s1 with serv := { s1.serv with lsaDue := true, routesDue := true } }

/-- Shows how many blocks are unacknowledged. -/
def State.showWindow (s : State) (n : Nat) : State := s.set (R.NLINK.WINDOW.BLOCKS n) (s.link_ n).unacked.length

/-! ## Routes and guards (R382-R385) -/

/-- The guard of seat `d` starts, or starts again: it holds copies on link `new` from now on; `old` is the link on which it sends drain
markers. -/
def State.startGuard (s : State) (d : Nat) (old new : Option Nat) : State :=
  let before := match s.guard d with
    | some g => g.holds
    | none => []
  let id := s.nel.nextGuard
  let g : Guard := { holds := before ++ new.toList.map fun l => (l, s.moves d), since := s.mono, id := id,
                     echoes := old.map fun _ => List.range 16 }
  let s1 := { s with nel := { s.nel with guards := s.nel.guards.put none d (some g), nextGuard := (id + 1) % 65536 } }.showGuards d
  match old with
  | some l => s1.each (List.range 16) fun s q =>
      s.enqueue { unitCopy l q (markerUnit d q s.hopInit s.ownSeat id q false) with since := s.mono }
  | none => s1

/-- Writes a seat's entry; where its link has changed, the change is counted. -/
def State.putRoute (s : State) (d e : Nat) : State :=
  let moved := decide (linkOf (s.routeEntry d) ≠ linkOf e)
  { s with nel := { s.nel with routes := s.nel.routes.put 0 d e,
                               moves := if moved then s.nel.moves.put 0 d (s.moves d + 1) else s.nel.moves } }

/-- A service writes the entry of seat `d` (R382): heads that entered earlier keep the old one, and a changed link starts the
guard. -/
def State.writeRoute (s : State) (d v : Nat) : State :=
  let e := s.routeEntry d
  let new := bitsOf v 24 8 * 2 ^ 24 + bitsOf e 22 1 * 2 ^ 22 + bitsOf v 16 6 * 2 ^ 16
  let k := s.nel.nWrites + 1
  let s1 := { s with nel := { s.nel with nWrites := k, wrote := s.nel.wrote ++ [(k, d, e)] } }.routeForget
  let s2 := s1.putRoute d new
  let old := (linkOf e).filter fun a => decide (s.linkState a = 3)
  if linkOf e = linkOf new then s2
  else if ((linkOf e).isSome && (linkOf new).isSome) || (s.guard d).isSome then s2.startGuard d old (linkOf new)
  else s2

/-- The hardware switches seat `d` away from its link (R382), at once for every head. -/
def State.failover (s : State) (d : Nat) : State :=
  let e := s.routeEntry d
  let alt := bitOf e 23
  let other := if alt then (if bitOf e 31 then some (bitsOf e 28 3) else none) else if bitOf e 27 then some (bitsOf e 24 3) else none
  let s0 := { s with nel := { s.nel with wrote := s.nel.wrote.filter fun w => decide (w.2.1 ≠ d) } }.bump R.NLINK.FAILOVERS.COUNT
  match other.filter fun m => decide (s.linkState m = 3) with
  | some m => (s0.putRoute d (e - bitsOf e 23 1 * 2 ^ 23 + b2n (!alt) * 2 ^ 23)).startGuard d none (some m)
  | none =>
    let s1 := s0.putRoute d (e - bitsOf e 31 1 * 2 ^ 31 - bitsOf e 27 1 * 2 ^ 27)
    if (s.guard d).isSome then s1.startGuard d none none else s1

/-- A guard has run for `GUARD_TO` of elapsed time (R182, R383). -/
def State.guardTimeout (s : State) (d : Nat) : State :=
  match s.guard d with
  | some g => if g.since + 1000 * s.eff R.NLINK.GUARD_TO.US ≤ s.mono then (s.guardEnd d).bump R.NLINK.GUARD_TIMEOUT.COUNT else s
  | none => s

/-! ## The end of a session (R380) -/

/-- Step 1: staged copies go back, and every copy in the queues is marked OLD_PATH. -/
def State.markOld (s : State) (n : Nat) : State :=
  let p := 48 + n
  let s0 := s.modEport p fun e => { e with ready := e.ready.filter fun c => c.frame.isSome || !shAbort (ofBe (c.unit.take 8)) }
  let s1 := match (s0.eport p).wire with
    | some w => ((s0.reshare w.copy).modEport p fun e => { e with wire := none }).setQueue p w.copy.q (w.copy :: s0.queue p w.copy.q)
    | none => s0
  s1.each (List.range 16) fun s q =>
    let s1 := s.unstage p q
    s1.setQueue p q ((s1.queue p q).map fun c => { c with oldPath := true })

/-- The sources of the counted frames with a byte in an unacknowledged block. -/
def Link.lost (l : Link) : List Nat :=
  match l.unacked with
  | [] => match l.packing with
    | some p => p.src.toList
    | none => []
  | b :: _ => b.cont.toList ++ l.unacked.flatMap (·.starts)

/-- A frame cut short in reception (R373). -/
def State.cutRx (s : State) (n : Nat) : State :=
  match (s.link_ n).unpack with
  | some u => (match u.frame with
    | some i => s.rejectFrame i
    | none =>
      -- a marker is dropped without count (R384)
      if u.refused || u.bytes.isEmpty || (decide (8 ≤ u.bytes.length) && shMarker (ofBe (u.bytes.take 8))) then s
      else s.bump (R.NLINK.RX_PARTIAL.COUNT n))
  | none => s

/-! ## The seat handshake (R120, R374, R375) -/

/-- The payloads of the HANDSHAKE blocks of a message: 470 bytes of data in each. -/
def fragsOf (msg : Nat) (data : List Byte) : List (Nat × List Byte) :=
  let n := max 1 ((data.length + 469) / 470)
  (List.range n).map fun k =>
    let d := slice data (470 * k) 470
    (2, beBytes 1 msg ++ beBytes 1 k ++ beBytes 1 n ++ [0] ++ beBytes 2 d.length ++ d)

/-- Queues a message for its blocks. -/
def State.sendMsg (s : State) (n msg : Nat) (data : List Byte) : State :=
  s.modLink n fun l => { l with outbox := l.outbox ++ fragsOf msg data }

/-- The Table service runs, so that it can run a handshake on link `n` (R54, R374), on a lane whose lock holds (R377). -/
def State.mayShake (s : State) (n : Nat) : Bool := s.keysOk && s.svcLive 9 && s.laneLock n

/-- A handshake starts, with a new ephemeral and a new HELLO. -/
def State.startHandshake (s : State) (n : Nat) : State :=
  if !s.mayShake n then s
  else
    let e := ephOf s.freeNow
    let nonce := beBytes 32 s.usedFree.freeNow
    let hello := beBytes 4 (s.fld R.NLINK.TABLE_ID.ID) ++ beBytes 2 s.ownSeat ++ ecPublic e ++ nonce ++
      beBytes 2 deviceCert.length ++ deviceCert
    let l := s.link_ n
    ((s.usedFree.usedFree.setLink n { Link.init with spill := l.spill, inbox := l.inbox, hello := hello, helloAt := s.now, eph := e,
                                                     stateAt := s.now, outbox := fragsOf 1 hello }).setLState n 2)

/-- A link that is DOWN and enabled begins its handshake where it can: on block lock, or later where the lane held its lock and the
Table service did not run, or a session has ended with the lock held (R54, R377). -/
def State.shakeDown (s : State) (n : Nat) : State :=
  if s.linkState n = 1 ∧ s.on (R.NLINK.CTRL.EN n) then s.startHandshake n else s

/-! ## The end of a session (R380), continued -/

/-- A session of link `n` ends with a cause of R378, and the link goes to state `dest`; from DOWN a new handshake begins where the lock holds
(R377). -/
def State.sessionEnd (s : State) (n cause dest : Nat) : State :=
  if !s.inSession n then s
  else
    let l := s.link_ n
    let s1 := s.markOld n
    let s2 := s1.each l.lost fun s src => if cause = 7 then s.countAt src dFold else s.countAt (48 + n) dResendLost
    let s3 := s2.cutRx n
    let s4 := ((s3.setLink n { Link.init with spill := l.spill, offAt := l.offAt }).set (R.NLINK.STATE.KEY_PHASE n) 0).showWindow n
    let s5 := s4.setLState n dest
    let s6 := s5.each ((s5.nel.routes.filter fun e => decide (linkOf e.2 = some n)).map (·.1)) State.failover
    let s7 := ((s6.set (R.NLINK.STATE.LAST_CAUSE n) cause).setB (R.NLINK.STICKY.DOWN_SEEN n) true).raise (128 + n)
    (if cause = 1 ∨ cause = 7 then s7 else s7.detect (152 + n)).shakeDown n

/-! ## The seat handshake, continued (R120, R374, R375) -/

/-- Refuses the peer with a cause of R378 (R375, R387). -/
def State.refuse (s : State) (n code : Nat) : State :=
  (((s.sendMsg n 4 (beBytes 1 code)).set (R.NLINK.STATE.LAST_CAUSE n) code).setLState n 5).detect (152 + n)

/-- The DEVICE_ID that the link state records for a seat (R375). -/
def State.recorded (s : State) (d : Nat) : Option Nat := (s.serv.lsdb.find? fun r => decide (r.seat = d)).map (·.dev)
/-- This seat's number is held by a lower DEVICE_ID. -/
def State.dupSeat (s : State) : Bool := s.serv.lsdb.any fun r => decide (r.seat = s.ownSeat ∧ r.dev < deviceId)

def helloSeat (m : List Byte) : Nat := beAt m 4 2
def helloKey (m : List Byte) : List Byte := slice m 6 97
def helloCert (m : List Byte) : List Byte := slice m 137 (beAt m 135 2)

/-- The cause under which a HELLO is refused; 0 none. -/
def State.helloBad (s : State) (m : List Byte) : Nat :=
  if !Config.certChains (helloCert m) then 11
  else if beAt m 0 4 ≠ s.fld R.NLINK.TABLE_ID.ID then 9
  else if helloSeat m = s.ownSeat ∨ s.dupSeat ∨ (s.recorded (helloSeat m)).any (fun d => decide (d ≠ certDevice (helloCert m))) then 10
  else 0

/-- What AUTH signs (R374). -/
def authDigest (h owner : List Byte) (seat : Nat) : List Byte := sha384 (h ++ owner ++ ascii "AQNL auth" ++ beBytes 2 seat)
/-- OWNER_HASH as fused (R108). -/
def State.ownerHash (s : State) : List Byte := beBytes 48 s.trust.otp.ownerHash

/-- The peer's HELLO: the peer is refused, or known and answered with AUTH.  `rtt` is the round trip that the exchange measured. -/
def State.onHello (s : State) (n rtt : Nat) (m : List Byte) : State :=
  let c := s.helloBad m
  if c ≠ 0 then (if s.dupSeat then s.setB R.NLINK.SEAT_STICKY.DUP_SEAT_SEEN true else s).refuse n c
  else
    let l := s.link_ n
    let dev := certDevice (helloCert m)
    let h := sha384 (if s.ownSeat < helloSeat m then l.hello ++ m else m ++ l.hello)
    let s1 := ((s.set (R.NLINK.PEER.SEAT n) (helloSeat m)).setB (R.NLINK.PEER.VALID n) true).set (R.NLINK.RTT.NS n) rtt
    let s2 := s1.each (List.range 4) fun s k => s.set (R.NLINK.PEER_ID_k.ID n k) (bitsOf dev (32 * (3 - k)) 32)
    let s3 := s2.modLink n fun l => { l with peerHello := m, hash := h }
    let sig := ecSign identityKey (authDigest h s.ownerHash s.ownSeat) (ephOf s3.freeNow)
    s3.usedFree.sendMsg n 2 (s.ownerHash ++ sig)

/-- The key and the nonce salt of a direction (R120). -/
def dirKey (z h : List Byte) (seat : Nat) : List Byte :=
  hkdf384 h z (ascii "AQNL key" ++ beBytes 2 seat) 32 ++ hkdf384 h z (ascii "AQNL salt" ++ beBytes 2 seat) 4

/-- The peer's AUTH: the peer is refused, or the session keys are taken. -/
def State.onAuth (s : State) (n : Nat) (m : List Byte) : State :=
  let l := s.link_ n
  let peer := helloSeat l.peerHello
  if !ecVerify (Config.certKey (helloCert l.peerHello)) (authDigest l.hash (m.take 48) peer) (slice m 48 48) (slice m 96 48) then s.refuse n 11
  else if m.take 48 ≠ s.ownerHash then s.refuse n 8
  else
    match ecdh l.eph (helloKey l.peerHello) with
    | none => s.refuse n 11
    | some z =>
      s.setLink n { l with authOk := true, keyAt := s.now, txKey := [(0, dirKey z l.hash s.ownSeat)], rxKey := [(0, dirKey z l.hash peer)] }

/-- The Table service takes the oldest complete message of a link (R374); it takes none while it does not run (R54).  A REFUSE whose
REASON is a reserved code leaves LAST_CAUSE as it is, since such a code is never shown (R378; DESIGN CHOICE, log 83). -/
def State.onMessage (s : State) (n rtt : Nat) : State :=
  match if s.svcLive 9 then (s.link_ n).inbox else [] with
  | [] => s
  | (msg, m) :: rest =>
    let s1 := s.modLink n fun l => { l with inbox := rest }
    let st := s.linkState n
    if msg = 1 then
      let s2 := if st = 6 then s1.startHandshake n else s1
      if s2.linkState n = 2 ∧ (s2.link_ n).peerHello = [] then s2.onHello n rtt m else s2
    else if st ≠ 2 then s1
    else if msg = 2 then (if (s1.link_ n).peerHello ≠ [] ∧ !(s1.link_ n).authOk then s1.onAuth n m else s1)
    else if msg = 4 then ((if beAt m 0 1 < 14 then s1.set (R.NLINK.STATE.LAST_CAUSE n) (beAt m 0 1) else s1).setLState n 5).detect (152 + n)
    else s1

/-- A fragment has arrived; a message whose fragments do not follow one another is lost whole. -/
def State.fragIn (s : State) (n : Nat) (p : List Byte) : State :=
  let msg := beAt p 0 1
  let k := beAt p 1 1
  let cnt := beAt p 2 1
  let d := slice p 6 (beAt p 4 2)
  let l := s.link_ n
  let acc : Option (List Byte) := if k = 0 then some d else match l.frags with
    | some f => if f.msg = msg ∧ f.next = k ∧ f.count = cnt then some (f.data ++ d) else none
    | none => none
  match acc with
  | none => s.setLink n { l with frags := none }
  | some x =>
    if k + 1 = cnt then s.setLink n { l with frags := none, inbox := l.inbox ++ [(msg, x)] }
    else s.setLink n { l with frags := some { msg := msg, next := k + 1, count := cnt, data := x } }

/-! ## Rekeying (R376) -/

/-- The payload of a REKEY block: a new ephemeral public key, signed by the identity key. -/
def rekeyPayload (e k : Nat) : List Byte := ecPublic e ++ ecSign identityKey (sha384 (ecPublic e)) k

/-- A rekey starts where it is due. -/
def State.rekeyStart (s : State) (n : Nat) : State :=
  let l := s.link_ n
  if s.linkState n = 3 ∧ s.keysOk ∧ l.offer = none ∧ l.nextTx = none ∧ (2 ^ 29 ≤ l.sealedN ∨ l.keyAt + secs 3600 ≤ s.now) then
    let e := ephOf s.freeNow
    let m := rekeyPayload e (ephOf s.usedFree.freeNow)
    s.usedFree.usedFree.setLink n { l with eph := e, offer := some m, outbox := l.outbox ++ [(4, m)] }
  else s

/-- The transmit key changes: KEY_PHASE flips and the old key is zeroised. -/
def State.flipKey (s : State) (n : Nat) (key : List Byte) : State :=
  let p := 1 - s.fld (R.NLINK.STATE.KEY_PHASE n)
  (((s.modLink n fun l => { l with txKey := [(p, key)], sealedN := 0, keyAt := s.now, offer := none, nextTx := none }).set
    (R.NLINK.STATE.KEY_PHASE n) p).bump (R.NLINK.REKEYS.COUNT n)).raise (128 + n)

/-- The content of a REKEY block: the answer to the own offer, or an offer that is accepted. -/
def State.rekeyIn (s : State) (n : Nat) (p : List Byte) : State :=
  let l := s.link_ n
  let m := p.take 193
  let peer := helloSeat l.peerHello
  if !s.keysOk ∨ !ecVerify (Config.certKey (helloCert l.peerHello)) (sha384 (m.take 97)) (slice m 97 48) (slice m 145 48) then s
  else
    match l.offer with
    | some o =>
      (match ecdh l.eph (m.take 97) with
      | some z =>
        let h := sha384 (l.hash ++ o ++ m)
        (s.setLink n { l with rxKey := l.rxKey.put [] (1 - l.rxPhase) (dirKey z h peer), rxFresh := true }).flipKey n (dirKey z h s.ownSeat)
      | none => s)
    | none =>
      let e := ephOf s.freeNow
      let a := rekeyPayload e (ephOf s.usedFree.freeNow)
      match ecdh e (m.take 97) with
      | some z =>
        let h := sha384 (l.hash ++ m ++ a)
        s.usedFree.usedFree.setLink n { l with eph := e, rxKey := l.rxKey.put [] (1 - l.rxPhase) (dirKey z h peer), rxFresh := true,
                                               nextTx := some (dirKey z h s.ownSeat), outbox := l.outbox ++ [(4, a)] }
      | none => s

/-! ## Sealing (R361, R364) -/

/-- The header of a block. -/
def blockHeader (typ cls phase seq ack : Nat) (fm : Bool) (gc grant fill first : Nat) : List Byte :=
  beBytes 16 (typ % 16 * 2 ^ 124 + cls % 8 * 2 ^ 121 + phase % 2 * 2 ^ 120 + seq % 2 ^ 24 * 2 ^ 96 + ack % 2 ^ 24 * 2 ^ 72 +
    b2n fm * 2 ^ 71 + gc % 8 * 2 ^ 64 + grant % 2 ^ 24 * 2 ^ 40 + fill % 512 * 2 ^ 31 + first % 512 * 2 ^ 22)

def pad476 (l : List Byte) : List Byte := l ++ List.replicate (476 - l.length) 0
/-- The block with its CRC. -/
def withCrc (b : List Byte) : List Byte := b ++ beBytes 4 (crc32c b)

/-- The header of link `n`'s next block: the ACK, FM and a grant in turn go with every block. -/
def State.header (s : State) (n typ cls phase seq fill first : Nat) : List Byte :=
  let l := s.link_ n
  blockHeader typ cls phase seq (l.rxN + 2 ^ 24 - 1) l.fmDue l.turn (l.got.get 0 l.turn + s.eff (R.NLINK.SHARE_k.BLOCKS n l.turn)) fill first

/-- A sealed block of link `n`: `ctr` is the counter of its nonce. -/
def State.sealed (s : State) (n typ cls ctr fill first : Nat) (payload : List Byte) : List Byte :=
  let ph := s.fld (R.NLINK.STATE.KEY_PHASE n)
  let key := (s.link_ n).txKey.get [] ph
  let hd := s.header n typ cls ph ctr fill first
  let r := gcmSeal (key.take 32) (key.drop 32 ++ beBytes 8 ctr) hd (pad476 payload)
  withCrc (hd ++ r.1 ++ r.2)

/-- A block goes onto the wire. -/
def State.putWire (s : State) (n : Nat) (b : List Byte) : State :=
  (s.modLink n fun l => { l with wire := b }).bump (R.NLINK.TX_BLOCKS.COUNT n)

/-- A block has been sealed under the transmit key: the next header carries the next class's grant, and what it owed is paid. -/
def State.sealedOne (s : State) (n : Nat) : State :=
  s.modLink n fun l => { l with sealedN := l.sealedN + 1, turn := (l.turn + 1) % 8, owesAck := false, fmDue := false,
                                fmAt := if l.fmDue then s.now else l.fmAt }

/-- Sends a sealed block other than DATA.  No key seals more than 2^30 blocks: the session ends instead, and no FOLD block follows the
last (R120, R376). -/
def State.sendCtl (s : State) (n typ : Nat) (payload : List Byte) : State :=
  let c := (s.link_ n).txCtl
  if 2 ^ 30 ≤ (s.link_ n).sealedN then (if typ = 3 then s else s.sessionEnd n 5 1)
  else ((s.putWire n (s.sealed n typ 0 (2 ^ 63 + c) payload.length 511 payload)).modLink n fun l => { l with txCtl := c + 1 }).sealedOne n

/-! ## Re-sending (R367, R370) -/

/-- Where the long window keeps block `m`. -/
def State.spillAt (s : State) (n m : Nat) : Nat :=
  let k := m % 8192
  s.bufAddr 6 ((s.link_ n).spill.getD (k / 2048) 0) + k % 2048 * 512

/-- The sender goes back to its oldest unacknowledged block, or the session ends. -/
def State.rewind (s : State) (n : Nat) : State :=
  let l := s.link_ n
  match l.unacked with
  | [] => s
  | b :: t =>
    if 8 ≤ b.attempts then s.sessionEnd n 3 1
    else (s.setLink n { l with unacked := { b with attempts := b.attempts + 1 } :: t, rewind := some b.n }).setB (R.NLINK.STICKY.RESEND_SEEN n) true

/-- Re-sends block `m`. -/
def State.resend (s : State) (n m : Nat) : State :=
  let l := s.link_ n
  let older := l.unacked.takeWhile fun b => decide (b.n ≠ m)
  match l.unacked.find? fun b => decide (b.n = m) with
  | none => s.setLink n { l with rewind := none }
  | some b =>
    let spilled := s.on (R.NLINK.STATE.LONG_WINDOW n) && decide (older.length + 512 < l.unacked.length)
    let r : State × Bool := if spilled then (s.rtIssue 4 1).memRead (s.spillAt n m) 512 else (s, true)
    if !r.2 then r.1.sessionEnd n 13 1
    else
      let bytes := if spilled then r.1.bytesAt (s.spillAt n m) 512 else b.bytes
      let more := l.unacked.any fun b => decide (b.n = m + 1)
      (((r.1.putWire n bytes).modLink n fun l => { l with rewind := if more then some (m + 1) else none, unacked := l.unacked.map fun b => if b.n = m then { b with sentAt := s.now } else b }).bump (R.NLINK.RESENT.COUNT n))

/-! ## Packing (R363) -/

/-- What a DATA block holds so far. -/
structure BlockSt where
  bytes : List Byte
  first : Nat
  starts : List Nat
  cont : Option Nat
  ends : Nat
  deriving DecidableEq, Repr

/-- The class of the next unit of link `n`. -/
def State.nextCls (s : State) (n : Nat) : Option Nat :=
  match (s.link_ n).packing with
  | some p => some p.cls
  | none => (s.eport (48 + n)).ready.head?.map (·.cls)

/-- The first staged copy becomes the unit that is being packed; a copy that its reads or its edits discard does not. -/
def State.packNext (s : State) (n rd k : Nat) : State :=
  match (s.eport (48 + n)).ready with
  | [] => s
  | c :: _ =>
    let s1 := s.modEport (48 + n) fun e => { e with ready := e.ready.drop 1 }
    match c.frame.bind s1.frame with
    | none => s1.modLink n fun l => { l with packing := some { cls := c.cls, src := none, frame := false, left := c.unit } }
    | some f =>
      match s1.readCells c rd k with
      | (s2, false) => s2.discardCopy c dCellCrc
      | (s2, true) =>
        match s2.edit f c none false with
        | (s3, .discard) => s3.discardCopy c dRule
        | (s3, .frame x) =>
          let d := pad60 x.bytes
          let shim := shWithLen (c.shim.getD 0) (d.length + 4)
          (s3.modLink n fun l => { l with packing := some { cls := c.cls, src := if f.src = 64 then none else some f.src, frame := true, left := beBytes 8 shim ++ d ++ leBytes 4 (crc32 d) } }).dropCopy c

/-- The first staged frame of a gated link returns to its queue where the gate closes before it could have left (R346). -/
def State.linkReturns (s : State) (n : Nat) : Nat → State
  | 0 => s
  | fuel + 1 =>
    let p := 48 + n
    match if (s.link_ n).packing.isNone && s.gated p then (s.eport p).ready.head? else none with
    | some c => if c.frame.isSome && !s.fitsGate p c.q (s.chargeLen c) then (s.giveBack p c.q).linkReturns n fuel else s
    | none => s

/-- Packs units of class `cls` until the block is full, the next unit has another class, or none is staged. -/
def State.packBlock (s : State) (n cls rd k : Nat) (b : BlockSt) : Nat → State × BlockSt
  | 0 => (s, b)
  | fuel + 1 =>
    let s := s.linkReturns n 3
    if 476 ≤ b.bytes.length ∨ s.nextCls n ≠ some cls then (s, b)
    else
      match (s.link_ n).packing with
      | none =>
        let s1 := s.packNext n rd k
        (match (s1.link_ n).packing with
        | none => s1.packBlock n cls rd k b fuel
        | some p => s1.packBlock n cls rd k { b with first := if b.first = 511 then b.bytes.length else b.first,
                                                     starts := b.starts ++ p.src.toList } fuel)
      | some p =>
        let room := 476 - b.bytes.length
        let rest := p.left.drop room
        let b1 : BlockSt := { b with bytes := b.bytes ++ p.left.take room, cont := if b.bytes.isEmpty ∧ b.first = 511 then p.src else b.cont,
                                     ends := b.ends + b2n (rest.isEmpty && p.frame) }
        (s.modLink n fun l => { l with packing := if rest.isEmpty then none else some { p with left := rest } }).packBlock n cls rd k b1 fuel

/-- Sends a new DATA block of class `cls`. -/
def State.sendData (s : State) (n cls rd k : Nat) : State :=
  let r := s.packBlock n cls rd k { bytes := [], first := 511, starts := [], cont := none, ends := 0 } 1024
  if r.2.bytes.isEmpty then r.1.sendCtl n 1 []
  else
    let l := r.1.link_ n
    let b := r.1.sealed n 0 cls l.txN r.2.bytes.length r.2.first r.2.bytes
    let blk : Blk512 := { n := l.txN, bytes := b, attempts := 1, sentAt := s.now, starts := r.2.starts, cont := r.2.cont, ends := r.2.ends }
    let s1 := (r.1.putWire n b).modLink n fun l => { l with txN := l.txN + 1, sent := l.sent.put 0 cls ((l.sent.get 0 cls + 1) % 2 ^ 24),
                                                            unacked := l.unacked ++ [blk] }
    let s2 := (s1.sealedOne n).showWindow n
    -- the block that leaves the newest 512 spills to DRAM
    let u := (s2.link_ n).unacked
    if s2.on (R.NLINK.STATE.LONG_WINDOW n) ∧ 512 < u.length then
      (match u[u.length - 513]? with
      | some o => (s2.rtIssue 4 1).memPut (s2.spillAt n o.n) o.bytes
      | none => s2)
    else s2

/-- The link controller sends its next block (R363); nothing while the transmitters are squelched, before forwarding begins and in Fold
(R46). -/
def State.blockSend (s : State) (n rd k : Nat) : State :=
  let l := s.link_ n
  let st := if s.on R.FAULT.STATE.FOLD then 0 else s.linkState n
  match if st = 0 then [] else l.outbox with
  | (2, p) :: t =>
    if st = 2 ∨ st = 5 then
      (s.setLink n { l with outbox := t }).putWire n
        (withCrc (s.header n 2 0 0 0 p.length 511 ++ pad476 p ++ List.replicate 16 0))
    else s.setLink n { l with outbox := t }
  | _ =>
    if st = 2 then (if l.authOk then s.sendCtl n 1 [] else s)
    else if st ≠ 3 then s
    else if 2 ^ 30 ≤ l.sealedN ∧ l.rewind = none then s.sessionEnd n 5 1
    else
      match l.rewind with
      | some m => s.resend n m
      | none =>
        match l.outbox with
        | (_, p) :: t =>
          let s1 := (s.setLink n { l with outbox := t }).sendCtl n 4 p
          (match l.nextTx with
          | some key => s1.flipKey n key
          | none => s1)
        | [] =>
          let s := s.linkReturns n 3
          match s.nextCls n with
          | some c =>
            if s.on (R.NLINK.CTRL.EN n) && s.credit n c && decide (l.unacked.length < s.window n) then s.sendData n c rd k else s.sendCtl n 1 []
          | none => s.sendCtl n 1 []

/-! ## Reception (R365-R368, R371, R373) -/

/-- A DATA block was not accepted (R366). -/
def State.gap (s : State) (n : Nat) : State :=
  s.modLink n fun l => if l.fmGap then l else { l with fmGap := true, fmDue := true }

/-- The number nearest to `base` whose low 24 bits are `x`. -/
def near24 (base x : Nat) : Nat :=
  let d := (x + 2 ^ 24 - base % 2 ^ 24) % 2 ^ 24
  if d < 2 ^ 23 then base + d else base + d - 2 ^ 24

/-- An ACK covers block `m`. -/
def covers (ack m : Nat) : Bool := decide ((ack + 2 ^ 24 - m % 2 ^ 24) % 2 ^ 24 < 2 ^ 23)

/-- The ACK, FM and GRANT of a header (R365, R367, R368). -/
def State.useHeader (s : State) (n ack : Nat) (fm : Bool) (gc grant : Nat) : State :=
  let l := s.link_ n
  let done := l.unacked.takeWhile fun b => covers ack b.n
  let left := l.unacked.drop done.length
  let g := l.grant.get 0 gc
  let s1 := (s.setLink n { l with unacked := left, grant := if before24 g grant then l.grant.put 0 gc grant else l.grant, rewind := match l.rewind, left with
        | some m, b :: _ => some (max m b.n)
        | _, _ => none }).add (R.NLINK.TX_FRAMES.COUNT n) (done.foldl (fun a b => a + b.ends) 0)
  let s2 := s1.showWindow n
  if fm then s2.rewind n else s2

/-- A frame of link `n` behind shim `x`. -/
def State.newLinkFrame (s : State) (n x : Nat) (whole : Bool) (d : List Byte) : State × Nat :=
  let r := s.newFrame { src := 48 + n, cells := [], got := 0, head := [], len := some (shLen x), whole := whole, noCell := false, crcBad := false, tc := shClass x, dp := s.eff (R.NLINK.CLASS_MAP.DP n (shClass x)), ts := none, pass2 := false, epoch := shEpoch x, counted := false, hash := shHash x, marked := false, kprof := 0, shim := some x, parsed := Parsed.init, late := none, doom := 0, settled := shMarker x, rows := s.tabs.nWrites }
  (r.1.append r.2 d, r.2)

/-- The last byte of a unit has been unpacked: `u` holds its shim and `LENGTH` bytes. -/
def State.unitEnd (s : State) (n : Nat) (u : Unpack) : State :=
  let x := ofBe (u.bytes.take 8)
  let d := u.bytes.drop 8
  let body := d.take (d.length - 4)
  if shMarker x then
    let r := s.newFrame { src := 48 + n, cells := [], got := 0, head := d.take 8, len := some (shLen x), whole := true, noCell := false, crcBad := false, tc := shClass x, dp := s.eff (R.NLINK.CLASS_MAP.DP n (shClass x)), ts := none, pass2 := false, epoch := 0, counted := false, hash := 0, marked := false, kprof := 0, shim := some x, parsed := Parsed.init, late := none, doom := 0, settled := true, rows := s.tabs.nWrites }
    (r.1.enterFifo (48 + n) r.2).1
  else if shAbort x ∨ d.drop (d.length - 4) ≠ leBytes 4 (crc32 body) then
    (match u.frame with
    | some i => s.rejectFrame i
    | none => if u.refused then s else s.bump (R.NLINK.RX_ABORT.COUNT n))
  else
    let s1 := s.bump (R.NLINK.RX_FRAMES.COUNT n)
    match u.frame with
    | some i => s1.wholeFrame i body
    | none =>
      if u.refused then s1
      else
        let r := s1.newLinkFrame n x true body
        (r.1.enterFifo (48 + n) r.2).1

/-- The head of a unit longer than 388 bytes enters its FIFO once its byte 388 has come (R142). -/
def State.unitHead (s : State) (n : Nat) (u : Unpack) : State × Unpack :=
  let x := ofBe (u.bytes.take 8)
  if u.frame.isSome ∨ u.refused ∨ shMarker x ∨ shAbort x ∨ shLen x ≤ 388 ∨ u.bytes.length < 8 + 389 then (s, u)
  else
    let r := s.newLinkFrame n x false ((u.bytes.drop 8).take (shLen x - 4))
    match r.1.enterFifo (48 + n) r.2 with
    | (s1, true) => (s1, { u with frame := some r.2 })
    | (s1, false) => (s1, { u with refused := true })

/-- Unpacks payload bytes. -/
def State.unpackRun (s : State) (n : Nat) : Nat → List Byte → State
  | 0, _ => s
  | _ + 1, [] => s
  | fuel + 1, l =>
    let u := (s.link_ n).unpack.getD { bytes := [], frame := none, refused := false }
    let full := if u.bytes.length < 8 then 8 else 8 + shLen (ofBe (u.bytes.take 8))
    let m := full - u.bytes.length
    let u1 := { u with bytes := u.bytes ++ l.take m }
    let total := 8 + shLen (ofBe (u1.bytes.take 8))
    if 8 ≤ u1.bytes.length ∧ total ≤ u1.bytes.length then
      ((s.modLink n fun k => { k with unpack := none }).unitEnd n u1).unpackRun n fuel (l.drop m)
    else
      let r := s.unitHead n u1
      (r.1.modLink n fun k => { k with unpack := some r.2 }).unpackRun n fuel (l.drop m)

/-- A block has verified under the key of `phase`: a new key is in use from its first block on (R376). -/
def State.usePhase (s : State) (n phase : Nat) : State :=
  s.modLink n fun l => if phase ≠ l.rxPhase ∧ l.rxFresh then { l with rxPhase := phase, rxFresh := false } else l

/-- A DATA block in sequence is accepted; under the newest key in use it zeroises the old one (R376). -/
def State.acceptData (s : State) (n cls phase : Nat) (p : List Byte) : State :=
  let s1 := s.modLink n fun l => { l with rxN := l.rxN + 1, owesAck := true, fmGap := false, fmDue := false, got := l.got.put 0 cls ((l.got.get 0 cls + 1) % 2 ^ 24), rxKey := if phase = l.rxPhase ∧ !l.rxFresh then l.rxKey.del (1 - phase) else l.rxKey }
  (s1.bump (R.NLINK.RX_BLOCKS.COUNT n)).unpackRun n (p.length + 2) p

/-- A sealed block has verified: a handshake becomes a session, and a stop ends. -/
def State.verified (s : State) (n : Nat) : State :=
  let s1 := s.modLink n fun l => { l with authRun := 0, seenAt := s.now }
  match s.linkState n with
  | 2 =>
    let hold := match s.param 9 2 with
      | some b => ofBe b
      | none => 500
    let s2 := ((s1.setLState n 3).bump (R.NLINK.SESSIONS.COUNT n)).setB (R.NLINK.STICKY.UP_SEEN n) true
    { s2 with serv := { s2.serv with routeHold := s2.serv.routeHold.put 0 n (s.now + msec hold) } }
  | 4 =>
    let d := s.now - (s.link_ n).stopAt
    (s1.modLink n fun l => { l with unacked := l.unacked.map fun b => { b with sentAt := b.sentAt + d } }).setLState n 3
  | _ => s1

/-- This seat refuses on every link (R375). -/
def State.refuseAll (s : State) : State :=
  (s.each ((List.range 8).filter fun n => decide (2 ≤ s.linkState n ∧ s.linkState n ≤ 4)) fun s n =>
    (if s.inSession n then s.sessionEnd n 10 5 else s).refuse n 10).setB R.NLINK.SEAT_STICKY.DUP_SEAT_SEEN true

/-- A link-state message arrives on link `n` (R511): a newer one is held and reflooded; of two devices under one seat number, the lower
DEVICE_ID stands (R375). -/
def State.lsaIn (s : State) (n : Nat) (p : List Byte) : State :=
  if !s.svcLive 9 then s
  else match Config.lsaRead p with
    | none => s
    | some (seat, dev, seq, links) =>
      let old : Option Lsa := s.serv.lsdb.find? fun (r : Lsa) => decide (r.seat = seat)
      let newer : Bool := match old with
        | some r => decide (dev < r.dev ∨ (dev = r.dev ∧ r.seq < seq))
        | none => decide (seat ≠ s.ownSeat ∨ dev < deviceId)
      if !newer then s
      else
        let changed : Bool := match old with
          | some r => decide (r.dev ≠ dev ∨ r.links ≠ links)
          | none => true
        let r : Lsa := { seat := seat, dev := dev, seq := seq, since := s.now, links := links }
        let s1 := { s with serv := { s.serv with
          lsdb := (s.serv.lsdb.filter fun (r : Lsa) => decide (r.seat ≠ seat)) ++ [r], routesDue := s.serv.routesDue || changed } }
        let s2 := s1.each ((List.range 8).filter fun m => decide (m ≠ n) && decide (s1.linkState m = 3)) fun s m => s.sendCtl m 1 p
        if seat = s.ownSeat then s2.refuseAll else s2

/-- A block of 512 bytes arrives on link `n` (R365). -/
def State.blockRx (s : State) (n : Nat) (b : List Byte) : State :=
  if b.length ≠ 512 ∨ s.linkState n = 0 then s
  else
    let hd := b.take 16
    let h := ofBe hd
    let typ := bitsOf h 124 4
    if ofBe (b.drop 508) ≠ crc32c (b.take 508) then
      (let s1 := s.bump (R.NLINK.CRC_ERR.COUNT n)
       if typ = 0 then s1.gap n else s1)
    else if 5 ≤ typ then s.bump (R.NLINK.BAD_TYPE.COUNT n)
    else if typ = 2 then (s.bump (R.NLINK.RX_BLOCKS.COUNT n)).fragIn n (slice b 16 476)
    else
      let l := s.link_ n
      let phase := bitsOf h 120 1
      let key := l.rxKey.get [] phase
      let m := near24 (if typ = 0 then l.rxN else l.rxCtl) (bitsOf h 96 24)
      let ctr := if typ = 0 then m else 2 ^ 63 + m
      match if key = [] then none else gcmOpen (key.take 32) (key.drop 32 ++ beBytes 8 ctr) hd (slice b 16 476) (slice b 492 16) with
      | none =>
        let s1 := ((s.bump (R.NLINK.AUTH_FAIL.COUNT n)).setB (R.NLINK.STICKY.AUTH_FAIL_SEEN n) true).setLink n { l with authRun := l.authRun + 1 }
        let s2 := if typ = 0 then s1.gap n else s1
        if 16 ≤ l.authRun + 1 then s2.sessionEnd n 4 1 else s2
      | some p =>
        let s1 := (s.verified n).usePhase n phase
        let s2 := if typ = 0 then s1 else s1.modLink n fun l => { l with rxCtl := m + 1 }
        let s3 := s2.useHeader n (bitsOf h 72 24) (bitOf h 71) (bitsOf h 64 3) (bitsOf h 40 24)
        if s3.linkState n ≠ 3 then s3
        else if typ = 0 then
          (if m ≠ l.rxN then (s3.bump (R.NLINK.OUT_OF_SEQ.COUNT n)).gap n
           else s3.acceptData n (bitsOf h 121 3) phase (p.take (bitsOf h 31 9)))
        else if typ = 3 then (s3.bump (R.NLINK.RX_BLOCKS.COUNT n)).sessionEnd n 6 6
        else if typ = 4 then (s3.bump (R.NLINK.RX_BLOCKS.COUNT n)).rekeyIn n p
        else
          let s4 := s3.bump (R.NLINK.RX_BLOCKS.COUNT n)
          if bitsOf h 31 9 = 0 then s4 else s4.lsaIn n (p.take (bitsOf h 31 9))

/-! ## Link states (R377, R379, R386) -/

/-- Block lock on the lane of link `n`. -/
def State.lockUp (s : State) (n : Nat) : State :=
  (s.setB (R.LANE.STATUS.LOCK (48 + n)) true).shakeDown n

/-- The Table service has started: the links that wait for it begin their handshakes (R54). -/
def State.shakeAll (s : State) : State := s.each (List.range 8) State.shakeDown

/-- A link without a session goes back to DOWN. -/
def State.linkDown (s : State) (n : Nat) : State :=
  (s.setLink n { Link.init with spill := (s.link_ n).spill, offAt := (s.link_ n).offAt }).setLState n 1

/-- Lock is lost, or nothing has verified for `STOP_TO`; a loss of lock in HANDSHAKE, UP or STOPPED raises the lane's fault
(R161). -/
def State.linkStop (s : State) (n : Nat) (lost : Bool) : State :=
  let st := s.linkState n
  let s1 := if lost then
      let s1 := (s.setB (R.LANE.STATUS.LOCK (48 + n)) false).orIn (R.LANE.STICKY.SEEN (48 + n)) (if s.laneLock n then 3 else 0)
      if s.laneLock n ∧ (st = 2 ∨ st = 3 ∨ st = 4) then s1.detect (144 + n) else s1
    else s
  if st = 3 then
    if lost ∨ (s.link_ n).seenAt + usec (s.eff (R.NLINK.TIMERS.STOP_TO n)) ≤ s.now then
      (s1.modLink n fun l => { l with stopAt := s.now }).setLState n 4
    else s1
  else if lost ∧ (st = 2 ∨ st = 5 ∨ st = 6) then s1.linkDown n
  else s1

/-- A stop has lasted `DOWN_TO` (R379). -/
def State.downTimeout (s : State) (n : Nat) : State :=
  if s.linkState n = 4 ∧ (s.link_ n).stopAt + msec (s.eff (R.NLINK.TIMERS.DOWN_TO n)) ≤ s.now then s.sessionEnd n 2 1 else s

/-- A handshake has run for 100 ms (R374). -/
def State.handshakeLate (s : State) (n : Nat) : State :=
  if s.linkState n = 2 ∧ (s.link_ n).stateAt + msec 100 ≤ s.now then
    ((s.set (R.NLINK.STATE.LAST_CAUSE n) 12).linkDown n).shakeDown n
  else s

/-- A write of 0 to `CTRL.EN` (R386). -/
def State.nlinkOff (s : State) (n : Nat) : State :=
  if s.on (R.NLINK.CTRL.EN n) then
    ((s.setB (R.NLINK.CTRL.EN n) false).modLink n fun l => { l with offAt := some s.now }).arm (.quiesceAck (104 + n)) (2 * s.ackTo n + msec 1)
  else s

/-- The disable of link `n` ends where its blocks are acknowledged or 2 x ACK_TO has passed (R386). -/
def State.nlinkOffDone (s : State) (n : Nat) : State :=
  let l := s.link_ n
  match l.offAt with
  | none => s
  | some t =>
    if s.inSession n ∧ !l.unacked.isEmpty ∧ s.now < t + 2 * s.ackTo n then s
    else
      let s1 := s.sessionEnd n 1 0
      let s2 := s1.each (List.range 16) fun s q => s.purge (48 + n) q dPortDown fun _ => true
      let s3 := s2.purgeReady (48 + n) dPortDown fun _ => true
      (((s3.setLink n { Link.init with spill := l.spill }).setLState n 0).setB (R.NLINK.STATE.QUIESCED n) true).disarm (.quiesceAck (104 + n))

/-- A write of 1 to `CTRL.EN` (R377): a disable that runs is called off. -/
def State.nlinkOn (s : State) (n : Nat) : State :=
  let s0 := (s.disarm (.quiesceAck (104 + n))).modLink n fun l => { l with offAt := none }
  let s1 := (s0.setB (R.NLINK.CTRL.EN n) true).setB (R.NLINK.STATE.QUIESCED n) false
  if s1.linkState n = 0 ∧ s1.powered (104 + n) ∧ s1.powered (96 + n) then
    if s.col.inFold then s1.setLState n 7 else (s1.setLState n 1).shakeDown n
  else s1

/-- A long-reach link takes its four buffers at commit (R370). -/
def State.longWindow (s : State) (n : Nat) : State :=
  if s.fld (R.NLINK.CTRL.REACH n) = 0 then s
  else
    let r := (List.range 4).foldl (fun (a : State × List Nat) _ => match a.1.take 2 0x100000 (some 6) with
      | (s1, some (_, i)) => (s1, a.2 ++ [i])
      | (s1, none) => (s1.takeFailed false, a.2)) (s, [])
    if r.2.length = 4 then (r.1.modLink n fun l => { l with spill := r.2 }).setB (R.NLINK.STATE.LONG_WINDOW n) true
    else ((r.1.each r.2 fun s i => s.release 6 i).setB (R.NLINK.STATE.LONG_WINDOW n) false).detect (152 + n)

/-! ## Fold (R381, R403) -/

/-- Every session sends four FOLD blocks, before anything else of the Fold (R381). -/
def State.foldBlocks (s : State) : State :=
  s.each ((List.range 8).filter s.inSession) fun s n => s.each (List.range 4) fun s _ => s.sendCtl n 3 []

/-- Every session ends, and every link that is not off is FOLDED. -/
def State.foldLinks (s : State) : State :=
  s.each (List.range 8) fun s n =>
    let s1 := s.sessionEnd n 7 7
    if s1.linkState n = 0 then s1
    else
      let keep : Link := { Link.init with spill := (s.link_ n).spill, offAt := (s.link_ n).offAt, wire := (s.link_ n).wire }
      (s1.setLink n keep).setLState n 7

/-- After Fold exit each folded link starts its handshake, where its lane holds its lock. -/
def State.unfoldLinks (s : State) : State :=
  s.each (List.range 8) fun s n =>
    if s.linkState n = 7 then (s.setLState n 1).shakeDown n else s

end Sys2Proof.Machine
end

