-- ==== Sys2Proof/Machine/RowCheck.lean ====
section
/-! DEFINITION. Table rows: their widths, reserved bits and reserved codes, and what a changed row changes beside itself (R85, R216,
R223-R226, R318, R335, R349, R352, R354). -/
namespace Sys2Proof.Machine

/-- ROW_BYTES and the number of rows of a TABLE_ID (R85); none for a reserved one.  A rule bank holds the rows of its size. -/
def State.tableShape (s : State) (t : Nat) : Option (Nat × Nat) :=
  match t with
  | 0x01 => some (16, 262144)
  | 0x02 => some (48, 65536)
  | 0x10 => some (96, 512 * s.ruleSize 0)
  | 0x11 => some (96, 512 * s.ruleSize 1)
  | 0x12 => some (96, 512 * s.ruleSize 2)
  | 0x13 => some (96, 512 * s.ruleSize 3)
  | 0x20 => some (32, 65536)
  | 0x21 => some (16, 16384)
  | 0x30 => some (16, 16384)
  | 0x31 => some (8, 16384)
  | 0x32 => some (32, 16384)
  | 0x40 => some (128, 64)
  | 0x50 => some (32, 928)
  | 0x60 => some (64, 16)
  | _ => none

/-- `v` without the `w` bits from bit `lsb`. -/
def clearBits (v lsb w : Nat) : Nat := v - bitsOf v lsb w * 2 ^ lsb

/-- A row with its reserved bits, which the module ignores, at 0 (R11); AGE of a MAC row is written as 0 (R216). -/
def cleanRow (t r : Nat) : Nat :=
  match t with
  | 0x01 => clearBits (clearBits (clearBits r 124 2) 45 3) 0 28
  | 0x02 => clearBits r 0 47
  | 0x10 => clearBits r 0 111
  | 0x11 => clearBits r 0 111
  | 0x12 => clearBits r 0 111
  | 0x13 => clearBits r 0 111
  | 0x21 => clearBits r 0 67
  | 0x30 => clearBits r 0 22
  | 0x32 => clearBits r 0 138
  | 0x50 => clearBits (clearBits (clearBits (clearBits r 214 6) 128 14) 64 8) 0 50
  | 0x60 => (List.range 8).foldl (fun r k => clearBits r (32 * k) 10) (clearBits r 256 208)
  | _ => r

/-- The mask rule of an LPM row (R223). -/
def lpmMaskOk (r : Nat) : Bool :=
  let v := lpmVal r
  let m := lpmMask r
  let a := m % 2 ^ 128
  let inv := 2 ^ 128 - 1 - a
  (decide (bitsOf m 148 12 = 0) || decide (bitsOf m 148 12 = 4095)) && bitOf m 147 && decide (bitsOf m 128 19 = 0) &&
    decide (bitsOf v 128 19 = 0) && decide (inv &&& (inv + 1) = 0) && (bitOf v 147 || decide (a % 2 ^ 96 = 0))

/-- The widths that the metadata selectors of REPLACE allow (R292). -/
def selWidthOk (sel wd : Nat) : Bool :=
  match sel with
  | 0 | 1 => decide (wd ≤ 16)
  | 2 | 6 => decide (wd = 16)
  | 3 => decide (wd = 3)
  | 4 => decide (wd = 6)
  | 5 => true
  | 7 => decide (wd = 32)
  | _ => false

/-- An executed slot of a template whose END slot ends at byte `free` holds no reserved code and keeps the limits of its operation
(R290-R294). -/
def tplSlotOk (free w : Nat) : Bool :=
  decide (bitsOf w 58 3 ≤ 4) &&
    (match bitsOf w 61 3 with
    | 1 => decide (1 ≤ bitsOf w 35 7 ∧ bitsOf w 35 7 ≤ 112) &&
        (match bitsOf w 33 2 with
        | 0 => decide (free ≤ w % 128 ∧ w % 128 + bitsOf w 35 7 ≤ 128)
        | 1 => decide (w % 32 + bitsOf w 35 7 ≤ 20)
        | 2 => decide (bitsOf w 35 7 ≤ 4)
        | _ => false)
    | 2 => decide (bitsOf w 58 3 ≠ 4) && (bitOf w 41 || decide (1 ≤ bitsOf w 32 9 ∧ bitsOf w 32 9 ≤ 384))
    | 3 => (match bitsOf w 32 2 with
      | 1 => decide (w % 256 + bitsOf w 34 5 + 1 ≤ 160)
      | 3 => selWidthOk (w % 16) (bitsOf w 34 5 + 1)
      | _ => true)
    | 4 => decide (bitsOf w 39 3 ≤ 3)
    | _ => false)

/-- The load check of an edit template (R294): its executed slots, and the INSERTs' lengths together. -/
def tplOk (r : Nat) : Bool :=
  let slots := ((List.range 16).map fun k => bitsOf r (64 * (15 - k)) 64).takeWhile fun w => decide (bitsOf w 61 3 ≠ 0)
  slots.all (tplSlotOk (8 * (slots.length + 1))) &&
    decide (slots.foldl (fun a w => if bitsOf w 61 3 = 1 then a + bitsOf w 35 7 else a) 0 ≤ 112)

/-- The extractors of a flow key profile, and its key length (R239, R240). -/
def profKeyLen (r : Nat) : Nat :=
  b2n (bitOf r 509) + 2 * b2n (bitOf r 508) +
    (List.range 8).foldl (fun a k => let e := bitsOf r (32 * (7 - k)) 32; if bitOf e 31 then a + bitsOf e 10 5 else a) 0
def profOk (r : Nat) : Bool :=
  let e (k : Nat) : Nat := bitsOf r (32 * (7 - k)) 32
  decide (bitsOf r 505 2 ≠ 3) && decide (bitsOf r 495 4 ≤ 5) && decide (bitsOf r 478 16 ≠ 0) && decide (bitsOf r 468 2 ≠ 3) &&
    decide (profKeyLen r ≤ 46) &&
    ((List.range 8).all fun k => !bitOf (e k) 31 ||
      decide (bitsOf (e k) 15 9 ≤ 383 ∧ 1 ≤ bitsOf (e k) 10 5 ∧ bitsOf (e k) 10 5 ≤ 16)) &&
    (!bitOf r 510 || (((List.range 4).all fun k => bitOf (e k) 31) && decide (bitsOf (e 0) 10 5 = bitsOf (e 1) 10 5 ∧
      bitsOf (e 2) 10 5 = bitsOf (e 3) 10 5)))

/-- A row holds no reserved code at its index (R13, R216, R223, R226, R314, R335, R349, R351, R352). -/
def rowOk (t i r : Nat) : Bool :=
  match t with
  | 0x01 => decide (bitsOf r 48 6 < 48)
  | 0x02 => !lpmValid r || lpmMaskOk r
  | 0x20 => decide (bitsOf r 253 3 ≤ 5) && (decide (bitsOf r 253 3 ≠ 3) || decide (6 ≤ bitsOf r 181 8)) &&
      (!bitOf r 236 || decide (bitsOf r 237 16 < 16384))
  | 0x30 => (decide (sfMaxSdu r = 0) || decide (64 ≤ sfMaxSdu r ∧ sfMaxSdu r ≤ 9216)) &&
      (!bitOf r 126 || decide (i / 8 = crc32c (macKey (bitsOf r 114 12) (bitsOf r 66 48)) % 2048))
  | 0x31 => !bitOf r 63 || decide (1 ≤ bitsOf r 24 32)
  | 0x32 => decide (bitsOf r 224 32 ≤ 100000000) && decide (bitsOf r 192 32 ≤ 100000000)
  | 0x40 => tplOk r
  | 0x50 =>
    let w (k : Nat) : Nat := bitsOf r (64 * (3 - k)) 64
    decide (bitsOf (w 0) 46 18 ≤ 131072) && decide (bitsOf (w 0) 28 18 ≤ 131072) && decide (bitsOf (w 0) 0 22 ≤ 4000000) &&
      (decide (i / 16 ≠ 57) || decide (bitsOf (w 0) 0 22 ≠ 0)) &&
      (decide (56 ≤ i / 16) ||
        ((!bitOf (w 1) 63 || decide (1 ≤ bitsOf (w 1) 32 31 ∧ bitsOf (w 1) 32 31 ≤ 100000000 ∧ 1 ≤ bitsOf (w 1) 14 18)) &&
          (!bitOf (w 2) 63 || decide (1 ≤ bitsOf (w 2) 32 31 ∧ bitsOf (w 2) 32 31 ≤ 100000000 ∧ 64 ≤ bitsOf (w 2) 8 24)) &&
          decide (1 ≤ bitsOf (w 3) 53 11 ∧ bitsOf (w 3) 53 11 ≤ 1024)))
  | 0x60 => profOk r
  | _ => true

/-- The row as a READ returns it; a queue-parameter row that no record wrote carries its default values (R314, R335). -/
def State.readRow (s : State) (t i : Nat) : Nat :=
  let r := s.row t i
  if t = 0x50 then
    if bitOf r 256 then r % 2 ^ 256
    else 2048 * 2 ^ 238 + (if i / 16 = 57 then 1000 else 0) * 2 ^ 192 + 2 ^ 53 + i % 16 / 2 * 2 ^ 50
  else r

/-- The powered-off block in which a row lies (R556): the row is lost and cannot be reached. -/
def State.rowOff (s : State) (t i : Nat) : Bool :=
  if t = 1 then !s.macOn
  else if t = 2 then !s.lpmOn i
  else if 0x10 ≤ t ∧ t ≤ 0x13 then !s.ruleOn (t - 0x10) i
  else if t = 0x21 then !s.domOn 148 else false

/-- Shows `LPM_COUNT`. -/
def State.showLpm (s : State) : State := s.set R.TABLES.LPM_COUNT.VALID ((s.rowsOf 2).filter fun e => lpmValid e.2).length

/-- Credit and tokens of a queue after its parameters changed: each clamped to its new bound (R336). -/
def State.clampQ (s : State) (p q : Nat) : State :=
  let x := s.qst p q
  let tok := match x.tokens with
    | some t => some (min t ((s.tbBurst p q * shUnit : Nat) : Int))
    | none => none
  s.setQst p q { x with credit := if s.cbsEn p q then min x.credit ((s.hiCredit p q * shUnit : Nat) : Int) else x.credit,
                        tokens := tok }

/-- Writes a row, with what the change brings (R336, R354). -/
def State.putRow (s : State) (t i r : Nat) : State :=
  match t with
  | 0x01 => (s.setRow t i r).showMac
  | 0x02 => (s.setRow t i r).showLpm
  | 0x30 => (s.setRow t i r).setSf i SfSt.init
  | 0x32 => (s.setRow t i r).setMt i MtSt.init
  | 0x50 => ((s.settleQ (i / 16) (i % 16)).setRow t i r).clampQ (i / 16) (i % 16)
  | _ => s.setRow t i r

end Sys2Proof.Machine
end

