-- ==== Sys2Proof/Machine/Halt.lean ====
section
/-! DEFINITION. The debugger's hold on the service complex: resumes, and what a detach or a relock ends (R127, R576, R581, R584). -/
namespace Sys2Proof.Machine

/-- A HALTED thread resumes (R576): it executes from its PC, whose breakpoint does not fire. -/
def State.resumeThr (s : State) (t : Nat) : State :=
  if (s.thr t).st ≠ .halted then s
  else
    let s1 := s.modThr t fun h => { h with st := .ready, skipBp := true, afterStep := 0 }
    let s2 := if s1.fld R.DEBUG.LAST_HALT.THREAD = t then
        ((s1.set R.DEBUG.LAST_HALT.CAUSE 0).set R.DEBUG.LAST_HALT.INDEX 0).set R.DEBUG.LAST_HALT.THREAD 0 else s1
    s2.refreeze (t / 16)

/-- The freeze mask (R581), with the countdowns that follow it (R415). -/
def State.setFreeze (s : State) (m : Nat) : State := (s.set R.DEBUG.STATUS.FREEZE m).each (List.range 4) State.refreeze

/-- A response goes out and is stored with the SEQ of its request (R569). -/
def State.reply (s : State) (q : Bool) (r : Resp) : State := { s with dbg := { s.dbg with seq := some (q, r), out := r } }

/-- The response that a request has been waiting for. -/
def State.lateReply (s : State) (r : Resp) : State :=
  match s.dbg.late with
  | some q => { s with dbg := { s.dbg with late := none } }.reply q r
  | none => s

/-- What a detach or a relock ends (R584): halts, pending steps (whose request is answered OK), breakpoints, watchpoints, the freeze
mask, the SEQ record and the result buffer. -/
def State.dbgClear (s : State) : State :=
  let s0 := if s.trust.unlocking.isSome then s else s.lateReply ⟨0, []⟩
  let s1 := s0.each allThreads fun s t =>
    (s.resumeThr t).modThr t fun h => { h with stepping := false, afterStep := 0 }
  let s2 := { s1 with dbg := { s1.dbg with seq := none, buf := [], brks := [], wtcs := [] } }
  (s2.disarm .step).setFreeze 0

/-- The debug port is unlocked (R124). -/
def State.unlocked (s : State) : Bool := decide (s.fld R.SEC.STATUS.DEBUG = 1)

/-- The unlock ends (R127). -/
def State.endUnlock (s : State) : State :=
  if !s.unlocked then s
  else
    let s1 := (((s.set R.SEC.STATUS.DEBUG 2).set R.SEC.STATUS.SCOPE 0).set R.SEC.DEBUG_TIME.REMAIN 0).disarm .unlock
    s1.dbgClear

/-- An unlock that waits for its record is cancelled (R126). -/
def State.cancelUnlock (s : State) : State :=
  if s.trust.unlocking = none then s else { s with trust := { s.trust with unlocking := none } }.lateReply ⟨7, []⟩

/-- An unlock ends, and one that waits for its record is cancelled: tamper, SYS_RST_N and a detach (R126, R127). -/
def State.relock (s : State) : State := s.cancelUnlock.endUnlock

end Sys2Proof.Machine
end

