-- ==== Sys2Proof/Machine/Unlock.lean ====
section
/-! DEFINITION. The end of an unlock response: its taking effect or its refusal (R126-R128). -/
namespace Sys2Proof.Machine

/-- A response fails a check of R126 (R128): no challenge is issued for a wait that doubles up to 640 s. -/
def State.unlockFail (s : State) : State :=
  let w := if s.trust.backoff = 0 then 10 else s.trust.backoff
  let s1 := { s with trust := { s.trust with backoff := min 640 (2 * w), unlocking := none } }
  ((s1.arm .backoff (secs w)).bump R.SEC.UNLOCKS.FAILS).detect 30

/-- A response has passed every check: the unlock takes effect (R126, R127). -/
def State.unlockNow (s : State) : State :=
  match s.trust.unlocking with
  | none => s
  | some (scope, minutes) =>
    let s1 := { s with trust := { s.trust with unlocking := none, backoff := 0, challenge := none, unlocks := s.trust.unlocks + 1 } }
    let s2 := (((s1.disarm .backoff).disarm .challenge).set R.SEC.STATUS.DEBUG 1).set R.SEC.STATUS.SCOPE scope
    ((s2.bump R.SEC.UNLOCKS.COUNT).arm .unlock (secs (60 * minutes))).lateReply ⟨0, []⟩

/-- Step 5 of R126 has failed: the record is not in the journal. -/
def State.unlockLost (s : State) : State :=
  if s.trust.unlocking = none then s else s.unlockFail.lateReply ⟨7, []⟩

end Sys2Proof.Machine
end

