-- ==== Sys2Proof/Machine/Deck.lean ====
section
/-! DEFINITION. The Deck: its port, the identity page, the journal, removal and return, and the slot writes of an update
(R66-R73, R91-R105). -/
namespace Sys2Proof.Machine

/-! ## Reads (R70-R73) -/

/-- A READ frame as it arrives (R70): 0 good, 1 to be read once more, 2 failed. -/
def State.frameResult (s : State) (page : Nat) (data : List Byte) (crc : Nat) : State × Nat :=
  let put (r : Option Nat) : State := { s with deck := { s.deck with retry := r } }
  if data.length ≠ 4096 then (put none, 2)
  else if crc32c data = crc then (put none, 0)
  else if s.deck.retry = some page then (put none, 2)
  else (put (some page), 1)

/-- The Deck port error at runtime (R104). -/
def State.portError (s : State) : State := (s.detect 301).raise 209

/-- The module supports the Deck of an identity page (R73). -/
def identityOk (d : List Byte) : Bool :=
  decide (d.take 4 = ascii "AQID") && decide (beAt d 4 2 = 1) && decide (beAt d 0xFC 4 = crc32c (d.take 0xFC)) &&
    decide (beAt d 6 2 = 1 ∨ beAt d 6 2 = 2) && decide (3000 ≤ beAt d 0x1A 2) && decide (600 ≤ beAt d 0x1C 4)

/-- The SERIAL of an identity page, and of the dealt Deck. -/
def serialOf (d : List Byte) : Nat := beAt d 8 16
def State.deckSerial (s : State) : Nat :=
  (List.range 4).foldl (fun a k => a * 2 ^ 32 + s.fld (R.DEAL.DECK_SERIAL_k.SERIAL k)) 0

/-! ## Life (R103) -/

/-- A life figure in whole per cent. -/
def lifePct (cycles used : Nat) : Nat := if cycles = 0 then 0 else 100 * (cycles - used) / cycles

/-- Shows `DECK_LIFE`. -/
def State.lifeShown (s : State) : State :=
  let a := lifePct s.deck.slotCycles (s.fld R.DEAL.SLOT_WRITES.SLOT_A)
  let b := lifePct s.deck.slotCycles (s.fld R.DEAL.SLOT_WRITES.SLOT_B)
  let j := lifePct s.deck.journalCycles (s.fld R.DEAL.JOURNAL_PASS.PASS)
  (((s.set R.DEAL.DECK_LIFE.SLOT_A a).set R.DEAL.DECK_LIFE.SLOT_B b).set R.DEAL.DECK_LIFE.JOURNAL j).set R.DEAL.DECK_LIFE.LIFE (min a (min b j))

/-- Shows `DECK_LIFE`, and reports a figure below its threshold once per Deal, from the application of the threshold on. -/
def State.showLife (s : State) : State :=
  if !s.deck.known then s
  else
    let s1 := s.lifeShown
    if s1.fld R.DEAL.DECK_LIFE.LIFE < s1.eff R.DEAL.LIFE_TH.TH && !s1.deck.lifeRaised && (s1.deal.applied || !s1.deal.running) then
      ({ s1 with deck := { s1.deck with lifeRaised := true } }.detect 303).raise 208
    else s1

/-- The dealt Deck is the one of this identity page. -/
def State.takeIdentity (s : State) (d : List Byte) : State :=
  let s1 := s.each (List.range 4) fun s k => s.set (R.DEAL.DECK_SERIAL_k.SERIAL k) (beAt d (8 + 4 * k) 4)
  { s1 with deck := { s1.deck with known := true, slotCycles := beAt d 0x1A 2, journalCycles := beAt d 0x1C 4 } }.setB
    R.DEAL.DECK_STATE.DEALT true |> State.lifeShown

/-! ## The journal (R91-R96) -/

/-- The first page of the journal ring. -/
def journalBase : Nat := 0xC000

/-- A journal page is valid, of a record type that is not reserved (R92).  DESIGN CHOICE: a page without its MAGIC is not valid, as
R91 leaves open. -/
def journalOk (d : List Byte) : Bool :=
  decide (d.take 4 = ascii "AQJR") && decide (beAt d 0xFFC 4 = crc32c (d.take 0xFFC)) && decide (1 ≤ beAt d 0xC 1 ∧ beAt d 0xC 1 ≤ 8)

/-- Journal page `p` has been read: the head is the valid page with the highest SEQ, and a page after it that fails its CRC is not
used again in this pass. -/
def State.noteJournal (s : State) (p : Nat) (d : List Byte) : State :=
  if journalOk d then
    if s.deck.anyPage && decide (beAt d 4 4 ≤ s.deck.seq) then s
    else
      let s1 := { s with deck := { s.deck with anyPage := true, seq := beAt d 4 4, next := (p + 1) % 4096 } }
      ((((s1.set R.DEAL.JOURNAL.HEAD p).set R.DEAL.JOURNAL_PASS.PASS (beAt d 8 4)).set R.DEAL.SLOT_WRITES.SLOT_A (beAt d 0x34 2)).set
        R.DEAL.SLOT_WRITES.SLOT_B (beAt d 0x36 2)).showLife
  else if s.deck.anyPage && decide (s.deck.next = p) && d.any (fun b => decide (b ≠ 0xFF)) then
    { s with deck := { s.deck with next := (p + 1) % 4096 } }
  else s

/-- The PASS of an append to page `p`: the head wraps to a page that is not above it, be it page 0 or, where that fails, a later one. -/
def State.passFor (s : State) (p : Nat) : Nat :=
  if s.deck.anyPage && decide (p ≤ s.fld R.DEAL.JOURNAL.HEAD) then s.fld R.DEAL.JOURNAL_PASS.PASS + 1 else s.fld R.DEAL.JOURNAL_PASS.PASS

/-- Journal time: the seconds of the gate-time instance, 0 while it is not synchronised. -/
def State.journalTime (s : State) : Nat :=
  let i := s.fld R.TIME.GATE.GATE_INST
  let c : Inst := s.inst.get ⟨0, 0, 0, 0⟩ i
  if s.on (R.TIME.INST_i.STATUS.SYNC i) then c.sec else 0

/-- A journal page without its CRC; the bytes after the payload are open (free values). -/
def State.journalBody (s : State) (p : Nat) (r : JRec) : List Byte :=
  let l := ascii "AQJR" ++ beBytes 4 (s.deck.seq + 1) ++ beBytes 4 (s.passFor p) ++ beBytes 1 r.typ ++ beBytes 1 r.merged ++
    beBytes 2 r.payload.length ++ beBytes 16 deviceId ++ beBytes 8 s.journalTime ++ beBytes 8 s.upMs ++
    beBytes 4 (s.fld R.DEAL.DEAL_COUNT.COUNT) ++ beBytes 2 (s.fld R.DEAL.SLOT_WRITES.SLOT_A) ++
    beBytes 2 (s.fld R.DEAL.SLOT_WRITES.SLOT_B) ++ beBytes 8 0 ++ r.payload
  l ++ s.freeBytes (0xFFC - l.length)

/-- PROGRAM of journal page `p` is sent. -/
def State.programPage (s : State) (p : Nat) (r : JRec) : State :=
  let b := s.journalBody p r
  let d := { s.deck with pages := s.deck.pages.put [] (journalBase + p) (b ++ beBytes 4 (crc32c b)), port := some (.programJournal p r) }
  { s with deck := d }.usedFrees 4028

/-- The oldest queued record may be appended (R93-R95, R97, R98). -/
def State.mayAppend (s : State) : Bool :=
  !s.deck.queue.isEmpty && decide (0 < s.fld R.DEAL.JOURNAL.BUDGET) && !s.on R.DEAL.DECK_STATE.JOURNAL_PAUSED &&
    s.on R.DEAL.DECK_STATE.DEALT && s.deck.port.isNone

/-- The append of the oldest record starts, with the erase of a new block first. -/
def State.startAppend (s : State) : State :=
  match s.deck.queue with
  | [] => s
  | r :: t =>
    let p := s.deck.next
    let s1 := ({ s with deck := { s.deck with queue := t } }.set R.DEAL.JOURNAL.QUEUED t.length).set R.DEAL.JOURNAL.BUDGET
      (s.fld R.DEAL.JOURNAL.BUDGET - 1)
    if p % 16 = 0 then { s1 with deck := { s1.deck with port := some (.eraseJournal p r) } } else s1.programPage p r

/-- The Deck port is free: a queued append goes before the update's next command (R102). -/
def State.portNext (s : State) : State :=
  if s.mayAppend then s.startAppend
  else if s.deck.wipe && s.on R.DEAL.DECK_STATE.DEALT && s.deck.port.isNone then
    { s with deck := { s.deck with wipe := false, port := some (.eraseSlot 0) } }
  else match s.deck.port, s.deck.update with
    | none, some u => { s with deck := { s.deck with port := some u.next } }
    | _, _ => s

/-- The command of the Deck port has ended. -/
def State.portFree (s : State) : State := { s with deck := { s.deck with port := none } }.portNext

/-- A record is lost with the page or block that failed. -/
def State.recordLost (s : State) (r : JRec) : State := if r.typ = 5 then s.unlockLost else s

/-- A journal page has been programmed. -/
def State.pageDone (s : State) (p : Nat) (r : JRec) : State :=
  let s1 := { s with deck := { s.deck with seq := s.deck.seq + 1, anyPage := true, next := (p + 1) % 4096 } }
  let s2 := (((s1.set R.DEAL.JOURNAL.HEAD p).set R.DEAL.JOURNAL_PASS.PASS (s.passFor p)).raise 203).showLife
  if r.typ = 5 then { s2 with deck := { s2.deck with port := some (.readJournal p r) } } else s2.portFree

/-! ## Slot writes (R99-R101) -/

/-- The version that the timed floor advance will fuse (R118): none while its DELAY does not run, and none where a valid slot carries a
higher version. -/
def State.showTarget (s : State) : State :=
  let v := s.fld R.DEAL.IMAGE_VER.VER
  s.set R.SEC.FLOOR.TARGET (if s.running .floorDelay && decide (s.deal.maxVersion ≤ v ∧ s.trust.otp.floor < v) then v else 0)
/-- The highest version that a valid slot carries has changed. -/
def State.noteVersion (s : State) (v : Nat) : State := { s with deal := { s.deal with maxVersion := v } }.showTarget

/-- An update ends with a result code of R101, and SLOT_WRITE is queued. -/
def State.endUpdate (s : State) (code : Nat) : State :=
  match s.deck.update with
  | none => s
  | some u =>
    let port : Option PortOp := match s.deck.port with
      | some (.eraseSlot _) => none
      | some (.programSlot _) => none
      | some (.verifySlot _) => none
      | o => o
    -- a header that may have been programmed is erased again
    let begun := match u.next with
      | .verifySlot _ => true
      | .programSlot p => decide (p = 0)
      | _ => false
    let s1 := { s with deck := { s.deck with
      update := none, port := port, wipe := s.deck.wipe || (begun && decide (8 ≤ code ∧ code ≤ 0xC)) } }
    let s2 := ((s1.set R.DEAL.UPDATE.RESULT code).setB R.DEAL.DECK_STATE.UPDATE_BUSY false).raise (if code = 1 then 206 else 207)
    let s3 := (s2.bump (if u.slot = 1 then R.DEAL.SLOT_WRITES.SLOT_A else R.DEAL.SLOT_WRITES.SLOT_B)).showLife
    let v := beAt u.image 0x0C 1
    let s4 := if code = 1 then s3.noteVersion (max v (s3.fld R.DEAL.IMAGE_VER.VER)) else s3
    s4.journal { typ := 6, merged := 0, payload := beBytes 1 u.slot ++ beBytes 1 v ++ slice u.image 0x10 4 ++ beBytes 1 code }

/-- The number of pages of an update, and of the 64 KiB blocks that it covers. -/
def Update.pages (u : Update) : Nat := (u.image.length + 4095) / 4096
def Update.blocks (u : Update) : Nat := (u.image.length + 65535) / 65536

/-- The update goes on with `n` once the port is free. -/
def State.updateNext (s : State) (u : Update) (n : PortOp) : State :=
  { s with deck := { s.deck with update := some { u with next := n } } }.portFree

/-- The write of `image` into the slot that the Deal did not accept begins (R100). -/
def State.startSlotWrite (s : State) (image : List Byte) : State :=
  let slot := if s.fld R.DEAL.STATUS.SLOT = 1 then 2 else 1
  let s1 := { s with deck := { s.deck with update := some { slot := slot, image := image, back := [], next := .eraseSlot 0 } } }
  (((s1.setB R.DEAL.DECK_STATE.UPDATE_BUSY true).set R.DEAL.UPDATE.TARGET slot).set R.DEAL.UPDATE.PROGRESS 0).portNext

/-- An ERASE has completed; `err` is its ERROR bit. -/
def State.eraseDone (s : State) (err : Bool) : State :=
  match s.deck.port, s.deck.update with
  | some (.eraseJournal p r), _ =>
    if err then (({ s with deck := { s.deck with next := (p + 16) % 4096 } }.portError).recordLost r).portFree else s.programPage p r
  | some (.eraseSlot _), none => if err then s.portError.portFree else s.portFree
  | some (.eraseSlot b), some u =>
    if err then (s.endUpdate 8).portNext
    else (if b = 0 then s.noteVersion (s.fld R.DEAL.IMAGE_VER.VER) else s).updateNext u (if b + 1 < u.blocks then .eraseSlot (b + 1) else if 1 < u.pages then .programSlot 1 else .programSlot 0)
  | _, _ => s

/-- A PROGRAM has completed; `err` is its ERROR bit. -/
def State.programDone (s : State) (err : Bool) : State :=
  match s.deck.port, s.deck.update with
  | some (.programJournal p r), _ =>
    if err then (({ s with deck := { s.deck with next := (p + 1) % 4096 } }.portError).recordLost r).portFree else s.pageDone p r
  | some (.programSlot p), some u =>
    if err then (s.endUpdate 9).portNext
    else
      let done := if p = 0 then u.pages else p
      (s.set R.DEAL.UPDATE.PROGRESS (100 * done / u.pages)).updateNext u
        (if p = 0 then .verifySlot 0 else if p + 1 < u.pages then .programSlot (p + 1) else .programSlot 0)
  | _, _ => s

/-- The first page of slot `x` (1 A, 2 B). -/
def slotPage (x : Nat) : Nat := 0x4000 * x

/-- A READ frame at runtime: the read-back of an unlock record (R96) or of an update (R100), the identity page that step 2 of a Deal
that has failed was still reading (R56), or a journal page of a Deck that was taken as the dealt one after a failed Deal (R129). -/
def State.runtimeFrame (s : State) (page : Nat) (data : List Byte) (crc : Nat) : State :=
  match s.deck.port, s.deck.update with
  | some (.readJournal p r), _ =>
    if page ≠ journalBase + p then s
    else match s.frameResult page data crc with
      | (s1, 0) => (if data = s1.deck.pages.get [] page then s1.unlockNow else s1.recordLost r).portFree
      | (s1, 1) => s1
      | (s1, _) => (s1.portError.recordLost r).portFree
  | some (.verifySlot p), some u =>
    if page ≠ slotPage u.slot + p then s
    else match s.frameResult page data crc with
      | (s1, 0) =>
        let back := u.back ++ data
        if p + 1 < u.pages then s1.updateNext { u with back := back } (.verifySlot (p + 1))
        else (s1.endUpdate (if sha384 (back.take u.image.length) = sha384 u.image then 1 else 0x0A)).portNext
      | (s1, 1) => s1
      | (s1, _) => (s1.portError.endUpdate 9).portNext
  | none, _ =>
    if s.deal.failed && !s.deck.known && decide (page = 0) && s.on R.DEAL.DECK_STATE.PRESENT && s.on R.DEAL.DECK_STATE.PWR_ON &&
        !s.running .deckSettle && !decide (0x10 ≤ s.fld R.DEAL.STATUS.CODE ∧ s.fld R.DEAL.STATUS.CODE ≤ 0x13) then
      match s.frameResult page data crc with
      | (s1, 0) => if identityOk data then s1.takeIdentity data else s1
      | (s1, 1) => s1
      | (s1, _) => s1.portError
    else if s.deal.failed && s.deck.known && decide (journalBase ≤ page ∧ page < journalBase + 4096) then
      match s.frameResult page data crc with
      | (s1, 0) => s1.noteJournal (page - journalBase) data
      | (s1, 1) => s1
      | (s1, _) => s1.portError
    else s
  | _, _ => s

/-! ## Removal and return (R67, R97, R98) -/

/-- The Deck is declared removed at runtime. -/
def State.deckRemoved (s : State) : State :=
  let was := s.on R.DEAL.DECK_STATE.DEALT
  let waits := match s.deck.port with
    | some (.eraseJournal _ r) => decide (r.typ = 5)
    | some (.programJournal _ r) => decide (r.typ = 5)
    | some (.readJournal _ _) => true
    | _ => false
  let s1 := (((s.setB R.DEAL.DECK_STATE.PRESENT false).setB R.DEAL.DECK_STATE.PWR_ON false).setB R.DEAL.DECK_STATE.DEALT false).setB
    R.DEAL.DECK_STATE.JOURNAL_PAUSED true
  let s2 := ((s1.detect 300).raise 200).bump R.DEAL.REMOVALS.COUNT
  -- the number of a page whose programming is abandoned is not used again in this pass
  let next := match s.deck.port with
    | some (.programJournal p _) => (p + 1) % 4096
    | _ => s.deck.next
  let s3 : State := ({ s2 with deck := { s2.deck with next := next, port := none, retry := none, removedAt := if was then some s.upMs else s2.deck.removedAt } }.endUpdate 0x0B).disarm .deckSettle
  let q : List JRec := s3.deck.queue.filter fun r => decide (r.typ ≠ 5)
  if waits || decide (q.length ≠ s3.deck.queue.length) then
    ({ s3 with deck := { s3.deck with queue := q } }.set R.DEAL.JOURNAL.QUEUED q.length).unlockLost
  else s3

/-- DECK_PRES_N has been low for 100 ms at runtime: the Deck is powered, and its identity page is read 50 ms later. -/
def State.deckPower (s : State) : State :=
  let s1 := { s with sup := { s.sup with deckPresN := false } }
  if s.on R.DEAL.DECK_STATE.PWR_ON && s.on R.DEAL.DECK_STATE.PRESENT then s1
  else ((s1.setB R.DEAL.DECK_STATE.PRESENT true).setB R.DEAL.DECK_STATE.PWR_ON true).arm .deckSettle (msec 50)

/-- The dealt Deck is back: the journal resumes, with the records of the absence. -/
def State.deckBack (s : State) : State :=
  let s1 := ((s.setB R.DEAL.DECK_STATE.JOURNAL_PAUSED false).setB R.DEAL.DECK_STATE.DEALT true).raise 201
  let s2 := match s.deck.removedAt with
    | some t => s1.journal { typ := 3, merged := 0, payload := beBytes 8 t ++ beBytes 8 s.upMs }
    | none => s1
  let s3 := match s.deck.otherSeen with
    | some (serial, t) => s2.journal { typ := 4, merged := 0, payload := beBytes 16 serial ++ beBytes 8 t }
    | none => s2
  let s4 := { s3 with deck := { s3.deck with removedAt := none, otherSeen := none } }.setB R.DEAL.DECK_STATE.FOREIGN false
  if s4.deck.wipe then s4.portNext else s4

/-- Another Deck has been seen. -/
def State.deckForeign (s : State) (d : List Byte) : State :=
  let s1 := s.each (List.range 4) fun s k => s.set (R.DEAL.OTHER_SERIAL_k.SERIAL k) (beAt d (8 + 4 * k) 4)
  (({ s1 with deck := { s1.deck with otherSeen := some (serialOf d, s.upMs) } }.setB R.DEAL.DECK_STATE.FOREIGN true).detect 302).raise 202

/-- The identity page after a return (none: its read failed twice). -/
def State.deckIdentity (s : State) (page : Option (List Byte)) : State :=
  if !s.isDue .deckSettle then s
  else
    let s1 := s.disarm .deckSettle
    match page with
    | none => s1.portError
    | some d =>
      if s1.deck.known then (if identityOk d && decide (serialOf d = s1.deckSerial) then s1.deckBack else s1.deckForeign d)
      else if s1.deal.failed && identityOk d then (s1.takeIdentity d).setB R.DEAL.DECK_STATE.JOURNAL_PAUSED false
      else s1.deckForeign d

/-- The journal budget gains one every 300 s (R94). -/
def State.budgetTick (s : State) : State :=
  if !s.isDue .journal then s
  else (s.arm .journal (secs 300)).set R.DEAL.JOURNAL.BUDGET (min 12 (s.fld R.DEAL.JOURNAL.BUDGET + 1))

end Sys2Proof.Machine
end

