-- ==== Sys2Proof/Machine/UPort.lean ====
section
/-! DEFINITION. The table manager and the update ports (R224, R228-R235, R625, R627). -/
namespace Sys2Proof.Machine

/-! ## Commands -/

def upOp (w : Word64) : Nat := bitsOf w.toNat 56 8
def upTable (w : Word64) : Nat := bitsOf w.toNat 48 8
def upTag (w : Word64) : Nat := bitsOf w.toNat 32 16
def upIndex (w : Word64) : Nat := bitsOf w.toNat 0 32

/-- ROW_BYTES of a table. -/
def rowBytes (t : Nat) : Nat :=
  match t with
  | 0x01 => 16
  | 0x02 => 48
  | 0x10 => 96
  | 0x11 => 96
  | 0x12 => 96
  | 0x13 => 96
  | 0x20 => 32
  | 0x21 => 16
  | 0x30 => 16
  | 0x31 => 8
  | 0x32 => 32
  | 0x40 => 128
  | 0x50 => 32
  | 0x60 => 64
  | _ => 0

/-- The length of a command in words, its header included (R228). -/
def uportLen (w : Word64) : Nat :=
  match upOp w with
  | 1 => 1 + rowBytes (upTable w) / 8
  | 3 => 1 + rowBytes (upTable w) / 8
  | 4 => 1 + rowBytes (upTable w) / 8
  | 7 => 2
  | _ => 1

/-- A row of words, big-endian, and back. -/
def wordsToRow (l : List Word64) : Nat := l.foldl (fun a w => a * 2 ^ 64 + w.toNat) 0
def rowToWords (n r : Nat) : List Word64 := (List.range n).map fun k => BitVec.ofNat 64 (r / 2 ^ (64 * (n - 1 - k)))

/-! ## The LPM's order (R224, R625) -/

/-- The place of a row's group: longer prefixes first, and at equal length the specific VRF first. -/
def lpmRank (r : Nat) : Nat :=
  let m := lpmMask r
  2 * (128 - onesIn 128 (m % 2 ^ 128)) + b2n (decide (bitsOf m 148 12 = 0))
/-- The valid entries. -/
def State.lpmRows (s : State) : List (Nat × Nat) := (s.rowsOf 2).filter fun e => lpmValid e.2 && s.lpmOn e.1
/-- The first free index from `i` on; `fuel` indexes are left. -/
def State.lpmFree (s : State) (used : List Nat) : Nat → Nat → Option Nat
  | 0, _ => none
  | fuel + 1, i => if 65536 ≤ i then none else if i ∉ used ∧ s.lpmOn i then some i else s.lpmFree used fuel (i + 1)

/-- Inserts a row by its prefix (R224): the index placed, or none where the table is full. -/
def State.lpmInsert (s : State) (r : Nat) : State × Option Nat :=
  let rows := s.lpmRows
  let g := lpmRank r
  match rows.find? fun e => decide (lpmVal e.2 = lpmVal r ∧ lpmMask e.2 = lpmMask r) with
  | some e => (s.putRow 2 e.1 r, some e.1)
  | none =>
    let used := rows.map (·.1)
    let own := rows.filter fun e => decide (lpmRank e.2 = g)
    let before := rows.filter fun e => decide (lpmRank e.2 ≤ g)
    let start := match before.getLast? with
      | some e => e.1 + 1
      | none => 0
    let within := match own.head?, own.getLast? with
      | some a, some b => s.lpmFree used (b.1 - a.1) a.1
      | _, _ => none
    match (match within with
      | some i => if i < start then some i else none
      | none => none) with
    | some i => (s.putRow 2 i r, some i)
    | none =>
      match s.lpmFree used 65536 start with
      | none => (s, none)
      | some f =>
        -- the groups between the row's own and the free index, nearest the index first
        let mid := (rows.filter fun e => decide (start ≤ e.1 ∧ e.1 < f)).reverse
        let ranks := (mid.map fun e => lpmRank e.2).eraseDups
        let x := ranks.foldl (fun (a : State × Nat) h =>
          match rows.find? fun e => decide (lpmRank e.2 = h) with
          | some e => ((a.1.setRow 2 a.2 e.2).setRow 2 e.1 0, e.1)
          | none => a) (s, f)
        (x.1.putRow 2 x.2 r, some x.2)

/-- A WRITE of a valid row at an index keeps the group order (R625). -/
def State.lpmOrderOk (s : State) (i r : Nat) : Bool :=
  s.lpmRows.all fun e => decide (e.1 = i) || (if e.1 < i then decide (lpmRank e.2 ≤ lpmRank r) else decide (lpmRank r ≤ lpmRank e.2))

/-! ## Banks (R231, R232) -/

/-- A bank lies, wholly or in part, in a powered-off block. -/
def State.bankOff (s : State) (k : Nat) : Bool :=
  let a := s.ruleBase k
  let b := a + 512 * s.ruleSize k
  (!s.domOn 145 && decide (a < 12288) && decide (a < b)) || (!s.domOn 146 && decide (12288 < b))

/-- One more commit (R230). -/
def State.commitSeq (s : State) : State :=
  { s with tabs := { s.tabs with nWrites := s.tabs.nWrites + 1 } }.bump R.TABLES.SEQ_LO.COUNT

/-- Heads in the pipelines keep the row that the next commit changes, where they read it after the lookups (R230, R397): actions, groups,
filters and meters. -/
def State.noteRow (s : State) (t i : Nat) : State :=
  if t ∉ [0x20, 0x21, 0x30, 0x32] then s
  else if (s.pipe.stage.all fun e => e.2.isEmpty) && s.pipe.held.isEmpty then { s with tabs := { s.tabs with wrote := [] } }
  else { s with tabs := { s.tabs with wrote := s.tabs.wrote ++ [(s.tabs.nWrites + 1, t, i, s.row t i)] } }

/-- A swap to bank `k` commits (R232). -/
def State.swapBank (s : State) (k : Nat) : State :=
  let a := s.fld R.TABLES.RULESET_ACTIVE.BANK
  let s1 := s.commitSeq.raise 121
  if a = k then s1
  else
    let busy := decide (s.fld (R.TABLES.INFLIGHT_k.COUNT a) ≠ 0)
    let old := if s.ruleSize a = 0 then 0 else if busy then 2 else 3
    let s2 := (s1.set (R.TABLES.RULESET_STATUS.STATE a) old).set (R.TABLES.RULESET_STATUS.STATE k) (if s.ruleSize k = 0 then 0 else 1)
    let dr := (s2.tabs.drainAt.del k)
    ({ s2 with tabs := { s2.tabs with drainAt := if old = 2 then dr.put 0 a (s.now + 1) else dr } }).set R.TABLES.RULESET_ACTIVE.BANK k

/-- A write of `RULESET_ACTIVE.BANK` (R232). -/
def State.swapWrite (s : State) (k : Nat) : State :=
  if s.ruleSize k = 0 ∨ s.bankOff k then s.setB R.TABLES.STICKY.SWAP_REFUSED true else s.swapBank k

/-! ## One command (R229) -/

/-- STATUS, the index placed or read, whether it committed, and a row read. -/
structure UpRes where
  status : Nat
  index : Nat
  commit : Bool
  row : List Word64
  deriving DecidableEq, Repr

def upRefuse (st i : Nat) : UpRes := { status := st, index := i, commit := false, row := [] }
def upDone (i : Nat) : UpRes := { status := 0, index := i, commit := true, row := [] }

/-- The checks that a change of a row makes first: 0 where it may go on. -/
def State.upCheck (s : State) (t i : Nat) : Nat :=
  match s.tableShape t with
  | none => 1
  | some (_, n) => if n ≤ i then 2 else if s.rowOff t i then 8 else if 0x10 ≤ t ∧ t ≤ 0x13 ∧ s.ruleBank (t - 0x10) = 2 then 6 else 0

/-- WRITE of row `r` at `i` (R625, R315). -/
def State.upWrite (s : State) (t i r0 : Nat) : State × UpRes :=
  let r := cleanRow t r0
  if t = 0x31 ∨ t = 0x40 ∨ t = 0x60 then (s, upRefuse 1 i)
  else if s.upCheck t i ≠ 0 then (s, upRefuse (s.upCheck t i) i)
  else if !rowOk t i r then (s, upRefuse 3 i)
  else
    match t with
    | 0x01 =>
      if !bitOf r 127 then (s.putRow 1 i 0, upDone i)
      else if i / 8 ≠ macSet (bitsOf r 112 12) (bitsOf r 64 48) then (s, upRefuse 3 i)
      else
        let s1 := match s.macFind (bitsOf r 112 12) (bitsOf r 64 48) with
          | some j => s.setRow 1 j 0
          | none => s
        (s1.putRow 1 i r, upDone i)
    | 0x02 =>
      if !lpmValid r then (s.putRow 2 i 0, upDone i)
      else if !s.lpmOrderOk i r then (s, upRefuse 3 i)
      else (s.putRow 2 i r, upDone i)
    | 0x50 =>
      if s.fld R.BUF.CFG.MODE = 1 ∧ bitsOf r 220 18 ≠ s.qMin (i / 16) (i % 16) then (s, upRefuse 3 i)
      else ((s.pinTokens (i / 16) (i % 16)).putRow t i (r + 2 ^ 256), upDone i)
    | _ => ((s.noteRow t i).putRow t i r, upDone i)

/-- CLEAR of row `i`. -/
def State.upClear (s : State) (t i : Nat) : State × UpRes :=
  if t = 0x31 ∨ t = 0x40 ∨ t = 0x60 then (s, upRefuse 1 i)
  else if s.upCheck t i ≠ 0 then (s, upRefuse (s.upCheck t i) i)
  else if t = 0x50 ∧ s.fld R.BUF.CFG.MODE = 1 ∧ s.qMin (i / 16) (i % 16) ≠ 0 then (s, upRefuse 3 i)
  else ((if t = 0x50 then s.pinTokens (i / 16) (i % 16) else s.noteRow t i).putRow t i 0, upDone i)

/-- INSERT by key (R215, R224, R625). -/
def State.upInsert (s : State) (t i r0 : Nat) : State × UpRes :=
  let r := cleanRow t r0
  if t = 1 then
    if !s.macOn then (s, upRefuse 8 i)
    else if !bitOf r 127 || !rowOk 1 0 r then (s, upRefuse 3 i)
    else
      match s.macFind (bitsOf r 112 12) (bitsOf r 64 48) with
      | some j => (s.putRow 1 j r, upDone j)
      | none =>
        match s.macFree (macSet (bitsOf r 112 12) (bitsOf r 64 48)) with
        | some j => (s.putRow 1 j r, upDone j)
        | none => (s, upRefuse 4 i)
  else if t = 2 then
    if !lpmValid r || !rowOk 2 0 r then (s, upRefuse 3 i)
    else
      match s.lpmInsert r with
      | (s1, some j) => (s1.showLpm, upDone j)
      | (s1, none) => (s1, upRefuse 4 i)
  else (s, upRefuse 1 i)

/-- DELETE by key (R228). -/
def State.upDelete (s : State) (t i r : Nat) : State × UpRes :=
  if t = 1 then
    if !s.macOn then (s, upRefuse 8 i)
    else
      match s.macFind (bitsOf r 112 12) (bitsOf r 64 48) with
      | some j => (s.putRow 1 j 0, upDone j)
      | none => (s, upRefuse 5 i)
  else if t = 2 then
    match s.lpmRows.find? fun e => decide (lpmVal e.2 = lpmVal r ∧ lpmMask e.2 = lpmMask r) with
    | some e => (s.putRow 2 e.1 0, upDone e.1)
    | none => (s, upRefuse 5 i)
  else (s, upRefuse 1 i)

/-- READ. -/
def State.upRead (s : State) (t i : Nat) : State × UpRes :=
  match s.tableShape t with
  | none => (s, upRefuse 1 i)
  | some (b, n) =>
    if n ≤ i then (s, upRefuse 2 i)
    else if s.rowOff t i then (s, upRefuse 8 i)
    else (s, { status := 0, index := i, commit := false, row := rowToWords (b / 8) (s.readRow t i) })

/-- SWAP (R232). -/
def State.upSwap (s : State) (t i : Nat) : State × UpRes :=
  if t ≠ 0x10 then (s, upRefuse 1 i)
  else if 4 ≤ i then (s, upRefuse 2 i)
  else if s.ruleSize i = 0 then (s, upRefuse 7 i)
  else if s.bankOff i then (s, upRefuse 8 i)
  else (s.swapBank i, { upDone i with commit := true })

/-- FLUSH of dynamic MAC entries that match all the selected fields (R228). -/
def State.upFlush (s : State) (t i w : Nat) : State × UpRes :=
  if t ≠ 1 then (s, upRefuse 1 i)
  else if !s.macOn then (s, upRefuse 8 i)
  else
    (s.macRemove fun r => (!bitOf w 47 || decide (bitsOf r 112 12 = bitsOf w 32 12)) &&
      (!bitOf w 46 || decide (bitsOf r 48 6 = bitsOf w 16 6)) && (!bitOf w 45 || decide (bitsOf r 54 10 = bitsOf w 22 10)), upDone i)

/-- BANK_CLEAR. -/
def State.upBankClear (s : State) (t i : Nat) : State × UpRes :=
  if t ≠ 0x10 then (s, upRefuse 1 i)
  else if 4 ≤ i ∨ s.ruleSize i = 0 then (s, upRefuse 2 i)
  else if s.ruleBank i = 2 then (s, upRefuse 6 i)
  else if s.bankOff i then (s, upRefuse 8 i)
  else
    ({ s with tabs := { s.tabs with rows := s.tabs.rows.drop fun k => decide (k / 2 ^ 32 = 0x10 + i) } }, upDone i)

/-- The manager carries out one command: its completion (R229). -/
def State.uportRun (s : State) (ws : List Word64) : State × List Word64 :=
  match ws with
  | [] => (s, [])
  | h :: d =>
    let t := upTable h
    let i := upIndex h
    let r := match upOp h with
      | 1 => s.upWrite t i (wordsToRow d)
      | 2 => s.upClear t i
      | 3 => s.upInsert t i (wordsToRow d)
      | 4 => s.upDelete t i (wordsToRow d)
      | 5 => s.upRead t i
      | 6 => s.upSwap t i
      | 7 => s.upFlush t i (wordsToRow d)
      | 8 => s.upBankClear t i
      | _ => (s, upRefuse 1 i)
    let s1 := if r.2.commit ∧ upOp h ≠ 6 then r.1.commitSeq else r.1
    let w0 := BitVec.ofNat 64 (r.2.status * 2 ^ 56 + upOp h * 2 ^ 48 + upTag h * 2 ^ 32 + r.2.index)
    let w1 := BitVec.ofNat 64 (if r.2.commit then s1.fld R.TABLES.SEQ_LO.COUNT else 0)
    (s1, w0 :: w1 :: r.2.row)

/-! ## The ports (R228, R230, R625) -/

def State.uport (s : State) (u : Nat) : UPort := s.tabs.uports.get UPort.init u
/-- Stores a port and shows its status. -/
def State.setUport (s : State) (u : Nat) (x : UPort) : State :=
  ((({ s with tabs := { s.tabs with uports := s.tabs.uports.put UPort.init u x } }).setBit R.TABLES.UPORT_STATUS.FULL u
    (decide (32 ≤ x.cmds.length))).setBit R.TABLES.UPORT_STATUS.READY u (x.comps.any (·.ready)))
/-- The port's command queue has room. -/
def State.uportRoom (s : State) (u : Nat) : Bool := decide ((s.uport u).cmds.length < 32)

/-- The manager takes commands of port `u` while fewer than 32 completions are unread. -/
def State.uportDrain (s : State) (u : Nat) : Nat → State
  | 0 => s
  | fuel + 1 =>
    let x := s.uport u
    match x.cmds with
    | [] => s
    | c :: t =>
      if 32 ≤ x.comps.length then s
      else
        let r := s.uportRun c
        (r.1.setUport u { cmds := t, comps := x.comps ++ [{ words := r.2, ready := false, commit := if r.1.tabs.nWrites = s.tabs.nWrites then 0 else r.1.tabs.nWrites }] }).uportDrain u fuel

/-- A whole command reaches port `u`. -/
def State.uportPush (s : State) (u : Nat) (ws : List Word64) : State :=
  let x := s.uport u
  (s.setUport u { x with cmds := x.cmds ++ [ws] }).uportDrain u 33

/-- The oldest completion of port `u`, where it is readable; its place lets a waiting command go on. -/
def State.uportPop (s : State) (u : Nat) : Option (List Word64 × State) :=
  let x := s.uport u
  match x.comps with
  | c :: t => if c.ready then some (c.words, (s.setUport u { x with comps := t }).uportDrain u 33) else none
  | [] => none

/-- The markers of commit `n` have passed in every pipeline: no head is left that entered before it (R230). -/
def State.markersPassed (s : State) (n : Nat) : Bool :=
  s.pipe.stage.all fun e => e.2.all fun h => match s.frame h.frame with
    | some f => decide (n ≤ f.rows)
    | none => true

/-- The markers of port `u`'s oldest unread command have passed in all pipelines: its completion becomes readable (R230). -/
def State.uportReady (s : State) (u : Nat) : State :=
  let x := s.uport u
  let old := x.comps.takeWhile (·.ready)
  match x.comps.drop old.length with
  | [] => s
  | c :: t =>
   if !s.markersPassed c.commit then s
   else
    let s1 := s.setUport u { x with comps := old ++ { c with ready := true } :: t }
    if old.isEmpty then s1.raise (112 + u) else s1

/-- A restart commits what the command queues hold and empties the completion queues (R451). -/
def State.uportRestart (s : State) : State :=
  s.each (List.range 8) fun s u =>
    let x := s.uport u
    let s1 := x.cmds.foldl (fun s c => (s.uportRun c).1) s
    s1.setUport u UPort.init

end Sys2Proof.Machine
end

