-- ==== Sys2Proof/Machine/Svc.lean ====
section
/-! DEFINITION. The service complex as a whole: which services run, starts, the restart, and the deadlock condition (R432,
R449-R451, R490). -/
namespace Sys2Proof.Machine

/-- The services that the complex starts. -/
def State.servicesOn (s : State) : List Nat := (List.range 12).filter fun k => decide (k ≠ 0) && s.svcOn k

/-- The status blocks at a start of the services (R494): STATE 1, the parameters not applied, and STARTS. -/
def State.showStarts (s : State) : State :=
  let s1 := { s with serv := { s.serv with starts := s.serv.starts + 1 } }
  s1.each s1.servicesOn fun s k =>
    let x := s.serv.skipped.get 0 k
    (((s.setSvcStat k 0 1 1).setSvcStat k 1 1 (x / 65536)).setSvcStat k 2 2 x).setSvcStat k 4 4 s.serv.starts

/-- The vendor threads start at their ROM entries (R432), on cores that are on. -/
def State.startVendors (s : State) : State :=
  s.showStarts.each (allThreads.filter fun t => s.vendorUsed t && s.domOn (154 + t / 16)) fun s t =>
    (s.modThr t fun h => { h with entry := Config.vendorEntry t }).start t

/-- The owner threads start at ENTRY (R432). -/
def State.startOwners (s : State) : State :=
  s.each (allThreads.filter fun t => s.ownerThr t && !vendorThr t && s.domOn (154 + t / 16)) State.start

/-- Every vendor thread that runs a service has reached its first wait (R432). -/
def State.vendorsWaited (s : State) : Bool :=
  allThreads.all fun t => !(s.vendorUsed t && s.domOn (154 + t / 16)) || (s.thr t).waited

/-- A buffer of the export path that a restart keeps (R541): it is named in a complete message of a hardware writer. -/
def State.exportKeeps (s : State) (a : Nat) : Bool :=
  s.svc.chans.any fun e => e.2.msgs.any fun m => m.hw && (m.words.any fun w => decide (w.toNat / 2 ^ 24 = a)) ||
    (match s.svc.openBatch with
     | some b => decide (b = a)
     | none => false)

/-- Loads the owner code that the module keeps: each PROGRAM section's code at its LOAD address (R87, R433). -/
def State.loadPrograms (s : State) : State :=
  s.each s.deal.programs fun s p => s.memPut (beAt p 8 8) (slice p 24 (beAt p 4 4))

/-- What the services lose at a restart (R518): everything that they hold in vendor SRAM; an update that writes its slot ends
ABORTED, and SYNC is cleared until relock. -/
def State.servicesLost (s : State) : State :=
  let s1 := { s with serv := { Serv.init with
    starts := s.serv.starts, skipped := s.serv.skipped, boots := s.serv.boots, lsaSeq := s.serv.lsaSeq, lsaDue := true } }
  let s2 := if s1.svcOn 2 then s1.each (List.range 4) fun s i => s.setB (R.TIME.INST_i.STATUS.SYNC i) false else s1
  if s2.deck.update.isSome then (s2.endUpdate 0x0C).portNext else s2

/-- Steps 1 to 4 of a restart (R451): every thread stops, partial messages and commands are abandoned, channels keep only the
complete messages of hardware writers, timers, event ports and completions are cleared, thread-held buffers are reclaimed
and vendor SRAM is re-initialised. -/
def State.restartStop (s : State) : State :=
  let s1 := s.each allThreads fun s t =>
    ((s.abandonParts t).dropPort t).disarm (.sleep t)
  let s2 := s1.each allThreads fun s t => s.modThr t fun h => { Thread.init with entry := h.entry, pc := h.pc }
  let keep := fun (c : Chan) => ({ msgs := c.msgs.filter (·.hw), owner := none, part := [], reader := none } : Chan)
  let kept : Tbl Chan := (s2.svc.chans.map fun (e : Nat × Chan) => (e.1, keep e.2)).filter fun e => decide (e.2 ≠ Chan.init)
  let s3 := { s2 with svc := { s2.svc with chans := kept, timers := [] } }
  let s4 := s3.each (List.range 64) fun s i => s.disarm (.etimer i)
  let s5 := { s4.uportRestart with pools := { s4.uportRestart.pools with waiting := [] } }
  let s6 := s5.reclaim fun k o => decide (o = 3 ∨ 16 ≤ o) ||
    (decide (o = 1) && !s5.exportKeeps (s5.bufAddr (k / 65536) (k % 65536)))
  let s7 := { s6 with mem := s6.mem.drop fun a => decide (0x600000 ≤ a ∧ a < 0x800000) }
  s7.servicesLost.loadPrograms.each (List.range 4) fun s c => (s.wake c 6).refreeze c

/-- A restart starts (R450, R451): not while the complex is held, not before its threads have started, and not while one runs. -/
def State.startRestart (s : State) : State :=
  if !s.svcRuns || decide (s.svc.restarting ≠ 0) then s
  else
    let s1 := (s.restartStop).openWin 3
    { s1 with svc := { s1.svc with restarting := 1 } }

/-- The deadlock condition (R449). -/
def State.deadlockNow (s : State) : Bool :=
  s.svcRuns && decide (s.svc.restarting = 0) &&
  (allThreads.all fun t =>
    decide ((s.thr t).st ≠ .halted ∧ (s.thr t).st ≠ .ready ∧ (s.thr t).st ≠ .waitPort)) &&
  (s.svc.chans.all fun e => e.2.msgs.isEmpty) &&
  (s.svc.timers.all fun e => !e.2.armed) &&
  ((List.range 4).all fun c => !s.line c)

end Sys2Proof.Machine
end

