-- ==== Sys2Proof/Machine/FoldOps.lean ====
section
/-! DEFINITION. Fold: its entry and exit, the countdowns, the sticky bits, FAULT_N and the bypass outputs (R403, R404,
R407-R428). -/
namespace Sys2Proof.Machine

/-! ## Entry (R403, R416-R419) -/

/-- The fault sources that exist (R412). -/
def sourceExists (n : Nat) : Bool :=
  decide (n ≤ 6 ∨ (16 ≤ n ∧ n ≤ 44) ∨ (48 ≤ n ∧ n ≤ 193) ∨ (200 ≤ n ∧ n ≤ 205) ∨ (208 ≤ n ∧ n ≤ 212) ∨ (224 ≤ n ∧ n ≤ 237) ∨
    (240 ≤ n ∧ n ≤ 248) ∨ (256 ≤ n ∧ n ≤ 260) ∨ (264 ≤ n ∧ n ≤ 266) ∨ (300 ≤ n ∧ n ≤ 303))

/-- The copies held in queues and ready slots of egress ports 0-55 and 57. -/
def State.queuedCopies (s : State) : List Copy :=
  ((s.tm.queues.filter fun e => decide (e.1 / 16 ≠ 56)).flatMap (·.2)) ++ s.tm.ports.flatMap fun e => e.2.ready
/-- The copies on the wires. -/
def State.wireCopies (s : State) : List Copy := s.tm.ports.flatMap fun e => (e.2.wire.map (·.copy)).toList

/-- A frame is discarded in Fold, counted once (R403). -/
def State.foldFrame (s : State) (i : Nat) : State :=
  match s.frame i with
  | some f => if f.settled then s.forget i else s.discard i dFold
  | none => s

/-- Every frame held in the forwarding path, each copy a frame of its own (R392), is discarded whole and counted once in `DISC_FOLD`;
port 56 keeps its queues. -/
def State.foldDiscard (s : State) : State :=
  -- frames that no copy of admission holds yet
  let heads := s.pipe.fifo.flatMap (·.2) ++ (s.pipe.stage.flatMap fun e => e.2.map (·.frame)) ++ s.pipe.held.map (·.1)
  let s1 := { s.boostNote with pipe := { s.pipe with fifo := [], stage := [], held := [] } }
  let s2 := (s1.each heads State.foldFrame).each ((List.range 4).filter fun i => s.running (.quiesceAck (137 + i))) State.sliceQuiesce
  -- frames in queues, ready slots and on the wire: each copy is a frame of its own (R392)
  let queued := s2.queuedCopies
  let wires := s2.wireCopies
  let copies := queued ++ wires
  let frames := copies.filterMap (·.frame)
  let s3 := s2.each frames fun s i => match s.frame i with
    | some f => if f.src = 64 then s else s.countAt f.src dFold
    | none => s
  let kept := s3.tm.queues.filter fun e => decide (e.1 / 16 = 56)
  let ports := (s3.tm.ports.map fun (e : Nat × EPort) => (e.1, { e.2 with ready := [], wire := none })).filter fun e => decide (e.2 ≠ EPort.init)
  let s4 := { s3 with tm := { s3.tm with queues := kept, ports := ports } }
  let s5 := ((s4.each queued State.dropCopy).each wires State.deref).each frames fun s i => match s.frame i with
    -- a frame cut through that is still in reception is discarded whole
    | some f => if f.whole then s else s.forget i
    | none => s
  let s6 := s5.each copies fun s c => s.emptied c.port c.q
  -- every guard ends
  s6.each (s6.nel.guards.map (·.1)) State.guardEnd

/-- The complex is held where a bit of class fold or grave is set in F240-F255 (R419). -/
def State.holdCheck (s : State) : State :=
  if (List.range 16).any fun k => s.isSticky (240 + k) && decide (classFold ≤ s.classOf (240 + k)) then s.setB R.FAULT.STATE.SVC_HELD true else s

/-- Fold is entered (R416, R417); a trigger that comes in Fold changes nothing, and one that comes during an exit ends the exit.
The times that the collector measures are free values within their bounds. -/
def State.enterFold (s : State) : State :=
  let exiting := s.on R.FAULT.STATE.EXITING
  if s.col.inFold && !exiting then s
  else
    let s0 := (s.setB R.FAULT.STATE.EXITING false).closeWin 2
    let s1 := ((s0.foldBlocks).foldDiscard).foldLinks
    let s2 := { s1 with col := { s1.col with inFold := true, foldAt := if s.col.inFold then s1.col.foldAt else s1.now } }
    let s3 := ((s2.setB R.FAULT.STATE.FOLD true).bump R.FAULT.FOLD_COUNT.COUNT).holdCheck
    let s4 := ((s3.set R.FAULT.T_FOLD.NS (s3.freeNow % 20001)).usedFree.set R.FAULT.T_BYP.NS (s3.usedFree.freeNow % 20001)).usedFree
    ((((s4.pulseTrigger).driveByp).driveFaultN).raise 6).journal s4.faultMap

/-! ## Exit (R404, R424) -/

/-- A refused exit. -/
def State.exitRefused (s : State) (why : Nat) : State :=
  ((s.set R.FAULT.EXIT_REFUSED.REASON why).bump R.FAULT.EXIT_REFUSED.COUNT).raise 8

/-- A sticky bit of class handled or fold is set. -/
def State.blocksExit (s : State) : Bool :=
  (List.range 320).any fun n => s.isSticky n && decide (s.classOf n = classHandled ∨ s.classOf n = classFold)

/-- A write of 1 to `FOLD_EXIT.GO`. -/
def State.foldExit (s : State) : State :=
  if !s.on R.FAULT.STATE.FOLD then s
  else if s.on R.FAULT.STATE.GRAVE_LATCHED then s.exitRefused 1
  else if s.blocksExit then s.exitRefused 2
  else if !s.on R.DEAL.STATUS.FWD then s.exitRefused 3
  else if !s.sup.sysRstN then s.exitRefused 4
  else if s.on R.FAULT.STATE.EXITING then s.exitRefused 5
  else
    let s1 := (s.setB R.FAULT.STATE.EXITING true).openWin 2
    { s1 with col := { s1.col with exitAt := s.now } }

/-- The accepted exit finishes its steps. -/
def State.foldExitDone (s : State) : State :=
  if !s.on R.FAULT.STATE.EXITING then s
  else
    let col := { s.col with inFold := false, staticOut := false, foldTotal := s.col.foldTotal + (s.now - s.col.foldAt) }
    let s1 := ({ s with col := col }).setB R.FAULT.STATE.FOLD false
    let s2 := ((s1.unfoldLinks).driveByp).driveFaultN
    let s3 := (((s2.setB R.FAULT.STATE.EXITING false).bump R.FAULT.EXIT_COUNT.COUNT).set R.FAULT.T_EXIT.NS ((s.now - s.col.exitAt) * 20)).closeWin 2
    s3.raise 7

/-- A write of 1 to `FOLD_REQ.GO`. -/
def State.foldReqWrite (s : State) : State := (s.bump R.FAULT.REQ_COUNT.COUNT).detect 6

/-! ## Countdowns and sticky bits (R408, R414) -/

/-- The countdown of a source has run out. -/
def State.countdownEnd (s : State) (n : Nat) : State :=
  if !s.isDue (.countdown n) then s
  else
    let was := s.col.escalated
    let s1 := s.stopCountdown n
    if !s.isSticky n then s1
    else if s.escOf n = 1 ∧ n ∉ was then
      let s2 := (s1.bump R.FAULT.ESCALATIONS.TO_RESTART).raise 5
      { s2 with col := { s2.col with escalated := n :: s2.col.escalated, restartReq := true } }
    else ((s1.bump R.FAULT.ESCALATIONS.TO_FOLD).holdSvc n).askFold

/-- One bit of a write of 1 to a sticky register. -/
def State.clearSticky (s : State) (n : Nat) : State :=
  if !s.isSticky n ∨ s.isLatched n then s
  else if s.isPresent n then (s.bump R.FAULT.CLEAR_REFUSED.COUNT).raise 11
  else (s.setBit (R.FAULT.STICKY_k.STICKY (n / 32)) (n % 32) false).stopCountdown n

/-- A write to `STICKY_k`. -/
def State.stickyWrite (s : State) (k v : Nat) : State :=
  (s.each (namedSources k v) State.clearSticky).driveFaultN

/-- A write to `INJECT_k`: sources that exist are set as events (R428). -/
def State.injectWrite (s : State) (k v : Nat) : State :=
  s.each ((namedSources k v).filter sourceExists) State.detect

/-! ## The outputs (R422, R423) -/

/-- A FAULT_N pulse has ended. -/
def State.pulseEnd (s : State) : State :=
  if !s.isDue .pulse then s
  else
    let s1 := ((s.disarm .pulse).setB R.FAULT.STATE.PULSING false).bump R.FAULT.PULSE_COUNT.COUNT
    ((s1.arm .pulseGap (msec 2)).raise 9).driveFaultN

/-- The 2 ms after a pulse have passed: triggers that merged start one further pulse. -/
def State.gapEnd (s : State) : State :=
  if !s.isDue .pulseGap then s
  else
    let s1 := s.disarm .pulseGap
    if s1.col.pulseMore then ({ s1 with col := { s1.col with pulseMore := false } }).startPulse else s1

/-- A write of `FAULT.CTRL`. -/
def State.bypWrite (s : State) (v : Nat) : State :=
  (((s.set R.FAULT.CTRL.BYP_FORCE v).setB R.FAULT.CTRL.FAULT_N_SW (v.testBit 8)).driveByp).driveFaultN

/-- The bypass read-back differs, or agrees again. -/
def State.bypMismatch (s : State) (present : Bool) : State :=
  (if present && !s.isPresent 4 then s.bump R.FAULT.BYP_MISMATCH.COUNT else s).level 4 present

/-! ## Detectors (R407, R413, R426) -/

/-- What a parity failure does to the row, way or word that `aux` names (R413, R472).  Of F189, 131,072 + 4,096 s + e is entry e of the
stash of slice s; of F190, 1,024 s + e is an entry of its free-index queue, and 4,096 + 16 s + e one of its poison list. -/
def State.parityEffect (s : State) (n aux : Nat) : State :=
  match n with
  | 0 => s.setB R.FAULT.PARITY.CFG_PAR true
  | 1 => s.setB R.FAULT.PARITY.STATE_PAR true
  | 181 => s.putRow 1 (aux % 262144) 0
  | 182 => s.putRow 2 (aux % 65536) 0
  | 183 => s.putRow (0x10 + aux / 32768 % 4) (aux % 32768) 0
  | 184 => s.setRow 0x20 (aux % 65536) (s.row 0x20 (aux % 65536) % 2 ^ 256 + 2 ^ 256)
  | 189 =>
    if 131072 ≤ aux then
      let i := aux / 4096 % 4
      (s.modSlice i fun x => { x with stash := x.stash.eraseIdx (aux % 4096) }).showStash i
    else match s.flow.cache.get none aux with
    | some e => if e.dirty then (s.expire e.index 4 false).setCache aux none else s.setCache aux none
    | none => s
  | 190 =>
    if aux < 4096 then s.modSlice (aux / 1024) fun x => { x with free := x.free.eraseIdx (aux % 1024) }
    else
      let i := aux / 16 % 4
      let s1 := s.modSlice i fun x => { x with poison := x.poison.eraseIdx (aux % 16) }
      s1.set (R.FLOW.SLICE_s_POISON.COUNT i) (s1.slc i).poison.length
  | 191 => s.putRow 0x21 (aux % 16384) 0
  | 243 => (s.bump (R.SVC.PATCH_PARITY.COUNT (aux % 64 / 16))).trap (aux % 64) 9 0
  | 244 => (s.bump (R.SVC.ROM_PARITY.COUNT (aux % 64 / 16))).trap (aux % 64) 9 0
  | _ => s

/-- A CRC failure that persists (R325): `aux` is the cell line of a bank, doubled, plus 1 for a write; for F179 it is the egress
port whose first staged frame failed.  A write to a line that no frame holds is the next cell write of that bank. -/
def State.crcEffect (s : State) (n aux : Nat) : State :=
  if n = 179 then
    match (s.eport (aux % 58)).ready with
    | c :: t => ((s.modEport (aux % 58) fun e => { e with ready := t }).discardCopy c dCellCrc).detect 179
    | [] => s.detect 179
  else
    let b := n - 160
    let cell := b * 8192 + aux / 2 % 8192
    let s1 := s.crcPersist b
    if aux % 2 = 1 then
      (match s1.buf.frames.find? fun e => match e.2 with
          | some f => decide (cell ∈ f.cells)
          | none => false with
      | some (i, _) => (s1.markBad [cell]).modFrame i fun f => { f with crcBad := true }
      | none => { s1 with buf := { s1.buf with badNext := b :: s1.buf.badNext.filter fun x => decide (x ≠ b) } })
    else match s1.cell cell with
      | some c => s1.setCell cell (some { c with poison := true })
      | none => s1

/-- A detector's report: a level source follows its condition, another source is set.  For the source of a bank, `present` false is a
retry that succeeded at one of its transfers (R324). -/
def State.sourceDetect (s : State) (n : Nat) (present : Bool) (aux : Nat) : State :=
  if !sourceExists n ∨ n = 6 then s
  else if n ∈ levelSources then s.level n present
  else if !present then (if 160 ≤ n ∧ n ≤ 176 then s.crcRetry (n - 160) else s)
  else if (160 ≤ n ∧ n ≤ 176) ∨ n = 179 then s.crcEffect n aux
  else (s.detect n).parityEffect n aux

end Sys2Proof.Machine
end

