-- ==== Sys2Proof/Machine/Fold.lean ====
section
/-! DEFINITION. The end of every command: what its faults have decided is carried out (R414, R416). -/
namespace Sys2Proof.Machine

/-- A decided Fold is entered (R416); a trigger that comes meanwhile changes nothing. -/
def State.foldNow (s : State) : State :=
  if s.col.foldReq then
    let s1 := ({ s with col := { s.col with foldReq := false } }).enterFold
    { s1 with col := { s1.col with foldReq := false } }
  else s

/-- A decided Fold is entered, and a decided restart of the service complex starts (R414, R416); no decision is left
when a command ends, since a countdown that runs out is a command of its own. -/
def State.settle (s : State) : State :=
  let s1 := s.foldNow
  if s1.col.restartReq then
    let s2 := (({ s1 with col := { s1.col with restartReq := false } }).startRestart).foldNow
    { s2 with col := { s2.col with restartReq := false } }
  else s1

/-- The command's next state, once everything that it decided has been carried out. -/
def fin (s : State) : Out State := .next s.settle

end Sys2Proof.Machine
end

