-- ==== Sys2Proof/Machine/Cadence.lean ====
section
/-! DEFINITION. The commands of cadence (ch. 2). -/
namespace Sys2Proof.Machine

/-- METRONOME_UPDATE (R29, R40, R44): the lowest prediction of each pipeline is its capacity, the heads offered in the last
2 us its demand; half a Mtok/s, from an odd number of heads, is dropped, which the spec does not state (DESIGN CHOICE, log 81).  `pred` holds the sixteen predictions, metronome k of Pn at 4n + k; `svc` the issue capacity of each core. -/
def execMetronomeUpdate (pred svc : List Nat) (s : State) : Out State :=
  let s1 := s.each (List.range 4) fun s n =>
    (s.set (R.CADENCE.LIVE_Pn.CAPACITY n) (min 1023 (lowest (metronomes pred n) 0).1)).set
      (R.CADENCE.LIVE_Pn.DEMAND n) (min 1023 (s.cad.offered.get 0 n / 2))
  let peak := highest ((List.range 4).map fun n => s1.fld (R.CADENCE.LIVE_Pn.DEMAND n))
  let s2 := { s1 with cad := { s1.cad with
    offered := [], peaks := (peak :: s1.cad.peaks).take 32, reportAt := s1.now,
    spreadAt := (List.range 4).foldl (fun t n =>
      t.upd none n fun a => if spreadOver (metronomes pred n) then some (a.getD s1.now) else none) s1.cad.spreadAt } }
  let s3 := (s2.set R.CADENCE.LIMITER.SPREAD (highest ((List.range 4).map fun n => spreadPct (metronomes pred n)))).set
    R.CADENCE.LIMITER.METRO (lowest (pred.take 16) 0).2
  let s4 := s3.each (List.range 4) fun s c => s.set (R.CADENCE.SVC_LIVE.CORE c) (min 255 (svc.getD c 0))
  fin s4.showFloor

/-- Where the loop does not run, no light load lowers its goal, and AT_CEILING compares with the target (R30, R44). -/
def State.heldStatus (s : State) : State :=
  let c := (lowest ((List.range 4).map fun n => s.fld (R.CADENCE.LIVE_Pn.CAPACITY n)) 0).1
  let at_ := decide (s.cad.v = 2 * s.fld R.CADENCE.VCORE.CEILING ∧ c < s.eff R.CADENCE.TARGET.TARGET)
  if s.on R.DEAL.STATUS.FWD then
    ((s.cadStatus R.CADENCE.STATUS.AT_CEILING 0 at_).cadStatus R.CADENCE.STATUS.LIGHT_ACTIVE 2 false).showFloor
  else s

/-- GOVERNOR_LOOP (R30): one turn of the loop, while it runs. -/
def execGovernorLoop (s : State) : Out State :=
  if s.on R.CADENCE.CTRL.FIXED || !s.on R.CADENCE.CTRL.GOV_EN || !s.on R.DEAL.STATUS.FWD || s.on R.CADENCE.STATUS.BOOST then
    fin s.holdV.heldStatus
  else
    let c := (lowest ((List.range 4).map fun n => s.fld (R.CADENCE.LIVE_Pn.CAPACITY n)) 0).1
    let top := 2 * s.fld R.CADENCE.VCORE.CEILING
    let v := max 1240 (min (top : Int) ((s.cad.v : Int) + 5 * s.govStep ((s.goal2 : Int) - 2 * c))) |>.toNat
    let s1 := (s.usedFree.setV v).cadStatus R.CADENCE.STATUS.AT_CEILING 0 (decide (v = top ∧ 2 * c < s.goal2))
    let s2 := s1.cadStatus R.CADENCE.STATUS.LIGHT_ACTIVE 2 (decide (s.goal2 < 2 * s.eff R.CADENCE.TARGET.TARGET))
    fin s2.showFloor

/-- CEILING_ADJUST (R31): the power rule lowers or raises the ceiling by 5 mV. -/
def execCeilingAdjust (s : State) : Out State :=
  let low := decide (s.fld R.POWER.VIN.MV < 10500) && s.sup.vinPresent
  let d := s.cad.powDrop
  let d' := if low && decide (4000 < s.fld R.POWER.PIN.CW) then min 230 (d + 5)
            else if !low || decide (s.fld R.POWER.PIN.CW < 3800) then d - 5
            else d
  fin ({ s with cad := { s.cad with powDrop := d' } }.setCeiling.showFloor)

/-- BOOST_END (R32): no source FIFO has held more than BOOST_TH / 2 heads for 100 us. -/
def execBoostEnd (s : State) : Out State :=
  if s.on R.CADENCE.STATUS.BOOST && s.isDue .boost && !s.fifosFull then
    fin ((((s.disarm .boost).setB R.CADENCE.STATUS.BOOST false).holdV).showFloor)
  else fin s

/-- METRO_SPREAD_FAULT (R43): two metronomes of one pipeline have disagreed by more than 15 % for 1 ms. -/
def execMetroSpreadFault (s : State) : Out State :=
  if (List.range 4).any fun n => (s.cad.spreadAt.get none n).any fun t => decide (t + msec 1 ≤ s.now) then
    fin ((s.setB R.CADENCE.STICKY.METRO_SPREAD true).detect 34)
  else fin s

/-- VCORE_RANGE_FAULT (R43, R409): VCORE has measured `mv` for more than 50 us; F035 is present while it lies outside
0.60-0.87 V. -/
def execVcoreRangeFault (mv : Nat) (s : State) : Out State :=
  fin ((s.set R.CADENCE.VCORE.VCORE mv).level 35 (decide (mv < 600 ∨ 870 < mv)))

end Sys2Proof.Machine
end

