-- ==== Sys2Proof/Machine/RegMap.lean ====
section
/-! DEFINITION. The register map: which block, register and fields an address of the register range names, its power domain, and
the vendor and key windows (R588-R592, R622, R151, R107). -/
namespace Sys2Proof.Machine

/-- One row of R588: the block, its base, the number of its instances and their stride. -/
structure BlkRow where
  blk : Blk
  base : Nat
  count : Nat
  stride : Nat

/-- The blocks and their bases (R588). -/
def blkRows : List BlkRow := [
  ⟨.top, 0x10000000, 1, 0x10000⟩, ⟨.deal, 0x10010000, 1, 0x10000⟩, ⟨.sec, 0x10020000, 1, 0x10000⟩,
  ⟨.cadence, 0x10030000, 1, 0x10000⟩, ⟨.power, 0x10040000, 1, 0x10000⟩, ⟨.fault, 0x10050000, 1, 0x10000⟩,
  ⟨.intc, 0x10060000, 1, 0x10000⟩, ⟨.time, 0x10070000, 1, 0x10000⟩, ⟨.debug, 0x10080000, 1, 0x10000⟩,
  ⟨.pool, 0x10090000, 1, 0x10000⟩, ⟨.parse, 0x100A0000, 1, 0x10000⟩, ⟨.tables, 0x100B0000, 1, 0x10000⟩,
  ⟨.flow, 0x100C0000, 1, 0x10000⟩, ⟨.edit, 0x100D0000, 1, 0x10000⟩, ⟨.buf, 0x100E0000, 1, 0x10000⟩,
  ⟨.tm, 0x10100000, 58, 0x1000⟩, ⟨.pipe, 0x10200000, 4, 0x10000⟩, ⟨.svc, 0x10300000, 4, 0x10000⟩,
  ⟨.dram, 0x10400000, 8, 0x10000⟩, ⟨.nlink, 0x10500000, 8, 0x10000⟩, ⟨.lane, 0x10600000, 56, 0x1000⟩,
  ⟨.port, 0x10800000, 48, 0x10000⟩]

/-- The place of a register address: its block, the base and number of its instance, and the offset within it. -/
structure RegPlace where
  blk : Blk
  base : Nat
  inst : Nat
  off : Nat

/-- An address lies in the register range (R586). -/
def inRegRange (a : Nat) : Bool := decide (0x10000000 ≤ a ∧ a < 0x11000000)

/-- The instance that an address lies in, none where the span holds none (R588). -/
def regPlace (a : Nat) : Option RegPlace :=
  match blkRows.find? fun r => decide (r.base ≤ a ∧ a < r.base + r.count * r.stride) with
  | some r => let n := (a - r.base) / r.stride; some ⟨r.blk, r.base + n * r.stride, n, (a - r.base) % r.stride⟩
  | none => none

/-- The power domain of a place, none for the base and the always-on domains (R556, R557). -/
def RegPlace.dom (p : RegPlace) : Option Nat :=
  match p.blk with
  | .port => some p.inst
  | .lane => some (48 + p.inst)
  | .nlink => if p.inst = 0 ∧ 0x8000 ≤ p.off ∧ p.off < 0x8100 then none else some (104 + p.inst)
  | .pipe => some (112 + p.inst)
  | .svc => some (154 + p.inst)
  | .dram => if p.inst = 0 ∧ 0x8000 ≤ p.off ∧ p.off < 0x8100 then none else some (158 + p.inst)
  | _ => none

/-- The vendor windows (R622). -/
def RegPlace.vendorWin (p : RegPlace) : Bool :=
  match p.blk with
  | .pipe => true
  | .tm => decide (0xF00 ≤ p.off)
  | .lane => decide (0xF00 ≤ p.off)
  | _ => decide (0xF000 ≤ p.off)

/-- The key windows (R10, R107, R151). -/
def RegPlace.keyWin (p : RegPlace) : Bool :=
  match p.blk with
  | .sec => decide (0x200 ≤ p.off ∧ p.off < 0x300)
  | .port => decide (0x500 ≤ p.off ∧ p.off < 0x600)
  | _ => false

/-- One field at an address: its access code, whether it carries -V, and the field. -/
structure FldAt where
  acc : Acc
  vend : Bool
  fld : Fld

/-- A register at an address: its fields, whether it is a 64-bit counter, and whether the address names its high word. -/
structure RegHit where
  fields : List FldAt
  c64 : Bool
  high : Bool

/-- The indexes of a register family at an offset, and whether it is the high word of a 64-bit counter. -/
def RegRow.at (r : RegRow) (o : Nat) : Option (Nat × Nat × Bool) :=
  if o < r.off then none
  else
    let d := o - r.off
    let a := if r.s1 = 0 then 0 else d / r.s1
    let d1 := if r.s1 = 0 then d else d % r.s1
    let c := if r.s2 = 0 then 0 else d1 / r.s2
    let d2 := if r.s2 = 0 then d1 else d1 % r.s2
    if a < r.n1 ∧ c < r.n2 ∧ (d2 = 0 ∨ (r.c64 ∧ d2 = 4)) then some (a, c, decide (d2 = 4)) else none

/-- The fields of one member of a register family; a table port's fields are numbered by the base of their instance. -/
def RegRow.fieldsAt (r : RegRow) (n a c : Nat) : List FldAt :=
  r.fields.flatMap fun f => (List.range f.rep).map fun j => ⟨f.acc, f.vend, f.fld n a c j⟩

/-- Ranges of a family that are RO where the rest is DL: the ROM's regions 0-7 (R452) and the reserves of owners 0-15 (R545). -/
def RegPlace.romRange (p : RegPlace) : Bool :=
  match p.blk with
  | .svc => decide (0x200 ≤ p.off ∧ p.off < 0x280)
  | .pool => decide (0x40 ≤ p.off ∧ p.off < 0x70)
  | _ => false

/-- The register at a place, none where the manual lays out none. -/
def RegPlace.hit (p : RegPlace) : Option RegHit :=
  let tp := decide (p.blk = .parse ∨ p.blk = .tm) && decide (0x800 ≤ p.off ∧ p.off < 0x900)
  (layout p.blk p.inst).findSome? fun r =>
    match r.at p.off with
    | some (a, c, h) =>
      let l := r.fieldsAt (if tp then p.base else p.inst) a c
      some ⟨if p.romRange then l.map (fun f => { f with acc := .ro }) else l, r.c64, h⟩
    | none => none

/-- The word that fields of one register give together. -/
def wordOfFields (l : List (Fld × Nat)) : Nat := l.foldl (fun w e => w ||| (e.2 % 2 ^ e.1.width) * 2 ^ e.1.lsb) 0

/-- The bits of a word that belong to a field. -/
def Fld.of (f : Fld) (w : Nat) : Nat := bitsOf w f.lsb f.width

/-- Bits of a field that a mask covers, and whether it covers any. -/
def Fld.covered (f : Fld) (mask : Nat) : Bool := decide (f.of mask ≠ 0)

end Sys2Proof.Machine
end

