-- ==== Sys2Proof/Machine/Image.lean ====
section
/-! DEFINITION. The Deck image: header, section table, records and their checks, delegates and the signature (R74-R90, R114, R115,
R194-R196, R202, R207, R342, R470, R495). -/
namespace Sys2Proof.Machine

/-! ## Header and section table (R74, R76-R79) -/

/-- The header fields. -/
def imgLen (d : List Byte) : Nat := beAt d 0x08 4
def imgVersion (d : List Byte) : Nat := beAt d 0x0C 1
def imgSerial (d : List Byte) : Nat := beAt d 0x10 4
def imgEnc (d : List Byte) : Bool := bitOf (beAt d 0x0D 1) 0
def imgEncOff (d : List Byte) : Nat := beAt d 0x70 4
def imgEncLen (d : List Byte) : Nat := beAt d 0x74 4

/-- A valid header (R74, R50). -/
def headerOk (d : List Byte) : Bool :=
  decide (d.take 4 = ascii "AQDK") && decide (beAt d 4 2 = 1) && decide (beAt d 6 2 = 128) &&
    decide (beAt d 0x78 4 = crc32c (d.take 0x78)) && decide (imgVersion d ≤ 128) &&
    decide (244 ≤ imgLen d ∧ imgLen d ≤ 24 * 1048576)

/-- A section-table entry (R77). -/
structure Sect where
  typ : Nat
  enc : Bool
  off : Nat
  len : Nat
  count : Nat
  deriving DecidableEq, Repr

def sectAt (d : List Byte) (k : Nat) : Sect :=
  let o := 0x80 + 16 * k
  ⟨beAt d o 1, bitOf (beAt d (o + 1) 1) 0, beAt d (o + 4) 4, beAt d (o + 8) 4, beAt d (o + 12) 4⟩
def sects (d : List Byte) : List Sect := (List.range (beAt d 0x0E 2)).map (sectAt d)
/-- The end of a section. -/
def Sect.stop (x : Sect) : Nat := x.off + x.len
/-- The sections of a type, in table order. -/
def sectsOf (d : List Byte) (t : Nat) : List Sect := (sects d).filter fun x => decide (x.typ = t)
/-- The SIGNATURE section. -/
def sigSect (d : List Byte) : Sect := ((sects d).getLast?).getD ⟨0, false, 0, 0, 0⟩

/-- `n` bytes from `o` are 0. -/
def zeroAt (d : List Byte) (o n : Nat) : Bool := (slice d o n).all fun b => decide (b = 0)

/-- The placement of a section after `pos`, the end of the part before it; `tag`: a tag lies there first. -/
def placeOk (x : Sect) (pos : Nat) (tag : Bool) : Bool :=
  if tag then decide (x.off = (pos + 31) / 16 * 16) else decide (pos ≤ x.off ∧ x.off < pos + 16)
/-- The placements of a list of sections; `prev` is the section before, none for the table. -/
def placesOk : Option Sect → Nat → List Sect → Bool
  | _, _, [] => true
  | prev, pos, x :: t =>
    let tag := match prev with
      | some y => y.enc && !x.enc
      | none => false
    let rising := match prev with
      | some y => decide (y.off < x.off)
      | none => true
    placeOk x pos tag && rising && placesOk (some x) x.stop t
/-- The gaps that an image shows in the clear hold 0; `plain` judges those between encrypted sections. -/
def gapsOk (d : List Byte) (plain : Bool) : Option Sect → Nat → List Sect → Bool
  | _, _, [] => true
  | prev, pos, x :: t =>
    let inside := match prev with
      | some y => y.enc && x.enc
      | none => false
    let p := match prev with
      | some y => if y.enc && !x.enc then pos + 16 else pos
      | none => pos
    (decide (inside ≠ plain) || zeroAt d p (x.off - p)) && gapsOk d plain (some x) x.stop t

/-- The classes of R79: what each type's ENC bit is; none for a reserved type. -/
def sectEnc (t : Nat) : Option Bool :=
  if 1 ≤ t ∧ t ≤ 7 then some true else if t = 8 ∨ t = 9 ∨ t = 15 then some false else none

/-- The encrypted run of the table is contiguous, and is what the header says (R78). -/
def encRunOk (d : List Byte) : Bool :=
  let l := sects d
  let run := (l.dropWhile fun x => !x.enc).takeWhile (·.enc)
  decide (run.length = (l.filter (·.enc)).length) && decide (imgEnc d = !run.isEmpty) &&
    (match run.head?, run.getLast? with
     | some a, some b => decide (imgEncOff d = a.off) && decide (imgEncOff d + imgEncLen d = b.stop)
     | _, _ => true)

/-- The section table is well formed (R77, R78), as far as the clear part of an image shows. -/
def tableOk (d : List Byte) : Bool :=
  let l := sects d
  let n := l.length
  decide (1 ≤ n ∧ n ≤ 64) && decide (0x80 + 16 * n ≤ imgLen d ∧ imgLen d ≤ d.length) &&
    (l.all fun x => decide (x.off % 16 = 0) && decide (x.stop ≤ imgLen d) && decide (sectEnc x.typ = some x.enc)) &&
    placesOk none (0x80 + 16 * n) l && gapsOk d false none (0x80 + 16 * n) l && encRunOk d &&
    decide ((sectsOf d 15).length = 1) && decide ((sigSect d).typ = 15 ∧ (sigSect d).len = 100 ∧ (sigSect d).stop = imgLen d)

/-- The image with its encrypted region in the clear. -/
def withPlain (d plain : List Byte) : List Byte := d.take (imgEncOff d) ++ plain ++ d.drop (imgEncOff d + imgEncLen d)
/-- The data of a section. -/
def Sect.data (x : Sect) (d : List Byte) : List Byte := slice d x.off x.len

/-! ## Records (R78, R84-R90) -/

/-- Splits a section into records of the sizes that `size` reads from their fronts; none where they do not fill it exactly. -/
def splitRecs (size : List Byte → Nat) : Nat → List Byte → Option (List (List Byte))
  | _, [] => some []
  | 0, _ :: _ => none
  | n + 1, l =>
    if size l = 0 ∨ l.length < size l then none else (splitRecs size n (l.drop (size l))).map (l.take (size l) :: ·)

/-- ROW_BYTES of a TABLE_ID (R85), 0 for a reserved one. -/
def tableRowBytes (t : Nat) : Nat :=
  if t = 1 ∨ t = 0x21 ∨ t = 0x30 then 16 else if t = 2 then 48 else if 0x10 ≤ t ∧ t ≤ 0x13 then 96
  else if t = 0x20 ∨ t = 0x32 ∨ t = 0x50 then 32 else if t = 0x31 then 8 else if t = 0x40 then 128 else if t = 0x60 then 64 else 0

/-- The record sizes of each section type. -/
def recSize (typ : Nat) (l : List Byte) : Nat :=
  match typ with
  | 1 => 12
  | 3 => 4 + [0, 16, 16, 72, 8].getD (beAt l 0 1) 0
  | 4 => 24 + 8 * beAt l 2 2
  | 5 => 8 + (beAt l 4 2 + 3) / 4 * 4
  | 6 => 24 + beAt l 4 4
  | 7 => 8 + 4 * beAt l 4 1 + 4 * beAt l 6 2
  | 8 => 4 + beAt l 2 2
  | 9 => 20 + beAt l 16 2
  | 15 => 100
  | _ => 0

/-- The records of a section; a TABLE section's are its rows, of 8 bytes and ROW_BYTES, after its header. -/
def recsOf (typ : Nat) (l : List Byte) : Option (List (List Byte)) :=
  if typ = 2 then
    if l.length < 8 ∨ tableRowBytes (beAt l 0 1) = 0 ∨ beAt l 2 2 ≠ tableRowBytes (beAt l 0 1) then none
    else splitRecs (fun _ => 8 + tableRowBytes (beAt l 0 1)) l.length (l.drop 8)
  else splitRecs (recSize typ) l.length l

/-- The records of every section of a type, in order. -/
def recsIn (d : List Byte) (typ : Nat) : List (List Byte) := (sectsOf d typ).flatMap fun x => (recsOf typ (x.data d)).getD []

/-- A section's records fill it and number COUNT; PROGRAM, MICROPATCH and SIGNATURE sections hold one. -/
def countOk (d : List Byte) (x : Sect) : Bool :=
  match recsOf x.typ (x.data d) with
  | some l => decide (l.length = x.count) && (decide (x.typ ≠ 6 ∧ x.typ ≠ 7) || decide (l.length = 1))
  | none => false

/-- A node, arm, pattern slot or outcome record holds no reserved code (R194-R196, R202, R207). -/
def nodeOk (r : Nat) : Bool :=
  decide (bitsOf r 85 7 ≤ 64 ∧ bitsOf r 76 9 ≤ 383 ∧ bitsOf r 67 6 ≤ 32 ∧ bitsOf r 57 9 ≤ 384 ∧ bitsOf r 113 3 ≤ 4) &&
    decide (bitsOf r 92 12 + bitsOf r 85 7 ≤ 4096) &&
    decide (bitsOf r 48 9 ≤ 383) && (!bitOf r 66 || decide (1 ≤ bitsOf r 40 5 ∧ bitsOf r 40 5 ≤ 16))
def patOk (w : Nat) : Bool :=
  let off := signedOf 10 (bitsOf w 45 10)
  let mode := bitsOf w 61 2
  decide (1 ≤ bitsOf w 39 6 ∧ bitsOf w 39 6 ≤ 32) &&
    (if mode = 2 then decide (0 ≤ off ∧ off ≤ 383) && decide (bitsOf w 30 9 ≤ 383)
     else decide (mode ≠ 3) && decide (-384 ≤ off ∧ off ≤ 383))
def graphOk (r : List Byte) : Bool :=
  let i := beAt r 2 2
  match beAt r 0 1 with
  | 1 => decide (i < 256) && nodeOk (beAt r 4 16)
  | 2 => decide (i < 4096)
  | 3 => decide (i < 64) && patOk (beAt r 4 8)
  | 4 => decide (1 ≤ i ∧ i ≤ 5) && decide (bitsOf (beAt r 4 8) 62 2 ≠ 3)
  | _ => false
/-- The row that a PARSEGRAPH record stores, its reserved bits at 0; an outcome row carries a mark in bit 64 that it was written. -/
def graphRow (r : List Byte) : Nat :=
  match beAt r 0 1 with
  | 1 => let v := beAt r 4 16; v - v % 2 ^ 34
  | 2 => let v := beAt r 4 16; v - v % 2 ^ 55
  | 3 => let v := beAt r 4 72; v - bitsOf v 512 30 * 2 ^ 512
  | _ => let v := beAt r 4 8; v - v % 2 ^ 54 + 2 ^ 64

/-- A GATELIST record holds no value out of range (R86, R342). -/
def gateOk (r : List Byte) : Bool :=
  let n := beAt r 2 2
  let cyc := beAt r 14 4
  decide (beAt r 0 1 < 56) && decide (1 ≤ n ∧ n ≤ 1024) && decide (beAt r 10 4 ≤ 999999999) &&
    decide (1000 ≤ cyc ∧ cyc ≤ 4000000000 ∧ cyc % 8 = 0) &&
    (List.range n).all fun k => decide (1 ≤ beAt r (28 + 8 * k) 4 ∧ beAt r (28 + 8 * k) 4 ≤ 500000000)
/-- Entry `k` of a GATELIST record, its reserved bits at 0. -/
def gateEntry (r : List Byte) (k : Nat) : Nat := beAt r (24 + 8 * k) 2 * 2 ^ 48 + beAt r (28 + 8 * k) 4

/-- The shortest and the longest LENGTH of a service's parameter (ch. 21), none for a reserved code. -/
def paramLen (svc p : Nat) : Option (Nat × Nat) :=
  if svc = 0 ∨ 11 < svc then none
  else if p = 0 then some (1, 1)
  else if 0x100 ≤ p ∧ p ≤ 0x107 ∧ svc ∈ [2, 5, 6, 7, 8, 10] then
    let n := [1, 2, 4, 1, 4, 4, 2, 1].getD (p - 0x100) 0
    some (n, n)
  else
    let one (n : Nat) : Option (Nat × Nat) := some (n, n)
    match svc with
    | 1 => if 1 ≤ p ∧ p ≤ 7 then one ([0, 4, 16, 1, 1, 2, 2, 16].getD p 0) else none
    | 2 => if 0x10 ≤ p ∧ p < 0x14 then one 16 else if 0x20 ≤ p ∧ p < 0x28 then one 4 else if p = 0x30 then one 2 else none
    | 3 => if 0x10 ≤ p ∧ p < 0x70 then one 52 else none
    | 4 => if p = 1 then some (1, 64) else if p = 2 then some (1, 128) else if p = 3 then one 6 else if p = 4 then one 2
           else if p = 5 then one 1 else none
    | 5 => if p = 1 then one 4 else if p = 2 then one 8 else if p = 3 then one 4 else if 0x10 ≤ p ∧ p ≤ 0x10F then one 40 else none
    | 6 => if 0x10 ≤ p ∧ p < 0x20 then one 16 else none
    | 7 => if p = 1 then some (5, 32) else if p = 2 then some (2, 64) else if 0x10 ≤ p ∧ p < 0x14 then one 72 else none
    | 8 => if p = 1 then one 1 else if p = 2 then one 2 else none
    | 9 => if p = 1 ∨ p = 2 then one 2 else none
    | _ => none

/-- A SERVICE record holds no reserved code, and its LENGTH fits (R86, R495).  DESIGN CHOICE: the codes 0x0100 to 0x0107 of the DHCP
service are both shared parameters (R497) and positions (R504); LENGTH tells them apart. -/
def serviceOk (r : List Byte) : Bool :=
  (decide (beAt r 0 1 = 5 ∧ 0x100 ≤ beAt r 2 2 ∧ beAt r 2 2 ≤ 0x107 ∧ beAt r 4 2 = 40)) || match paramLen (beAt r 0 1) (beAt r 2 2) with
  | some (a, b) => decide (a ≤ beAt r 4 2 ∧ beAt r 4 2 ≤ b)
  | none => false

/-- A PROGRAM section is well formed (R87): it names owner threads of a core, and its span lies in service SRAM or in DRAM. -/
def programOk (dramTop : Nat) (r : List Byte) : Bool :=
  let a := beAt r 8 8
  let n := beAt r 4 4
  let e := beAt r 16 8
  decide (beAt r 0 1 < 4) && decide (beAt r 2 2 % 16 = 0) && decide (a + n ≤ 0x800000 ∨ (0x1000000000 ≤ a ∧ a + n ≤ dramTop)) &&
    decide (a ≤ e ∧ e < a + n)

/-- A MICROPATCH section passes the checks of R88 and R470. -/
def patchOk (r : List Byte) : Bool :=
  let m := beAt r 4 1
  let w := beAt r 6 2
  let rom (k : Nat) : Nat := beAt r (8 + 4 * k) 2
  decide (beAt r 0 4 = Config.servicesRomVersion.toNat) && decide (m ≤ 32 ∧ w ≤ 1024) && decide (m = 0 ∨ w ≠ 0) &&
    ((List.range m).all fun k => decide (rom k < 12288 ∧ beAt r (10 + 4 * k) 2 < w)) &&
    decide (((List.range m).map rom).eraseDups.length = m) &&
    (List.range w).all fun k =>
      let x := beAt r (8 + 4 * m + 4 * k) 4
      decide (x < 2 ^ 24 ∧ 1 ≤ x / 2 ^ 20 ∧ x / 2 ^ 20 ≤ 7)

/-- DELEGATE records have the lengths of R89 and R114. -/
def delegateOk (r : List Byte) : Bool :=
  (decide (beAt r 0 1 = 0) && decide (beAt r 2 2 = 97)) || (decide (beAt r 0 1 = 1) && decide (beAt r 2 2 = 212))
/-- Only this device's own CLAIM record is read (R89). -/
def claimOk (r : List Byte) : Bool := decide (beAt r 0 16 ≠ deviceId) || decide (beAt r 16 2 = 208)

/-- Every DELEGATE section holds exactly one owner root key, and the image at most 16 delegates (R89, R115). -/
def delegatesOk (d : List Byte) : Bool :=
  ((sectsOf d 8).all fun x =>
    decide ((((recsOf 8 (x.data d)).getD []).filter fun r => decide (beAt r 0 1 = 0)).length = 1)) &&
    decide (((recsIn d 8).filter fun r => decide (beAt r 0 1 = 1)).length ≤ 16)

/-- No thread is named by two PROGRAM sections (R87). -/
def threadsOk (d : List Byte) : Bool :=
  let l := (recsIn d 6).flatMap fun r => ((List.range 16).filter fun t => (beAt r 2 2).testBit t).map fun t => 16 * beAt r 0 1 + t
  decide (l.eraseDups.length = l.length)

/-! ## Trust (R81, R82, R90, R112-R116) -/

/-- The owner root key of the image: its first KIND 0x00 record. -/
def rootOf (d : List Byte) : Option (List Byte) :=
  ((recsIn d 8).find? fun r => decide (beAt r 0 1 = 0)).map fun r => slice r 4 97
/-- The delegate certificates, by position. -/
def certsOf (d : List Byte) : List (List Byte) :=
  ((recsIn d 8).filter fun r => decide (beAt r 0 1 = 1)).map fun r => slice r 4 212

/-- A certificate at position `pos`, where it is accepted after those in `acc` (R115). -/
def acceptOne (root : List Byte) (acc : List Delegate) (pos : Nat) (b : List Byte) : Option Delegate :=
  let iss := beAt b 1 1
  let use := beAt b 2 1
  let lo := beAt b 3 1
  let hi := beAt b 4 1
  -- the issuer's key, usage, range and depth
  let by_ : Option (List Byte × Nat × Nat × Nat × Nat) :=
    if iss = 0xFF then some (root, 15, 0, 128, 0)
    else match acc.find? fun x => decide (x.pos = iss) && decide (iss < pos) && bitOf x.usage 3 with
      | some x => some (x.key, x.usage, x.verMin, x.verMax, x.depth)
      | none => none
  match by_ with
  | none => none
  | some (key, u, a, z, depth) =>
    if beAt b 0 1 = 1 ∧ use < 16 ∧ zeroAt b 5 3 ∧ zeroAt b 0x71 3 ∧ use &&& u = use ∧ a ≤ lo ∧ lo ≤ hi ∧ hi ≤ z ∧ depth < 4 ∧
        ecVerify key (sha384 (b.take 0x74)) (slice b 0x74 48) (slice b 0xA4 48) then
      some { pos := pos, usage := use, verMin := lo, verMax := hi, notAfter := beAt b 0x0C 4, depth := depth + 1, key := slice b 0x10 97 }
    else none
/-- The accepted delegates of an image. -/
def acceptAll (root : List Byte) (certs : List (List Byte)) : List Delegate :=
  ((List.range certs.length).zip certs).foldl (fun acc e => match acceptOne root acc e.1 e.2 with
    | some x => acc ++ [x]
    | none => acc) []

/-- The key that a signer number names, the root or an accepted delegate with usage bit `use`. -/
def signerKey (root : Option (List Byte)) (dels : List Delegate) (signer use : Nat) : Option (List Byte × Nat × Nat × Nat) :=
  if signer = 0xFF then root.map fun k => (k, 0, 128, 0)
  else (dels.find? fun x => decide (x.pos = signer) && bitOf x.usage use).map fun x => (x.key, x.verMin, x.verMax, x.notAfter)

/-- The image's signature passes under root `root` (R81, R90, R115). -/
def signatureOk (root : List Byte) (d : List Byte) : Bool :=
  let g := (sigSect d).data d
  match signerKey (some root) (acceptAll root (certsOf d)) (beAt g 0 1) 0 with
  | some (key, lo, hi, _) =>
    decide (beAt g 1 1 = 1) && decide (lo ≤ imgVersion d ∧ imgVersion d ≤ hi) &&
      ecVerify key (sha384 (d.take (sigSect d).off)) (slice g 4 48) (slice g 52 48)
  | none => false

/-! ## The content key (R80, R109-R111) -/

/-- The encrypted region in the clear under a fleet Deck key, none where the key does not unwrap or a tag fails. -/
def decryptRegion (fleet d : List Byte) : Option (List Byte) :=
  if !imgEnc d then some []
  else
    match gcmOpen fleet (slice d 0x28 12) (d.take 0x28) (slice d 0x34 32) (slice d 0x54 16) with
    | none => none
    | some key =>
      gcmOpen key (slice d 0x64 12) (d.take (0x80 + 16 * beAt d 0x0E 2)) (slice d (imgEncOff d) (imgEncLen d))
        (slice d (imgEncOff d + imgEncLen d) 16)

/-- This device's CLAIM record in the clear sections: its BODY. -/
def ownClaim (d : List Byte) : Option (List Byte) :=
  ((recsIn d 9).find? fun r => decide (beAt r 0 16 = deviceId)).map fun r => slice r 20 208
/-- The fleet Deck key that a claim BODY wraps (R110). -/
def claimKey (b : List Byte) : Option (List Byte) :=
  match ecdh identityKey (slice b 0x30 97) with
  | some z => gcmOpen (hkdf384 (beBytes 16 deviceId) z (ascii "AQ claim v1" ++ b.take 48) 32) (slice b 0x94 12)
      (beBytes 16 deviceId ++ b.take 48) (slice b 0xA0 32) (slice b 0xC0 16)
  | none => none

end Sys2Proof.Machine
end

