-- ==== Sys2Proof/Machine/Power.lean ====
section
/-! DEFINITION. Power domains: requests and their rules, the quiesce protocol, and the switches (R556-R564, R527). -/
namespace Sys2Proof.Machine

/-- Sets `DOM_STATE` of a domain: 0 OFF, 1 ON, 2 QUIESCING, 3 SWITCHING. -/
def State.setDom (s : State) (d v : Nat) : State := s.set (R.POWER.DOM_STATE_k.STATE (d / 16) (d % 16)) v

/-- Every one of these domains is OFF, or ON. -/
def State.allOff (s : State) (l : List Nat) : Bool := l.all fun d => decide (s.domState d = 0)
def State.allOn (s : State) (l : List Nat) : Bool := l.all s.domOn

/-- The lanes of an Ethernet port: four for the lead of a gang. -/
def State.lanesOf (s : State) (p : Nat) : List Nat :=
  if p % 4 = 0 ∧ s.gang (p / 4) then (List.range 4).map (48 + p + ·) else [48 + p]

/-- The pipeline domains of pipeline `n`. -/
def pipeDoms (n : Nat) : List Nat := [112 + n, 116 + n]

/-- The ports and controllers of pipeline `n`. -/
def pipeUsers (n : Nat) : List Nat := (List.range 12).map (12 * n + ·) ++ [104 + 2 * n, 104 + 2 * n + 1]

/-- The bytes of package `c` under order 2 (R526). -/
def State.packageSpan (s : State) (c : Nat) : Nat × Nat :=
  let n := (s.dramEnd - dramBase) / 8
  (dramBase + c * n, dramBase + (c + 1) * n)

/-- Controller `c` may leave service (R527). -/
def State.dramMayLeave (s : State) (c : Nat) : Bool :=
  decide (s.fld R.DRAM.MAP.ORDER = 2) && decide (s.ownerArea ≤ (s.packageSpan c).1)

/-- Why a switch-off request of domain `d` is refused (R559), none where it is not. -/
def State.offRule (s : State) (d : Nat) : Option Nat :=
  if 48 ≤ d ∧ d < 96 then
    let p := d - 48
    if p % 4 ≠ 0 ∧ s.gang (p / 4) then
      (if s.domState (p / 4 * 4) = 0 ∧ ¬ s.domOn (48 + p / 4 * 4) then none else some 1)
    else if s.domState p = 0 then none else some 1
  else if 96 ≤ d ∧ d < 104 then (if s.domState (d + 8) = 0 then none else some 1)
  else if 112 ≤ d ∧ d < 120 then (if s.allOff (pipeUsers (d % 4)) then none else some 1)
  else if 120 ≤ d ∧ d < 137 then
    (if s.fld (R.BUF.BANK_STATE_k.STATE ((d - 120) / 8) ((d - 120) % 8)) ∈ [4, 5] then none else some 2)
  else if d = 143 then (if s.domState 144 = 0 then none else some 1)
  else if 154 ≤ d ∧ d < 158 then (if (List.range 4).any fun j => s.vendorUsed (16 * (d - 154) + j) then some 3 else none)
  else if 158 ≤ d then (if s.dramMayLeave (d - 158) then none else some 4)
  else none

/-- Why a switch-on request of domain `d` is refused (R559), none where it is not. -/
def State.onRule (s : State) (d : Nat) : Option Nat :=
  if d < 48 then (if s.allOn (s.lanesOf d ++ pipeDoms (d / 12)) then none else some 5)
  else if 104 ≤ d ∧ d < 112 then (if s.allOn ((d - 8) :: pipeDoms ((d - 104) / 2)) then none else some 5)
  else if d = 144 then (if s.domOn 143 then none else some 5)
  else none

/-- A refused request. -/
def State.pwrRefused (s : State) (d why : Nat) : State :=
  ((s.set R.POWER.REQ_RESULT.DOMAIN d).set R.POWER.REQ_RESULT.REASON why).bump R.POWER.REFUSALS.COUNT

/-! ## What a switch does (R558) -/

/-- The registers in [lo, hi) take the values that the Deal applied; counters and status return to their reset values. -/
def State.restoreRegs (s : State) (lo hi : Nat) : State :=
  let here (k : Nat) : Bool := decide (32 * lo ≤ k ∧ k < 32 * hi)
  { s with regs := (s.dealt.filter fun e => here e.1).foldl (fun t e => t.ins e.1 e.2) (s.regs.drop here) }

/-- Table rows of a table, at the indexes of a lost block, read as rows that no record wrote. -/
def State.loseRows (s : State) (t : Nat) (p : Nat → Bool) : State :=
  { s with tabs := { s.tabs with rows := s.tabs.rows.drop fun k => decide (k / 2 ^ 32 = t) && p (k % 2 ^ 32) } }

/-- A domain loses every register and memory that it holds. -/
def State.loseDomain (s : State) (d : Nat) : State :=
  if d < 48 then
    let s1 := ((s.restoreRegs (0x10800000 + 0x10000 * d) (0x10810000 + 0x10000 * d)).setRx d none).setSecy d SecY.init
    (((s1.setPortQuiesce d 0).disarm (.portDrain d)).disarm (.holdUp d)).disarm (.holdDown d)
  else if d < 104 then s.restoreRegs (0x10600000 + 0x1000 * (d - 48)) (0x10601000 + 0x1000 * (d - 48))
  else if d < 112 then
    let n := d - 104
    (s.setLink n { Link.init with spill := (s.link_ n).spill }).restoreRegs (0x10500000 + 0x10000 * n) (0x10508000 + 0x10000 * n)
  else if d < 116 then { s with pipe := { s.pipe with wrr := s.pipe.wrr.del (d - 112) } }
  else if d < 120 then s
  else if d < 137 then (if s.fld R.BUF.SPARE.BANK = d - 120 then s.set R.BUF.SPARE.BANK 31 else s)
  else if d < 141 then
    (s.modSlice (d - 137) fun x => { Slice.init with nAt := x.nAt, calmAt := x.calmAt, free := x.free }).set (R.FLOW.SLICE_s_POISON.COUNT (d - 137)) 0
  else if d < 143 then { s with flow := { s.flow with cache := s.flow.cache.drop fun k => decide (k % 8 / 4 = d - 141) } }
  else if d < 145 then (s.loseRows 2 fun i => decide (i / 32768 = d - 143)).showLpm
  else if d < 147 then
    s.each (List.range 4) fun s k => s.loseRows (0x10 + k) fun i => decide ((s.ruleBase k + i) / 12288 = d - 145)
  else if d = 147 then ({ s.loseRows 1 fun _ => true with pipe := { s.pipe with learn := [] } }).showMac
  else if d = 148 then s.loseRows 0x21 fun _ => true
  else if d = 149 then { s with pipe := { s.pipe with xpol := [] } }
  else if d < 154 then s
  else if d < 158 then
    let c := d - 154
    (s.each (List.range 16) fun s j => s.modThr (16 * c + j) fun h => { Thread.init with entry := h.entry }).restoreRegs
      (0x10300000 + 0x10000 * c) (0x10310000 + 0x10000 * c)
  else
    let c := d - 158
    (s.clearArea (s.packageSpan c).1 (s.packageSpan c).2).restoreRegs (0x10400000 + 0x10000 * c) (0x10408000 + 0x10000 * c)

/-- A controller that has been initialised serves requests, at the band in use (R528, R544); no band switch waits on it. -/
def State.dramReadyOn (s : State) (c : Nat) : State :=
  let s1 := { s.disarm (.bandRetry c) with dram := { s.dram with want := s.dram.want.put 0 c 0 } }
  ((s1.setB (R.DRAM.STATUS.READY c) true).setB (R.DRAM.STATUS.PHY_OK c) true).set (R.DRAM.STATUS.BAND c) s.dram.band

/-- Intake of controller `c` stops: its enable reads 0, and it serves no requests (R560). -/
def State.dramClose (s : State) (c : Nat) : State := (s.setB (R.DRAM.CTRL.EN c) false).setB (R.DRAM.STATUS.READY c) false

/-- The link of an Ethernet port that has come on is down until its receiver has found the partner's signal (R156). -/
def State.portStart (s : State) (p : Nat) : State :=
  if !s.portExists p || decide (s.eff (R.LANE.CTRL.MODE p) = 0) then s.showDown p 2
  else
    let s1 := s.setFault p (if s.fault p = 0 then 3 else s.fault p)
    s1.showDown p (if s1.on (R.PORT.CTRL.EN p) then s1.fault p else 1)

/-- The start-up of a block whose domain has come on (R558, R561). -/
def State.startDomain (s : State) (d : Nat) : State :=
  if d < 48 then s.portStart d
  else if 104 ≤ d ∧ d < 112 then
    let n := d - 104
    let s1 := s.setB (R.NLINK.STATE.LONG_WINDOW n) (!(s.link_ n).spill.isEmpty)
    if s1.on (R.NLINK.CTRL.EN n) then s1.nlinkOn n else s1
  else if 120 ≤ d ∧ d < 137 then
    (if s.fld (R.BUF.BANK_STATE_k.STATE ((d - 120) / 8) ((d - 120) % 8)) = 4 ∧ s.fld R.BUF.SPARE.BANK = 31 then
      s.set R.BUF.SPARE.BANK (d - 120) else s)
  else if 137 ≤ d ∧ d < 141 then
    let i := d - 137
    if (s.dealtFld R.FLOW.CTRL.SLICE_EN).testBit i then
      ((s.setBit R.FLOW.CTRL.SLICE_EN i true).setBit R.FLOW.STATUS.SLICE_QUIESCED i true).sliceEnable i
    else s
  else if 141 ≤ d ∧ d < 143 then
    let h := d - 141
    if (s.dealtFld R.FLOW.CTRL.CACHE_EN).testBit h then
      (s.setBit R.FLOW.CTRL.CACHE_EN h true).setBit R.FLOW.STATUS.CACHE_QUIESCED h false
    else s
  else if 158 ≤ d then s.dramReadyOn (d - 158)
  else s

/-! ## The quiesce protocol (R560) -/

/-- The drain timeout of a domain, in periods. -/
def State.drainTime (s : State) (d : Nat) : Nat :=
  if d < 48 then usec (s.eff (R.PORT.DRAIN_TO.TIMEOUT d))
  else if 104 ≤ d ∧ d < 112 then 2 * s.ackTo (d - 104)
  else usec (s.eff R.POWER.QUIESCE.DRAIN_TO)

/-- The block has drain rules of its own. -/
def ownDrain (d : Nat) : Bool := decide (d < 48 ∨ (104 ≤ d ∧ d < 112) ∨ (137 ≤ d ∧ d < 143) ∨ 158 ≤ d)

/-- The remaining work of a block without its own rules is discarded whole: only the exception path holds frames that a discard
may take. -/
def State.discardWork (s : State) (d : Nat) : State :=
  if d = 149 then (s.purgeReady 56 dFlush fun _ => true).each (List.range 16) fun s q => s.purge 56 q dFlush fun _ => true else s

/-- Step 1: intake stops, and the block's own enable reads 0; step 2 begins. -/
def State.startQuiesce (s : State) (d : Nat) : State :=
  if 48 ≤ d ∧ d < 104 then ((s.setDom d 3).arm (.switch d) (s.freeNow % 501)).usedFree
  else
    let t := s.drainTime d
    let s1 := (((s.setDom d 2).arm (.drain d) t).arm (.quiesceAck d) (t + msec 1))
    if d < 48 then s1.portDisable d
    else if 104 ≤ d ∧ d < 112 then s1.nlinkOff (d - 104)
    else if 137 ≤ d ∧ d < 141 then s1.flowCtrl (s1.flowCtrlNow &&& (2 ^ 32 - 1 - 2 ^ (8 + (d - 137))))
    else if 141 ≤ d ∧ d < 143 then s1.flowCtrl (s1.flowCtrlNow &&& (2 ^ 32 - 1 - 2 ^ (12 + (d - 141))))
    else if 158 ≤ d then s1.dramClose (d - 158)
    else if s1.on R.POWER.QUIESCE.DRAIN_MODE then s1.discardWork d
    else s1

/-- Nothing is left in flight in the block. -/
def State.domIdle (s : State) (d : Nat) : Bool :=
  let egressIdle (p : Nat) : Bool := (s.eport p).ready.isEmpty && (s.eport p).wire.isNone
  let empty (p : Nat) : Bool := egressIdle p && (List.range 16).all fun q => (s.queue p q).isEmpty
  if d < 48 then decide (s.portQuiesce d = 0) && (s.rx d).isNone && empty d
  else if 104 ≤ d ∧ d < 112 then decide (s.linkState (d - 104) = 0) && empty (48 + (d - 104))
  else if 112 ≤ d ∧ d < 116 then
    let n := d - 112
    (List.range 60).all (fun i => decide ((if i < 56 then pipeOf i else i - 56) ≠ n) || (s.fifo i).isEmpty) && (s.stage n).isEmpty &&
      s.pipe.held.all fun e => match s.frame e.1 with
        | some f => decide (pipeOf f.src ≠ n)
        | none => true
  else if 116 ≤ d ∧ d < 120 then
    ((List.range 12).map (12 * (d - 116) + ·) ++ [48 + 2 * (d - 116), 49 + 2 * (d - 116)]).all egressIdle
  else if 137 ≤ d ∧ d < 141 then s.bit R.FLOW.STATUS.SLICE_QUIESCED (d - 137)
  else if 141 ≤ d ∧ d < 143 then s.bit R.FLOW.STATUS.CACHE_QUIESCED (d - 141)
  else if d = 149 then empty 56
  else true

/-- What a block does as its last work: a service core abandons partial messages, stops its threads and gives up their buffers. -/
def State.lastWork (s : State) (d : Nat) : State :=
  if d < 48 then s.portQuiesced d
  else if 104 ≤ d ∧ d < 112 then s.nlinkOffDone (d - 104)
  else if 137 ≤ d ∧ d < 141 then s.sliceQuiesce (d - 137)
  else if 154 ≤ d ∧ d < 158 then
    s.each ((List.range 16).map (16 * (d - 154) + ·)) fun s t =>
      let s1 := ((s.abandonParts t).each (s.reading t) State.abandonRead).stop t
      let s2 := { s1 with pools := { s1.pools with waiting := s1.pools.waiting.filter fun w => decide (w.thread ≠ t) } }
      if vendorThr t then s2 else s2.reclaim fun _ o => decide (o = poolOwner t)
  else s

/-- A quiesce that a switch-on request has called off ends with the block enabled again (R562, as R160). -/
def State.reEnable (s : State) (d : Nat) : State :=
  if d < 48 then s.portEnable d
  else if 104 ≤ d ∧ d < 112 then s.nlinkOn (d - 104)
  else if 137 ≤ d ∧ d < 141 then s.flowCtrl (s.flowCtrlNow ||| 2 ^ (8 + (d - 137)))
  else if 141 ≤ d ∧ d < 143 then s.flowCtrl (s.flowCtrlNow ||| 2 ^ (12 + (d - 141)))
  else if 158 ≤ d then (s.setB (R.DRAM.CTRL.EN (d - 158)) true).dramReadyOn (d - 158)
  else s

/-- Steps 3 and 4: the acknowledgement of domain `d`, once it has drained. -/
def State.quiesceAckNow (s : State) (d : Nat) : State :=
  if s.domState d ≠ 2 then s
  else
    let s1 := s.lastWork d
    if !s1.domIdle d then s1
    else
      let s2 := (s1.disarm (.drain d)).disarm (.quiesceAck d)
      if d ∈ s2.dom.backOn then
        (({ s2 with dom := { s2.dom with backOn := s2.dom.backOn.filter fun e => decide (e ≠ d) } }).setDom d 1).reEnable d
      else ((s2.setDom d 3).arm (.switch d) (s2.freeNow % 501)).usedFree

/-- The switch of an acknowledged domain: it is off, within 10 us of the acknowledgement. -/
def State.switchOff (s : State) (d : Nat) : State :=
  let s1 := ((s.disarm (.switch d)).loseDomain d).bump R.POWER.SWITCHES.COUNT
  if d ∈ s1.dom.turningOn then s1 else s1.setDom d 0

/-- Every switch that is due. -/
def State.switchesDue (s : State) : State :=
  let ds := s.due.filterMap fun e => match e.1 with
    | .switch d => if e.2 ≤ s.now then some d else none
    | _ => none
  s.each ds State.switchOff

/-! ## Requests (R559, R562) -/

/-- A request to switch domain `d` off. -/
def State.askOff (s : State) (d : Nat) : State :=
  match s.domState d with
  | 1 => match s.offRule d with
    | some why => s.pwrRefused d why
    | none => s.startQuiesce d
  | 2 => { s with dom := { s.dom with backOn := s.dom.backOn.filter fun e => decide (e ≠ d) } }
  | 3 => if d ∈ s.dom.turningOn ∧ d ∉ s.dom.offNext then { s with dom := { s.dom with offNext := d :: s.dom.offNext } } else s
  | _ => s

/-- A request to switch domain `d` on. -/
def State.askOn (s : State) (d : Nat) : State :=
  let on (s : State) : State := match s.onRule d with
    | some why => s.pwrRefused d why
    | none => { s with dom := { s.dom with turningOn := d :: s.dom.turningOn } }.setDom d 3
  match s.domState d with
  | 0 => on s
  | 2 => if d ∈ s.dom.backOn then s else { s with dom := { s.dom with backOn := d :: s.dom.backOn } }
  | 3 => if d ∈ s.dom.turningOn then { s with dom := { s.dom with offNext := s.dom.offNext.filter fun e => decide (e ≠ d) } } else on s
  | _ => s

/-- The domains that a write of `PWR_ON_SET_k` or `PWR_ON_CLR_k` names. -/
def namedDoms (k v : Nat) : List Nat := (namedSources k v).filter fun d => decide (d < 166)

/-- A write of `PWR_ON_CLR_k` and of `PWR_ON_SET_k`. -/
def State.pwrClr (s : State) (k v : Nat) : State := s.each (namedDoms k v) State.askOff
def State.pwrSet (s : State) (k v : Nat) : State := s.each (namedDoms k v) State.askOn

/-- A domain that switches on becomes ON, and an off request that waits for it takes effect. -/
def State.domainOn (s : State) (d : Nat) : State :=
  if s.domState d = 3 ∧ d ∈ s.dom.turningOn ∧ ¬ s.running (.switch d) then
    let dom := { s.dom with turningOn := s.dom.turningOn.filter (fun e => decide (e ≠ d)),
                            offNext := s.dom.offNext.filter (fun e => decide (e ≠ d)) }
    let s1 := ((({ s with dom := dom }).setDom d 1).bump R.POWER.SWITCHES.COUNT).startDomain d
    if d ∈ s.dom.offNext then s1.askOff d else s1
  else s

/-- The drain timeout of a block without rules of its own. -/
def State.drainTimeout (s : State) (d : Nat) : State :=
  if s.domState d = 2 ∧ s.isDue (.drain d) ∧ ownDrain d = false then (s.disarm (.drain d)).discardWork d else s

/-- No acknowledgement has come 1 ms after the drain timeout. -/
def State.quiesceTimeout (s : State) (d : Nat) : State :=
  if s.isDue (.quiesceAck d) then (s.disarm (.quiesceAck d)).detect 44 else s

/-- A write of 0 to `DRAM[c].CTRL.EN` (R527): the domain stays on. -/
def State.dramDisable (s : State) (c : Nat) : State :=
  if !s.on (R.DRAM.CTRL.EN c) then s
  else if !s.dramMayLeave c then s.setB (R.DRAM.STICKY.OFF_REFUSED c) true
  else
    let s1 := s.dramClose c
    s1.clearArea (s1.packageSpan c).1 (s1.packageSpan c).2

/-- A write of 1 to `DRAM[c].CTRL.EN`: the controller is initialised and serves requests again. -/
def State.dramEnable (s : State) (c : Nat) : State :=
  if s.on (R.DRAM.CTRL.EN c) then s else (s.setB (R.DRAM.CTRL.EN c) true).dramReadyOn c

end Sys2Proof.Machine
end

