-- ==== Sys2Proof/Machine/Supply.lean ====
section
/-! DEFINITION. The supply monitor and the pins it watches: t0, SYS_RST_N, ride-through and brownout, power and junction samples,
and tamper (R45, R46, R61-R63, R130, R131, R425, R546-R555, R595). -/
namespace Sys2Proof.Machine

/-! ## Tamper (R130, R131) -/

/-- A service parameter that holds a pre-shared CAK of MKA (R502). -/
def isCak (k : Nat) : Bool := decide (k / 65536 = 3) && decide (0x10 ≤ k % 65536 ∧ k % 65536 < 0x70)

/-- The key store zeroises: MACsec and MKA keys, Nelyan keys and ephemerals, the fleet Deck key, the DRBG; and it refuses every
operation until power cycle. -/
def State.zeroise (s : State) : State :=
  let links : Tbl Link := (s.nel.links.map fun (e : Nat × Link) =>
    (e.1, { e.2 with txKey := [], rxKey := [], nextTx := none, eph := 0, offer := none })).filter fun e => decide (e.2 ≠ Link.init)
  let s1 := { s with
    mac := { s.mac with secy := [] }, nel := { s.nel with links := links },
    trust := { s.trust with fleetKey := none, attQ := [], unlocking := none, challenge := none },
    deal := { s.deal with params := s.deal.params.drop isCak } }
  ((s1.each (List.range 48) State.showSecy).setB R.SEC.STATUS.KEYSTORE_OK false).setB R.SEC.STATUS.TAMPER_LATCHED true

/-- A tamper: its grave fault, with the Fold that follows, the end of any unlock, and the zeroisation. -/
def State.tamper (s : State) (n : Nat) : State :=
  let s1 := s.level n true
  let s2 := if s1.col.foldReq then ({ s1 with col := { s1.col with foldReq := false } }).enterFold else s1
  (s2.relock).zeroise

/-- TAMPER_N has lain below 0.3 V for 1 us, or has risen again. -/
def State.tamperPin (s : State) (low : Bool) : State :=
  let s1 := ({ s with sup := { s.sup with tamperN := !low } }).setB R.SEC.TAMPER.LEVEL (!low)
  if low then (s1.setB R.SEC.TAMPER.SEEN true).tamper 28 else s1.level 28 false

/-- The supply monitor and the temperature monitor of the key store, tripped or not. -/
def State.tamperMonitors (s : State) (supply temp : Bool) : State :=
  let s1 := { s with sup := { s.sup with monSupply := supply, monTemp := temp } }
  let s2 := if supply then s1.setB R.SEC.TAMPER.MON_SUPPLY true else s1
  let s3 := if temp then s2.setB R.SEC.TAMPER.MON_TEMP true else s2
  if supply || temp then s3.tamper 29 else s3.level 29 false

/-! ## Reset (R61, R63, R595, R425) -/

/-- The registers that SYS_RST_N and a brownout leave: the FAULT and TIME blocks, and of the DEAL block RST_CAUSE and DEAL_COUNT. -/
def keepsReg (k : Nat) : Bool :=
  let a := k / 32
  decide (0x10050000 ≤ a ∧ a < 0x10060000) || decide (0x10070000 ≤ a ∧ a < 0x10080000) || decide (a = 0x10010028 ∨ a = 0x1001002C)

/-- What the always-on supply monitor, key store and pins keep showing. -/
def keptFields : List Fld :=
  [R.SEC.STATUS.TAMPER_LATCHED, R.SEC.TAMPER.MON_TEMP, R.SEC.TAMPER.MON_SUPPLY, R.SEC.TAMPER.LEVEL, R.SEC.TAMPER.SEEN,
   R.POWER.STATUS.ALERT, R.POWER.STATUS.HOLD_OK, R.POWER.STATUS.LOW_BAND, R.POWER.STATUS.ON_HOLD, R.POWER.VIN.MV, R.POWER.IIN.MA,
   R.POWER.PIN.CW, R.POWER.HOLD_V.MV, R.POWER.TJ.TJ, R.DEBUG.STATUS.ATTACHED, R.DEBUG.STATUS.FREEZE]

/-- The level sources whose condition a reset of their block ends. -/
def resetLevels : List Nat := [32, 37, 39, 200, 201]

/-- The collector at SYS_RST_N (R425): every sticky bit that is not latched clears, every countdown stops, and the outputs of
R46 are held. -/
def State.resetCollector (s : State) : State :=
  let s1 := s.each (List.range 10) fun s k =>
    (s.set (R.FAULT.STICKY_k.STICKY k) (s.fld (R.FAULT.LATCHED_k.LATCHED k))).set (R.FAULT.RUNNING_k.RUNNING k) 0
  let s2 := s1.each resetLevels fun s n => s.setBit (R.FAULT.PRESENT_k.PRESENT (n / 32)) (n % 32) false
  let s3 := (((((s2.setB R.FAULT.STATE.FOLD true).setB R.FAULT.STATE.BYP true).setB R.FAULT.STATE.FAULT_N true).setB
    R.FAULT.STATE.FORCED true).setB R.FAULT.STATE.EXITING false).setB R.FAULT.STATE.PULSING false
  s3.setB R.FAULT.STATE.SVC_HELD false

/-- Every domain but the always-on ones is reset. -/
def State.coldDomains (s : State) : State :=
  let s0 := s.relock
  let total := s0.col.foldTotal + (if s0.col.inFold then s0.now - s0.col.foldAt else 0)
  let s1 : State := { State.reset with
    pending := s0.pending, variant := s0.variant, now := s0.now, t0 := s0.t0, free := s0.free, sup := s0.sup, inst := s0.inst,
    time := { s0.time with ppsHigh := false }, regs := s0.regs.drop (fun k => !keepsReg k), dealt := s0.dealt.drop (fun k => !keepsReg k),
    col := { Collector.init with foldTotal := total },
    trust := { Trust.init with otp := s0.trust.otp },
    dbg := { s0.dbg with late := none },
    due := s0.due.filter (fun e => decide (e.1 = .charge)) }
  (s1.each keptFields fun s f => s.set f (s0.fld f)).resetCollector

/-- Fold, forced by the supply monitor or by SYS_RST_N, then the reset. -/
def State.forceReset (s : State) : State :=
  let s1 := s.enterFold.coldDomains
  { s1 with sup := { s1.sup with started := false } }

/-- A debounced change of THERM_ALERT_N. -/
def State.thermAlert (s : State) (asserted : Bool) : State :=
  let s1 := ({ s with sup := { s.sup with thermAlertN := !asserted } }).setB R.POWER.STATUS.ALERT asserted
  (if asserted then s1.setB R.POWER.STICKY.ALERT_SEEN true else s1).level 42 asserted

/-! ## t0 (R45, R61-R63) -/

/-- Every level source whose condition is still present is detected again (R425). -/
def State.redetect (s : State) : State := s.each ((List.range 320).filter s.isPresent) State.detect

/-- The cause of the Deal that t0 starts: 0 power-on, 1 SYS_RST_N, 2 brownout. -/
def State.rstCause (s : State) : Nat :=
  if s.sup.brownedOut then 2 else if s.fld R.DEAL.DEAL_COUNT.COUNT = 0 then 0 else 1

/-- t0: the Deal starts, HOLD charges, and the outputs of R46 are held. -/
def State.takeT0 (s : State) : State :=
  let cause := s.rstCause
  let s1 := { s with
    t0 := s.now, sup := { s.sup with vinPresent := true, onHold := false, brownedOut := false, live := true, started := true, tjMax := none },
    deal := { Deal.init with running := true } }
  let s2 := (s1.set R.DEAL.RST_CAUSE.CAUSE cause).bump R.DEAL.DEAL_COUNT.COUNT
  let s3 := ((s2.setB R.POWER.STATUS.CHARGING true).setB R.POWER.STATUS.ON_HOLD false).level 38 false
  let s4 := (s3.arm .charge (secs (s3.eff R.POWER.HOLD_CFG.CHARGE_TO))).arm .journal (secs 300)
  let s5 := if s4.sup.dbgPresN then s4
            else (s4.setB R.DEBUG.STATUS.ATTACHED true).setB R.DEBUG.STICKY.ATTACH_SEEN true
  let s6 := if s5.sup.tamperN then s5 else s5.tamperPin true
  (if s6.sup.thermAlertN then s6 else s6.thermAlert true).redetect

/-- VIN has stayed within 6-60 V for 2 ms: t0 is now, unless SYS_RST_N is low or the module runs. -/
def State.vinValid (s : State) : State :=
  if s.sup.started then s
  else if s.sup.sysRstN then s.takeT0
  else { s with sup := { s.sup with vinPresent := true, onHold := false, live := true } }

/-- SYS_RST_N has been low for 1 us. -/
def State.sysRstLow (s : State) : State :=
  if !s.sup.sysRstN then s
  else
    let s1 := { s with sup := { s.sup with sysRstN := false } }
    if s1.sup.vinPresent || s1.sup.onHold then s1.forceReset else s1

/-- SYS_RST_N is released. -/
def State.sysRstHigh (s : State) : State :=
  if s.sup.sysRstN then s
  else
    let s1 := { s with sup := { s.sup with sysRstN := true } }
    if s1.sup.vinPresent then s1.takeT0 else s1

/-! ## Hold-up (R547, R550, R551) -/

/-- F039 and its sticky copy: HOLD lies below 46 V once its charge limit has passed. -/
def State.holdLevel (s : State) : State :=
  let late := s.sup.vinPresent && s.sup.started && !s.running .charge && !s.on R.POWER.STATUS.HOLD_OK
  (if late then s.setB R.POWER.STICKY.HOLD_LOW_SEEN true else s).level 39 late

/-- VIN is declared absent: HOLD carries the module, once it has been charged. -/
def State.vinAbsent (s : State) : State :=
  if !s.sup.vinPresent then s
  else if s.sup.started then
    let s1 := ({ s with sup := { s.sup with vinPresent := false, onHold := true } }).disarm .charge
    let s2 := ((s1.setB R.POWER.STATUS.ON_HOLD true).setB R.POWER.STICKY.ON_HOLD_SEEN true).bump R.POWER.RIDE_THROUGHS.COUNT
    let s3 := (s2.setB R.POWER.STATUS.CHARGING false).setB R.POWER.STATUS.LOW_BAND false
    (s3.level 38 true).holdLevel
  else { s with sup := { s.sup with vinPresent := false } }

/-- VIN returns during a ride-through: the module runs on, and HOLD is refilled. -/
def State.vinReturns (s : State) : State :=
  if !s.sup.onHold then s
  else
    let s1 := { s with sup := { s.sup with vinPresent := true, onHold := false } }
    let s2 := ((s1.setB R.POWER.STATUS.ON_HOLD false).setB R.POWER.STATUS.CHARGING true).level 38 false
    s2.arm .charge (secs (s2.eff R.POWER.HOLD_CFG.CHARGE_TO))

/-- HOLD has fallen below 12 V with VIN absent: Fold, and a restart at the next t0. -/
def State.holdGone (s : State) : State :=
  if !s.sup.onHold then s
  else
    let s1 := s.forceReset
    let s2 := { s1 with sup := { s1.sup with onHold := false, brownedOut := true } }
    (((s2.setB R.POWER.STATUS.ON_HOLD false).setB R.POWER.STATUS.HOLD_OK false).disarm .charge).level 38 false

/-- HOLD has not reached 46 V within its limit. -/
def State.chargeTimeout (s : State) : State :=
  if s.isDue .charge then (s.disarm .charge).holdLevel else s

/-- HOLD has reached 46 V. -/
def State.holdCharged (s : State) : State := (s.setB R.POWER.STATUS.HOLD_OK true).holdLevel

/-- VIN and HOLD have stayed below 3 V for 10 ms (R62): everything but OTP and the pins is as at the first power-up. -/
def State.powerCycle (s : State) : State :=
  if s.sup.vinPresent then s
  else
    { State.reset with
      pending := s.pending, variant := s.variant, now := s.now, t0 := s.now, free := s.free,
      sup := { Supply.init with sysRstN := s.sup.sysRstN, tamperN := s.sup.tamperN, thermAlertN := s.sup.thermAlertN,
                                deckPresN := s.sup.deckPresN, dbgPresN := s.sup.dbgPresN },
      trust := { Trust.init with otp := s.trust.otp } }

/-! ## Samples (R548, R549, R553, R555) -/

/-- VIN, input current and HOLD, every 10 us: the input power is the mean of the last ten products, in units of 10 mW. -/
def State.powerSample (s : State) (vin iin hold : Nat) : State :=
  let xs := (vin * iin :: s.sup.samples).take 10
  let s1 := { s with sup := { s.sup with samples := xs } }
  let s2 := (((s1.set R.POWER.VIN.MV vin).set R.POWER.IIN.MA iin).set R.POWER.HOLD_V.MV hold).set R.POWER.PIN.CW
    (xs.foldl (· + ·) 0 / (10000 * xs.length))
  let low := s2.sup.vinPresent && decide (vin < 10500)
  let s3 := s2.setB R.POWER.STATUS.LOW_BAND low
  let s4 := if low then s3.setB R.POWER.STICKY.LOW_BAND_SEEN true else s3
  (s4.setB R.POWER.STATUS.HOLD_OK (decide (46000 ≤ hold))).holdLevel

/-- The junction is the highest of the nine sensors, in tenths of a degree, every 100 us. -/
def State.junctionSample (s : State) (l : List Int) : State :=
  match l with
  | [] => s
  | x :: rest =>
    let t := rest.foldl max x
    let hot := decide (1350 < s.sup.tj) && decide (1350 < t)
    let top := match s.sup.tjMax with
      | some m => max m t
      | none => t
    let s1 := { s with sup := { s.sup with tj := t, tjMax := some top } }
    let s2 := ((s1.setTemp R.POWER.TJ.TJ t).setTemp R.POWER.TJ.MAX top).setCeiling.showFloor
    let s3 := (s2.level 40 (decide (1250 < t))).level 41 hot
    s3.tamperMonitors s3.sup.monSupply (decide (t < -550 ∨ 1500 < t))

/-- The rails whose bit is set have stayed outside their windows for 50 us, in the order of R553 without VCORE and VAON. -/
def State.railsOut (s : State) (mask : Nat) : State := s.level 43 (decide (mask ≠ 0))

end Sys2Proof.Machine
end

