-- ==== Sys2Proof/Machine/Deal.lean ====
section
/-! DEFINITION. The Deal: slot choice, staging, the checks of step 7, the claim, the application of the sections, and commit
(R45-R60, R83-R90, R109-R116, R563, R623). -/
namespace Sys2Proof.Machine

/-! ## Failure (R56, R57) -/

/-- The fault source of a status code. -/
def failSource (c : Nat) : Option Nat :=
  if c = 0x10 then some 16 else if 0x11 ≤ c ∧ c ≤ 0x13 then some 17 else if c = 0x14 ∨ c = 0x15 then some 18
  else if c = 0x16 then some 21 else if c = 0x17 ∨ c = 0x18 then some 19 else if c = 0x19 then some 20 else if c = 0x1A then some 22
  else if c = 0x1B then some 26 else if c = 0x20 then some 25 else if 0x21 ≤ c ∧ c ≤ 0x24 then some 23 else if c = 0x25 then some 24
  else if c = 0x27 then some 27 else none

/-- The Deal stops before commit with a status code.  Where a Deck is present whose identity page is still being read, the record waits
for it (R56). -/
def State.dealFail (s : State) (c : Nat) : State :=
  let s0 := { s with deal := { s.deal with running := false, failed := true, staged := none } }
  let s1 := (s0.disarm .dealWatch).set R.DEAL.STATUS.CODE c
  let s2 := match failSource c with
    | some n => s1.detect n
    | none => s1
  if s2.on R.DEAL.DECK_STATE.DEALT || (s2.on R.DEAL.DECK_STATE.PRESENT && !decide (0x10 ≤ c ∧ c ≤ 0x13)) then
    let body := beBytes 1 c ++ beBytes 1 (s2.fld R.DEAL.STATUS.STEP) ++ beBytes 1 (s2.fld R.DEAL.SLOT_A.RESULT) ++
      beBytes 1 (s2.fld R.DEAL.SLOT_B.RESULT) ++ beBytes 1 (s2.fld R.DEAL.JUNCTION.TJ)
    s2.journal { typ := 1, merged := 0, payload := body }
  else s2

/-- A step of the Deal is in progress. -/
def State.dealStep (s : State) (n : Nat) : State := s.set R.DEAL.STATUS.STEP (max n (s.fld R.DEAL.STATUS.STEP))

/-! ## Pins that the Deal drives (R56, R603) -/

/-- The level of LED0-LED7: the status code until commit and after a failed Deal, then `LED_OUT`. -/
def State.leds (s : State) : Nat := if s.on R.DEAL.STATUS.FWD then s.fld R.TOP.LED_OUT.LED else s.fld R.DEAL.STATUS.CODE
/-- The GPIO pins that the module drives, and their levels: none until commit. -/
def State.gpioDriven (s : State) : Nat := if s.on R.DEAL.STATUS.FWD then s.fld R.TOP.GPIO_DIR.DIR else 0
def State.gpioLevels (s : State) : Nat := s.fld R.TOP.GPIO_OUT_SET.OUT &&& s.gpioDriven

/-! ## Deadlines (R49, R51, R52) -/

/-- The deadline of the Deal in microseconds, from the lengths of the images tried; 3.4 ms for each MiB, to the nearest microsecond. -/
def dealDeadline (lens : List Nat) (claims : Bool) : Nat :=
  let n := lens.foldl (· + ·) 0
  (if lens.length < 2 then 40000 else 44000) + (3400 * n + 524288) / 1048576 + (if claims then 50000 else 0)

/-- Shows the applicable deadline, and has the watchdog fire 10 ms after it. -/
def State.setDeadline (s : State) (us : Nat) : State :=
  (s.set R.DEAL.DEADLINE.DEADLINE us).armAt .dealWatch (s.t0 + usec (us + 10000))

/-! ## Start (R47 steps 1 to 4) -/

/-- Shows what step 1 reads from OTP. -/
def State.showOtp (s : State) : State :=
  let o := s.trust.otp
  let s1 := ((s.set R.DEAL.FLOOR.FLOOR o.floor).set R.SEC.FLOOR.FLOOR o.floor).setB R.DEAL.STATUS.CLAIMED s.isClaimed
  (s1.setB R.SEC.STATUS.CLAIMED s.isClaimed).each (List.range 12) fun s k =>
    s.set (R.SEC.OWNER_HASH_k.HASH k) (bitsOf o.ownerHash (32 * (11 - k)) 32)

/-- What the Dealer finds in steps 1 to 3. -/
structure DealerView where
  romOk : Bool
  otpOk : Bool
  idOk : Bool
  selfTestOk : Bool
  keysOk : Bool
  deckPresent : Bool
  junction : Int
  bandOk : Bool
  deriving DecidableEq, Repr

/-- The Dealer starts: step 1, the sensing of the Deck, and the junction with its band. -/
def State.dealerStart (s : State) (v : DealerView) : State :=
  if !s.deal.running || decide (s.fld R.DEAL.STATUS.STEP ≠ 0) then s
  else
    let s1 := ((s.dealStep 1).setB R.FAULT.SELFTEST.PASS v.selfTestOk).showOtp
    let s2 := s1.setDeadline (dealDeadline [] false)
    if !(v.romOk && v.otpOk && v.idOk) then s2.dealFail 0x20
    else if !v.selfTestOk then (s2.detect 2).dealFail 0x26
    else if s2.on R.FAULT.STATE.GRAVE_LATCHED then s2.dealFail 0x26
    else if !v.keysOk then s2.dealFail 0x27
    else
      let s3 := { s2.setB R.SEC.STATUS.KEYSTORE_OK true with
        trust := { s2.trust with fleetKey := if s2.isClaimed then s2.trust.otp.fleet else none } }
      let s4 := (s3.dealStep 2).setB R.DEAL.DECK_STATE.PWR_ON true
      if !v.deckPresent then s4.dealFail 0x10
      else
        let s5 := ({ s4 with sup := { s4.sup with deckPresN := false } }.setB R.DEAL.DECK_STATE.PRESENT true).dealStep 3
        let s6 := s5.setTemp R.DEAL.JUNCTION.TJ v.junction
        if v.junction < -400 ∨ 1250 < v.junction then s6.dealFail 0x24
        else if !v.bandOk then s6.dealFail 0x21
        else
          let b := bandOf v.junction
          { (s6.set R.DEAL.STATUS.BAND b).dealStep 4 with dram := { s6.dram with band := b } }

/-- DRAM initialisation has completed (step 3). -/
def State.dramInitDone (s : State) (ok : Bool) : State :=
  if !s.deal.running || decide (s.fld R.DEAL.STATUS.STEP < 4) || s.deal.dramReady then s
  else if !ok then s.dealFail 0x22
  else { s.each (List.range 8) State.dramReadyOn with deal := { s.deal with dramReady := true } }

/-- The bucket area has been cleared (step 6). -/
def State.bucketsCleared (s : State) (ok : Bool) : State :=
  if !s.deal.running || !s.deal.dramReady || s.deal.bucketsClear then s
  else if !ok then s.dealFail 0x22
  else { s.clearArea 0x1000000000 0x1080000000 with deal := { s.deal with bucketsClear := true } }

/-- The self-test of the on-die memories has completed (step 4). -/
def State.memtestDone (s : State) (ok : Bool) : State :=
  if !s.deal.running || decide (s.fld R.DEAL.STATUS.STEP < 4) || s.deal.memOk then s
  else if !ok then s.dealFail 0x23
  else { s with deal := { s.deal with memOk := true } }

/-! ## Slot choice (R58, R74, R75) -/

/-- A page of the Deck that the Dealer has read. -/
def State.page (s : State) (p : Nat) : List Byte := s.deck.pages.get [] p
/-- The header of slot `x` (1 A, 2 B). -/
def State.slotHeader (s : State) (x : Nat) : List Byte := s.page (slotPage x)
/-- The field of slot `x` that shows its result or its version. -/
def slotResult (x : Nat) : Fld := if x = 1 then R.DEAL.SLOT_A.RESULT else R.DEAL.SLOT_B.RESULT
def slotVer (x : Nat) : Fld := if x = 1 then R.DEAL.SLOT_A.VER else R.DEAL.SLOT_B.VER

/-- The slots that may be tried, first first: the higher VERSION, then the higher BUILD_SERIAL, then A. -/
def State.slotOrder (s : State) : List Nat :=
  let may (x : Nat) : Bool := headerOk (s.slotHeader x) && decide (s.trust.otp.floor ≤ imgVersion (s.slotHeader x))
  let rank (x : Nat) : Nat := imgVersion (s.slotHeader x) * 2 ^ 32 + imgSerial (s.slotHeader x)
  ([1, 2].filter may) |> fun l => if l = [1, 2] ∧ rank 1 < rank 2 then [2, 1] else l

/-- Both headers have been read: a slot is chosen. -/
def State.chooseSlot (s : State) : State :=
  let ok := [1, 2].filter fun x => headerOk (s.slotHeader x)
  let s1 := s.each ok fun s x => s.set (slotVer x) (imgVersion (s.slotHeader x))
  let s2 := { s1 with deal := { s1.deal with
    toTry := s1.slotOrder, maxVersion := (ok.map fun x => imgVersion (s1.slotHeader x)).foldl max 0 } }
  if ok.isEmpty then s2.dealFail 0x14
  else match s2.deal.toTry with
    | [] => s2.dealFail 0x19
    | x :: _ => (s2.setDeadline (dealDeadline [imgLen (s2.slotHeader x)] false)).dealStep 5

/-- The slot in hand. -/
def State.slotInHand (s : State) : Nat := s.deal.toTry.headD 0

/-- A page of the Deck's journal ring. -/
def inJournal (page : Nat) : Bool := decide (journalBase ≤ page ∧ page < journalBase + 4096)

/-- The Dealer reads a page of the Deck (R71, R74): the identity page first, then slot headers, journal pages, and the pages of the
image in hand; nothing else. -/
def State.dealReads (s : State) (page : Nat) : Bool :=
  let x := page / 0x4000
  if page = 0 then !s.deck.known
  else s.deck.known && (inJournal page || (decide (s.page page = []) && (decide (page = slotPage 1 ∨ page = slotPage 2) ||
    decide (x = s.slotInHand ∧ s.deal.dramReady ∧ (page - slotPage x) * 4096 < imgLen (s.slotHeader x)))))

/-- A READ frame of the Deal arrives (R70): the identity page, a slot header, a page of the image in hand, or a journal page. -/
def State.dealFrame (s : State) (page : Nat) (data : List Byte) (crc : Nat) : State :=
  if s.fld R.DEAL.STATUS.STEP < 2 || !s.dealReads page then s
  else match s.frameResult page data crc with
    | (s1, 0) =>
      if page = 0 then (if identityOk data then s1.takeIdentity data else s1.dealFail 0x13)
      else if inJournal page then s1.noteJournal (page - journalBase) data
      else
        let put := { s1 with deck := { s1.deck with pages := s1.deck.pages.put [] page data } }
        if (page = slotPage 1 ∨ page = slotPage 2) ∧ put.slotHeader 1 ≠ [] ∧ put.slotHeader 2 ≠ [] then put.chooseSlot else put
    | (s1, 1) => s1
    | (s1, _) => s1.dealFail 0x11

/-! ## REGSET records (R84) -/

/-- The register at an address, with its place. -/
def dealtReg (a : Nat) : Option (RegPlace × RegHit) :=
  if !inRegRange a || decide (a % 4 ≠ 0) then none
  else match regPlace a with
    | some p => p.hit.map fun h => (p, h)
    | none => none

/-- A field that a REGSET record may write. -/
def FldAt.regset (f : FldAt) : Bool := !f.vend && decide (f.acc = .rw ∨ f.acc = .dl ∨ f.acc = .as ∨ f.acc = .ac)

/-- A REGSET record names a register that it may write (R84). -/
def regsetOk (r : List Byte) : Bool :=
  match dealtReg (beAt r 0 4) with
  | some (p, h) => !p.vendorWin && h.fields.any FldAt.regset && h.fields.all fun f => !f.fld.covered (beAt r 4 4) || f.regset
  | none => false

/-- The Deal writes a field: its value, and the value that R13 and R558 return to. -/
def State.deal1 (s : State) (f : Fld) (v : Nat) : State :=
  let s1 := s.set f v
  { s1 with dealt := s1.dealt.put f.reset f.key (v % 2 ^ f.width) }

/-- The MODE and FEC pairs that R135 and R136 allow on lane `n`. -/
def laneOk (n mode fec : Nat) : Bool :=
  if n < 48 then
    decide (mode ≠ 7) && decide (mode ≠ 6 ∨ n % 4 = 0) &&
      (match mode with
       | 4 => decide (fec ≤ 1)
       | 5 => decide (fec ≤ 2)
       | 6 => decide (fec = 0 ∨ fec = 2)
       | _ => decide (fec = 0))
  else decide (mode = 0 ∨ mode = 7) && decide (fec = 0)

/-- The largest count of a pool (R536). -/
def poolMax (k : Nat) : Nat := [0, 16384, 4096, 1024, 227, 16384, 4096].getD k 0

/-- An owner region gives an access to vendor SRAM that R493 does not allow. -/
def State.regionBad (s : State) (c r : Nat) : Bool :=
  let a := s.fld (R.SVC.REGION_r.BASE.BASE c r) * 4096
  let z := a + s.fld (R.SVC.REGION_r.SIZE.SIZE c r) * 4096
  let rd := s.on (R.SVC.REGION_r.CTRL.R c r)
  let wx := s.on (R.SVC.REGION_r.CTRL.W c r) || s.on (R.SVC.REGION_r.CTRL.X c r)
  let hits (lo hi : Nat) : Bool := decide (a < hi ∧ lo < z)
  s.on (R.SVC.REGION_r.CTRL.EN c r) && ((wx && hits 0x600000 0x800000) || (rd && hits 0x600000 0x7F0000))

/-- The rules across fields that a record's result must meet (R37, R136, R163, R287, R411, R493, R536, R544, and the sum of
R231's banks). -/
def State.crossOk (s : State) (p : RegPlace) (mask : Nat) : Bool :=
  match p.blk with
  | .cadence =>
    decide (p.off ≠ 0x40) ||
      (let t0 := s.fld R.CADENCE.SHED_TH.TH0
       let t1 := s.fld R.CADENCE.SHED_TH.TH1
       let t2 := s.fld R.CADENCE.SHED_TH.TH2
       let t3 := s.fld R.CADENCE.SHED_TH.TH3
       decide (0 < t3 ∧ t3 ≤ t2 ∧ t2 ≤ t1 ∧ t1 ≤ t0 ∧ t0 < 96))
  | .lane =>
    if p.off = 0x10 then
      decide (s.fld (R.LANE.TX_EQ.PRE p.inst) + s.fld (R.LANE.TX_EQ.MAIN p.inst) + s.fld (R.LANE.TX_EQ.POST p.inst) ≤ 63)
    else decide (p.off ≠ 0) || !((R.LANE.CTRL.MODE p.inst).covered mask || (R.LANE.CTRL.FEC p.inst).covered mask) ||
      laneOk p.inst (s.fld (R.LANE.CTRL.MODE p.inst)) (s.fld (R.LANE.CTRL.FEC p.inst))
  | .tables =>
    decide (p.off ≠ 0x18) ||
      decide (s.fld R.TABLES.RULE_BANKS.SIZE0 + s.fld R.TABLES.RULE_BANKS.SIZE1 + s.fld R.TABLES.RULE_BANKS.SIZE2 +
        s.fld R.TABLES.RULE_BANKS.SIZE3 ≤ 48)
  | .fault =>
    decide (p.off < 0x300 ∨ 0x440 ≤ p.off) ||
      (List.range 4).all fun j =>
        let k := (p.off - 0x300) / 4
        !(R.FAULT.CFG_k.CLASS k j).covered mask ||
          (decide (4 * k + j ∉ fixedSources) && decide (s.fld (R.FAULT.CFG_k.CLASS k j) ≠ classGrave))
  | .svc =>
    decide (p.off < 0x280 ∨ 0x300 ≤ p.off) || !s.regionBad p.inst ((p.off - 0x200) / 16)
  | .flow =>
    decide (p.off < 0x240 ∨ 0x280 ≤ p.off ∨ p.off % 8 ≠ 4) ||
      (let k := (p.off - 0x240) / 8
       decide (s.fld (R.FLOW.NATPOOL_k.PORTS.LOW k) ≤ s.fld (R.FLOW.NATPOOL_k.PORTS.HIGH k)))
  | .dram => decide (p.off ≠ 0x8004) || decide (s.fld R.DRAM.PANIC.LO < s.fld R.DRAM.PANIC.HI)
  | .pool =>
    decide (p.off < 0x10 ∨ 0x28 ≤ p.off) ||
      (let k := (p.off - 0x10) / 4 + 1
       decide (s.poolCount k ≤ poolMax k) && decide (s.poolBase 4 + s.poolCount 4 * 9216 ≤ 0x200000) &&
         decide ((List.range 64).foldl (fun a o => a + s.reserve o k) 0 ≤ s.poolCount k))
  | _ => true

/-- The bits of a record that fall on locked sources (R478) are left out. -/
def freeBits (k bits : Nat) : Nat := bits &&& (2 ^ 32 - 1 - rstLock k)

/-- One REGSET record: none where it is not applied. -/
def State.regset (s : State) (r : List Byte) : Option State :=
  let a := beAt r 0 4
  let mask := beAt r 4 4
  let val := beAt r 8 4
  match dealtReg a with
  | none => none
  | some (p, h) =>
    let bits := val &&& mask
    match p.blk, p.off / 0x20 with
    | .intc, 0 => some (s.pendSet (.debug true) (p.off / 4) (freeBits (p.off / 4) bits))
    | .intc, 1 => some (s.pendClr (.debug true) (p.off / 4 % 8) (freeBits (p.off / 4 % 8) bits))
    | .intc, 2 => some (s.maskSet (.debug true) (p.off / 4 % 8) (freeBits (p.off / 4 % 8) bits))
    | .intc, 3 => some (s.maskClr (.debug true) (p.off / 4 % 8) (freeBits (p.off / 4 % 8) bits))
    | _, _ =>
      if p.blk = .power ∧ 0x100 ≤ p.off then some s
      else if p.blk = .top ∧ p.off = 0xC4 then some (s.orIn R.TOP.GPIO_OUT_SET.OUT bits)
      else if p.blk = .top ∧ p.off = 0xC8 then some (s.clrIn R.TOP.GPIO_OUT_SET.OUT bits)
      else
        let fs := h.fields.filter fun f => f.fld.covered mask && f.regset
        let s1 := s.each fs fun s f =>
          let m := f.fld.of mask
          let keep := decide (p.blk = .intc) && ((List.range 256).any fun n => lockedSource n && decide ((R.INTC.ROUTE_k.CORE (n / 16) (n % 16)).key = f.fld.key))
          if keep then s else s.deal1 f.fld ((s.fld f.fld &&& (2 ^ f.fld.width - 1 - m)) ||| (f.fld.of val &&& m))
        if (fs.all fun f => f.fld.ok (s1.fld f.fld)) && (fs.isEmpty || s1.crossOk p mask) then some s1 else none

/-- Every REGSET record in order; skipped ones are counted, and the last is recorded (R84). -/
def State.regsets (s : State) (d : List Byte) : State :=
  let l := recsIn d 1
  s.each ((List.range l.length).zip l) fun s e => match s.regset e.2 with
    | some s1 => s1
    | none => (s.bump R.DEAL.REGSET_SKIP.COUNT).set R.DEAL.REGSET_SKIP.LAST e.1

/-- The defaults that follow other parts of the image: GATE_EN with a GATELIST record (R347), SHARE_k with REACH (R388), and the
fields of the blocks that SYS_RST_N leaves (R594, R595). -/
def State.dealDefaults (s : State) (d : List Byte) : State :=
  let dl (b : Blk) (base : Nat) : List Fld := (layout b 0).flatMap fun r => (List.range r.n1).flatMap fun a => (List.range r.n2).flatMap fun c =>
    ((r.fieldsAt 0 a c).filter fun f => decide (f.acc = .dl) && decide (base ≤ f.fld.addr)).map (·.fld)
  let s1 := s.each (dl .fault 0x10050000 ++ dl .time 0x10070000) fun s f => s.deal1 f f.reset
  let s2 := s1.each (recsIn d 4) fun s r => s.deal1 (R.TM.CTRL.GATE_EN (beAt r 0 1)) 1
  let t := s2.regsets d
  s2.each (List.range 8) fun s n =>
    if t.fld (R.NLINK.CTRL.REACH n) = 1 then s.each (List.range 8) fun s k => s.deal1 (R.NLINK.SHARE_k.BLOCKS n k) 8192 else s

/-- The registers as the staged REGSET records leave them. -/
def State.dealRegs (s : State) (d : List Byte) : State := (s.dealDefaults d).regsets d

/-! ## The checks of step 7 (R78, R84-R89, R196, R317, R470) -/

/-- The rows of the TABLE sections: table, index and row (R85). -/
def rowsIn (d : List Byte) : List (Nat × Nat × Nat) :=
  (sectsOf d 2).flatMap fun x =>
    let t := beAt (x.data d) 0 1
    ((recsOf 2 (x.data d)).getD []).map fun r => (t, beAt r 0 4, cleanRow t (beAt r 8 (tableRowBytes t)))

/-- One row fits its table. -/
def State.rowFits (s : State) (e : Nat × Nat × Nat) : Bool :=
  rowOk e.1 e.2.1 e.2.2 &&
    (if e.1 ≤ 2 then decide (e.2.1 = 0xFFFFFFFF)
     else match s.tableShape e.1 with
       | some (_, n) => decide (e.2.1 < n)
       | none => false)

/-- The rows of a table as the TABLE sections leave them: the last that names an index (R83). -/
def rowAt (rows : List (Nat × Nat × Nat)) (t i : Nat) : Nat :=
  match rows.reverse.find? fun e => decide (e.1 = t ∧ e.2.1 = i) with
  | some e => e.2.2
  | none => 0

/-- A NAPT or NAT_REV profile builds the key of its five fields, and a CT profile is symmetric (R265).  DESIGN CHOICE: the L4 ports are
those at 0 and 2 of a header of another type, or those behind an IPv4 header without options. -/
def State.profKindOk (s : State) (r : Nat) : Bool :=
  let e (k : Nat) : Nat := bitsOf r (32 * (7 - k)) 32
  let off (k : Nat) : Nat := bitsOf (e k) 15 9
  let hdr (k : Nat) : Nat := bitsOf (e k) 24 7
  let v4 := s.fld R.TABLES.HROLE.IPV4
  let kind := bitsOf r 495 4
  if kind = 1 ∨ kind = 2 then
    decide (bitsOf r 508 3 = 0) && ((List.range 8).all fun k => bitOf (e k) 31 == decide (k < 5)) &&
      decide ((List.range 5).map (fun k => bitsOf (e k) 10 5) = [4, 4, 1, 2, 2]) &&
      decide (hdr 0 % 64 = v4 ∧ hdr 1 = hdr 0 ∧ hdr 2 = hdr 0 ∧ off 0 = 12 ∧ off 1 = 16 ∧ off 2 = 9) && decide (hdr 3 = hdr 4) &&
      (if hdr 3 = hdr 0 then decide (off 3 = 20 ∧ off 4 = 22) else decide (hdr 3 % 64 ≠ v4 ∧ off 3 = 0 ∧ off 4 = 2)) &&
      (decide (kind = 1) || decide (bitsOf r 505 2 = 0))
  else decide (kind ≠ 5) || bitOf r 510

/-- `KPARAM_p.TWIN` of a NAPT profile names a NAT_REV profile (R265). -/
def State.twinsOk (s : State) (rows : List (Nat × Nat × Nat)) : Bool :=
  (List.range 16).all fun p => decide (bitsOf (rowAt rows 0x60 p) 495 4 ≠ 1) ||
    decide (bitsOf (rowAt rows 0x60 (s.fld (R.FLOW.KPARAM_p.TWIN p))) 495 4 = 2)

/-- A stream-gate list that is in use has valid entries to its END, and a cycle of 1 us to 4 s; a filter's gate names such a list
(R351). -/
def sgListOk (rows : List (Nat × Nat × Nat)) (l : Nat) : Bool :=
  let es := (List.range 64).map fun e => rowAt rows 0x31 (64 * l + e)
  let run := es.takeWhile fun r => bitOf r 63 && !bitOf r 62
  match es.drop run.length with
  | r :: _ => bitOf r 63 &&
      (let cyc := (run ++ [r]).foldl (fun a x => a + 8 * bitsOf x 24 32) 0
       decide (1000 ≤ cyc ∧ cyc ≤ 4000000000))
  | [] => false
def streamGatesOk (rows : List (Nat × Nat × Nat)) : Bool :=
  let used (l : Nat) : Bool := bitOf (rowAt rows 0x31 (64 * l)) 63
  (((rows.filter fun e => decide (e.1 = 0x31)).map fun e => e.2.1 / 64).eraseDups.all fun l => !used l || sgListOk rows l) &&
    ((rows.filter fun e => decide (e.1 = 0x30)).all fun e =>
      let r := rowAt rows 0x30 e.2.1
      !(bitOf r 127 && bitOf r 60) || used (bitsOf r 52 8))

/-- A rule bank is given no more rows than it holds (R85). -/
def State.banksFit (s : State) (d : List Byte) : Bool :=
  (List.range 4).all fun k => decide (((rowsIn d).filter fun e => decide (e.1 = 0x10 + k)).length ≤ 512 * s.ruleSize k)

/-- R317: the minima, the headroom and the shared pool fit in sharing mode. -/
def State.sharingFits (s : State) (d : List Byte) : Bool :=
  if s.fld R.BUF.CFG.MODE = 0 then true
  else
    let mins : Tbl Nat := (rowsIn d).foldl (fun m e => if e.1 = 0x50 then m.put 0 e.2.1 (bitsOf e.2.2 220 18) else m) []
    decide (mins.foldl (fun a e => a + e.2) 0 + s.eff R.BUF.HEADROOM.CELLS ≤ 131072)

/-- Every staged record passes its format checks: `d` is the image with its encrypted region in the clear, `s` the state that its
REGSET records leave. -/
def State.recordsOk (s : State) (d : List Byte) : Bool :=
  gapsOk d true none (0x80 + 16 * (sects d).length) (sects d) && ((sects d).all (countOk d)) &&
    ((recsIn d 1).all regsetOk) && ((rowsIn d).all s.rowFits) && ((rowsIn d).all fun e => decide (e.1 ≠ 0x60) || s.profKindOk e.2.2) &&
    s.twinsOk (rowsIn d) && streamGatesOk (rowsIn d) && s.banksFit d && ((recsIn d 3).all graphOk) &&
    ((recsIn d 4).all gateOk) && ((recsIn d 5).all serviceOk) && ((recsIn d 6).all (programOk s.dramEnd)) && threadsOk d &&
    ((recsIn d 7).all patchOk) && decide ((sectsOf d 7).length ≤ 1) && s.sharingFits d

/-- The clear sections pass their format checks; a claimed module ignores every CLAIM record (R113). -/
def clearOk (claimed : Bool) (d : List Byte) : Bool :=
  tableOk d && (((sects d).filter fun x => !x.enc).all (countOk d)) && ((recsIn d 8).all delegateOk) &&
    (claimed || (recsIn d 9).all claimOk) && delegatesOk d

/-! ## Staging and claim (R47 steps 5 and 7, R109-R113) -/

/-- The claim record that this image acts on: on an unclaimed module only (R113). -/
def State.claimOf (s : State) (d : List Byte) : Option (List Byte) := if s.isClaimed then none else ownClaim d

/-- The fleet Deck key of an image (R80). -/
def State.fleetOf (s : State) (d : List Byte) : Option (List Byte) :=
  if !s.keysOk then none else if s.isClaimed then s.trust.fleetKey else (ownClaim d).bind claimKey

/-- The staging region of DRAM (R524), and its clearing to 0. -/
def stagingBase : Nat := 0x1080000000
def State.clearStaging (s : State) : State :=
  s.clearArea stagingBase (stagingBase + 0x2000000)

/-- The image in hand has been streamed, hashed, decrypted and staged: its plaintext lies in DRAM as the sections lie in the image. -/
def State.stageImage (s : State) : State :=
  let x := s.slotInHand
  let n := (imgLen (s.slotHeader x) + 4095) / 4096
  let ps := (List.range n).map fun k => s.page (slotPage x + k)
  if !s.deal.running || !s.deal.dramReady || decide (x = 0) || s.deal.staged.isSome || s.deal.checked || decide ([] ∈ ps) then s
  else
    let d := ps.flatten.take (imgLen (s.slotHeader x))
    let ok := clearOk s.isClaimed d
    let code := if s.isClaimed then 0 else if ok ∧ (ownClaim d).isNone then 0x1A else 0
    let plain := if !ok then none else (s.fleetOf d).bind fun k => decryptRegion k d
    let s1 := { s with deal := { s.deal with staged := some { slot := x, bytes := d, plain := plain, code := code },
                                             tried := s.deal.tried ++ [x] } }
    let lens := s1.deal.tried.map fun y => imgLen (s1.slotHeader y)
    let s2 := match plain with
      | some p => s1.clearStaging.memPut stagingBase (withPlain d p)
      | none => s1
    (s2.setDeadline (dealDeadline lens (ok && (s1.claimOf d).isSome))).dealStep 5

/-- The result code of a staged image before any claim is fused; 1 where it passes (R57, R78, R82, R111). -/
def State.imageResult (s : State) (g : Staged) : Nat :=
  let d := g.bytes
  if !clearOk s.isClaimed d then 0x15
  else if g.code ≠ 0 then g.code
  else match rootOf d with
    | none => 0x17
    | some root =>
      let hash := sha384 root
      if !signatureOk root d then 0x17
      else if s.isClaimed ∧ ofBe hash ≠ s.trust.otp.ownerHash then 0x18
      else if !s.isClaimed && (match ownClaim d with
          | some b => decide (b.take 48 ≠ hash) || decide (slice d 0x18 16 ≠ hash.take 16)
          | none => true) then 0x18
      else match g.plain with
        | none => 0x16
        | some p =>
          let w := withPlain d p
          if (s.dealRegs w).recordsOk w then 1 else 0x15

/-- The claim is fused (R111 step 3): `fail` is 0 where every write reads back, else the stage that fails, 1 to 3; a failing stage
leaves some of its bits set (free value). -/
def State.fuseClaim (s : State) (b key : List Byte) (fail : Nat) : State × Bool :=
  let o := s.trust.otp
  let h := ofBe (b.take 48)
  let fk := (Config.sealFleet key).toNat
  let part := s.freeNow
  let put (x : Otp) : State := { s with trust := { s.trust with otp := x } }
  if fail = 1 then ((put { o with ownerHash := o.ownerHash ||| (h &&& part) }).usedFree, false)
  else if fail = 2 then ((put { o with ownerHash := h, fleetKey := o.fleetKey ||| (fk &&& part) }).usedFree, false)
  else if fail = 3 then ((put { o with ownerHash := h, fleetKey := fk, fleet := some key, claimedBits := max o.claimedBits (part % 2) }).usedFree, false)
  else (put { o with ownerHash := h, fleetKey := fk, fleet := some key, claimedBits := 3 }, true)

/-- The claim of an image that has passed (R111, R112): the state after it, and whether it succeeded. -/
def State.claimStep (s : State) (d : List Byte) (fail : Nat) : State × Bool :=
  match s.claimOf d with
  | none => (s, true)
  | some b =>
    let o := s.trust.otp
    let begun := decide (o.ownerHash ≠ 0 ∨ o.fleetKey ≠ 0)
    match if s.keysOk then claimKey b else none with
    | none => (s, false)
    | some key =>
      let fk := (Config.sealFleet key).toNat
      if begun ∧ (ofBe (b.take 48) ≠ o.ownerHash ∨ fk &&& o.fleetKey ≠ o.fleetKey) then (s, false)
      else match s.fuseClaim b key fail with
        | (s1, false) => (s1, false)
        | (s1, true) =>
          let s2 := { s1 with trust := { s1.trust with fleetKey := some key } }.showOtp
          let s3 := if begun then s2.setB R.SEC.STATUS.CLAIM_RESUMED true else s2
          ((s3.setB R.DEAL.STATUS.CLAIM_DONE true).journal { typ := 7, merged := 0, payload := b.take 48 }, true)

/-- The image in hand is accepted (step 7). -/
def State.acceptImage (s : State) (g : Staged) : State :=
  let d := g.bytes
  let hash := sha384 d
  let s1 := { s with deal := { s.deal with checked := true, buildSerial := imgSerial d }, trust := { s.trust with rootKey := rootOf d } }
  let s2 := (((s1.set R.DEAL.STATUS.SLOT g.slot).set R.DEAL.IMAGE_LEN.LEN (imgLen d)).set R.DEAL.IMAGE_VER.VER (imgVersion d)).set
    (slotResult g.slot) 1
  let s3 := s2.each (List.range 12) fun s k => s.set (R.DEAL.IMAGE_HASH_k.HASH k) (beAt hash (4 * k) 4)
  s3.setB R.DEAL.STATUS.SLOT_FAIL_SEEN (decide (1 < s.deal.tried.length))

/-- The checks of step 7 end; `fail` is the stage at which the fusing of a claim fails, 0 where it does not (R58, R81, R111). -/
def State.signatureDone (s : State) (fail : Nat) : State :=
  match s.deal.staged with
  | none => s
  | some g =>
    if !s.deal.running || s.deal.checked then s
    else
      let s0 := s.dealStep 7
      let code := s0.imageResult g
      if code = 1 then
        match s0.claimStep g.bytes fail with
        | (s1, true) => s1.acceptImage g
        | (s1, false) => (s1.clearStaging.set (slotResult g.slot) 0x1B).dealFail 0x1B
      else
        let s1 := s0.clearStaging.set (slotResult g.slot) code
        let s2 := { s1 with deal := { s1.deal with staged := none } }
        match s.deal.toTry with
        | _ :: y :: t =>
          if 0x15 ≤ code ∧ code ≤ 0x18 then
            let s3 := { s2 with deal := { s2.deal with toTry := y :: t } }
            (s3.setDeadline (dealDeadline [imgLen (s3.slotHeader g.slot), imgLen (s3.slotHeader y)] false)).set R.DEAL.STATUS.STEP 5
          else s2.dealFail code
        | _ => s2.dealFail code

/-! ## Step 8 (R83-R88, R563) -/

/-- A service parameter's value lies in its stated range (R495, R496, ch. 21). -/
def State.paramOk (s : State) (svc p : Nat) (v : List Byte) : Bool :=
  let n := ofBe v
  if p = 0 then decide (n ≤ 1)
  else if 0x100 ≤ p ∧ p ≤ 0x107 ∧ v.length ≤ 4 then
    match p - 0x100 with
    | 0 => s.portExists n
    | 1 => decide (n ≤ 4094)
    | 3 => decide (8 ≤ n ∧ n ≤ 30)
    | 7 => decide (n ≤ 15)
    | _ => true
  else match svc with
    | 1 => if p = 1 then v.all fun b => decide (b.toNat < 48 ∨ b = 0xFF) else if p = 3 ∨ p = 4 then decide (n ≤ 3)
           else if p = 6 then decide (10 ≤ n ∧ n ≤ 10000) else true
    | 2 => if p < 0x20 then decide (beAt v 0 1 ≤ 3 ∧ beAt v 1 1 ≤ 2 ∧ (beAt v 5 1 ≤ 4 ∨ 249 ≤ beAt v 5 1))
           else if p < 0x24 then decide (10 ≤ n ∧ n ≤ 1000000) else if p < 0x28 then decide (1000 ≤ n ∧ n ≤ 1000000000)
           else decide (n = 0xFFFF ∨ (32 ≤ n ∧ n ≤ 511))
    | 4 => if p = 4 then decide (5 ≤ n ∧ n ≤ 3600) else if p = 5 then decide (2 ≤ n ∧ n ≤ 10) else true
    | 5 => if p = 3 then decide (60 ≤ n ∧ n < 2 ^ 31)
           else if 0x10 ≤ p then decide ((beAt v 0 1 < 48 ∨ beAt v 0 1 = 0xFF) ∧ beAt v 1 1 ≤ 32) else true
    | 7 => if 0x10 ≤ p then decide (1 ≤ beAt v 1 1 ∧ beAt v 1 1 ≤ 2) else true
    | 8 => if p = 1 then decide (n ≤ 23) else decide (n % 256 = 0)
    | 9 => if p = 1 then decide (100 ≤ n ∧ n ≤ 10000) else decide (n ≤ 60000)
    | _ => true

/-- The key of a SERVICE record: a position of the DHCP service whose code is also that of a shared parameter has one of its own. -/
def paramKey (svc p n : Nat) : Nat := if svc = 5 ∧ 0x100 ≤ p ∧ p ≤ 0x107 ∧ n = 40 then svc * 65536 + p + 0x1000 else svc * 65536 + p

/-- A SERVICE record: its value, or the default where it is out of range, which the service counts. -/
def State.dealService (s : State) (r : List Byte) : State :=
  let svc := beAt r 0 1
  let p := beAt r 2 2
  let v := slice r 8 (beAt r 4 2)
  let k := paramKey svc p v.length
  -- the key store keeps no CAK after a tamper (R131)
  let put (l : List Byte) : State :=
    if isCak k && !s.keysOk then s else { s with deal := { s.deal with params := s.deal.params.put [] k l } }
  if s.paramOk svc p v then put v
  else
    let s1 := put []
    { s1 with serv := { s1.serv with skipped := s1.serv.skipped.put 0 svc ((s1.serv.skipped.get 0 svc / 65536 + 1) * 65536 + p) } }

/-- A PARSEGRAPH record. -/
def State.dealGraph (s : State) (r : List Byte) : State := s.setRow (0x100 + beAt r 0 1) (beAt r 2 2) (graphRow r)

/-- A TABLE row. -/
def State.dealRow (s : State) (e : Nat × Nat × Nat) : State :=
  if e.1 ≤ 2 then (s.upInsert e.1 e.2.1 e.2.2).1
  else if e.1 = 0x50 then s.putRow 0x50 e.2.1 (e.2.2 + 2 ^ 256)
  else s.putRow e.1 e.2.1 e.2.2

/-- A GATELIST record: the admin list of its port. -/
def State.dealGates (s : State) (r : List Byte) : State :=
  let p := beAt r 0 1
  let n := beAt r 2 2
  let l := (List.range n).foldl (fun o e => o.put 0 (p * 1024 + e) (gateEntry r e)) (s.tm.admin.drop fun k => decide (k / 1024 = p))
  let s1 := { s with tm := { s.tm with admin := l } }
  ((((s1.set (R.TM.ADMIN_SEC_LO.SEC p) (beAt r 6 4)).set (R.TM.ADMIN_SEC_HI.SEC p) (beAt r 4 2)).set (R.TM.ADMIN_SEC_HI.COUNT p) n).set
    (R.TM.ADMIN_NS.NS p) (beAt r 10 4)).set (R.TM.ADMIN_CYCLE.CYCLE p) (beAt r 14 4)

/-- The MICROPATCH section: every core's patch RAM and match registers (R471). -/
def State.dealPatch (s : State) (r : List Byte) : State :=
  let m := beAt r 4 1
  { s with deal := { s.deal with patch := some r } }.each (List.range 4) fun s c =>
    ((s.deal1 (R.SVC.MC_STATUS.MATCH_COUNT c) m).deal1 (R.SVC.MC_STATUS.WORD_COUNT c) (beAt r 6 2)).each (List.range m) fun s k =>
      ((s.deal1 (R.SVC.MC_MATCH_k.VALID c k) 1).deal1 (R.SVC.MC_MATCH_k.ROM_ADDR c k) (beAt r (8 + 4 * k) 2)).deal1
        (R.SVC.MC_MATCH_k.PATCH_ADDR c k) (beAt r (10 + 4 * k) 2)

/-- A PROGRAM section: its threads, its entry and its code (R87). -/
def State.dealProgram (s : State) (r : List Byte) : State :=
  let c := beAt r 0 1
  let ts := (List.range 16).filter fun t => (beAt r 2 2).testBit t
  let s1 := s.deal1 (R.SVC.STATUS.OWNER c) (s.fld (R.SVC.STATUS.OWNER c) ||| beAt r 2 2)
  let s2 := s1.each ts fun s t => s.modThr (16 * c + t) fun h => { h with entry := BitVec.ofNat 40 (beAt r 16 8), pc := BitVec.ofNat 40 (beAt r 16 8) }
  { s2 with deal := { s2.deal with programs := s2.deal.programs ++ [r] } }

/-- The requests of `PWR_ON_SET_k` and `PWR_ON_CLR_k` records, in order: the domain, and whether it is to be on. -/
def pwrRequests (d : List Byte) : List (Nat × Bool) :=
  (recsIn d 1).flatMap fun r =>
    let o := beAt r 0 4 - 0x10040000
    let bits := beAt r 4 4 &&& beAt r 8 4
    if beAt r 0 4 < 0x10040100 ∨ 0x10040138 ≤ beAt r 0 4 then []
    else if o < 0x118 then (namedDoms ((o - 0x100) / 4) bits).map fun x => (x, true)
    else if 0x120 ≤ o then (namedDoms ((o - 0x120) / 4) bits).map fun x => (x, false)
    else []

/-- The domains that the Deal switches on at step 8 beside those that are on (R563). -/
def State.dealtOn (s : State) : List Nat :=
  (List.range 56).flatMap fun n =>
    let ganged := decide (n < 48) && decide (n % 4 ≠ 0) && s.gang (n / 4)
    if s.fld (R.LANE.CTRL.MODE n) = 0 ∧ ¬ ganged then []
    else if ganged then [48 + n]
    else if n < 48 then [48 + n, n] else [48 + n, 56 + n]

/-- The domain is off before commit: it holds no work, and its block's enable reads 0. -/
def State.dealOff (s : State) (d : Nat) : State :=
  let s1 := (s.loseDomain d).setDom d 0
  if 137 ≤ d ∧ d < 141 then s1.setBit R.FLOW.CTRL.SLICE_EN (d - 137) false
  else if 141 ≤ d ∧ d < 143 then s1.setBit R.FLOW.CTRL.CACHE_EN (d - 141) false
  else if 158 ≤ d then s1.setB (R.DRAM.CTRL.EN (d - 158)) false
  else s1

/-- The power domains of step 8: those of the lanes that the image uses, and the requests of its records under R559. -/
def State.dealDomains (s : State) (d : List Byte) : State :=
  let s1 := s.each s.dealtOn fun s x => s.setDom x 1
  let s2 := s1.each (pwrRequests d) fun s e =>
    if e.2 = s.domOn e.1 then s
    else match if e.2 then s.onRule e.1 else s.offRule e.1 with
      | some why => s.pwrRefused e.1 why
      | none => if e.2 then s.setDom e.1 1 else s.dealOff e.1
  let s3 := s2.each ((List.range 112).filter s2.domOn) State.startDomain
  s3.each (List.range 8) fun s c =>
    if s.on (R.DRAM.CTRL.EN c) ∨ ¬ s.domOn (158 + c) then s else (s.setB (R.DRAM.CTRL.EN c) true).dramDisable c

/-- The charge limit of HOLD follows the CHARGE_TO that the Deal applies (R550); `old` is the value before. -/
def State.moveCharge (s : State) (old : Nat) : State :=
  match s.dueAt .charge with
  | some d => s.armAt .charge (d + secs (s.eff R.POWER.HOLD_CFG.CHARGE_TO) - secs old)
  | none => s

/-- Step 8: the staged sections are applied in the order of R83. -/
def State.applyImage (s : State) : State :=
  match s.deal.staged with
  | none => s
  | some g =>
    if !(s.deal.running && s.deal.checked && s.deal.memOk && s.deal.bucketsClear) || s.deal.applied then s
    else
      let d := withPlain g.bytes (g.plain.getD [])
      let s1 := (s.dealStep 8).dealRegs d
      let s2 := s1.each (recsIn d 3) State.dealGraph
      let s3 := s2.each (rowsIn d) State.dealRow
      let s4 := s3.each (recsIn d 4) State.dealGates
      let s5 := s4.each (recsIn d 7) State.dealPatch
      let s6 := s5.each (recsIn d 5) State.dealService
      let s7 := (s6.each (recsIn d 6) State.dealProgram).loadPrograms
      let s8 := { s7 with deal := { s7.deal with applied := true } }
      ((s8.clearStaging.dealDomains d).setCeiling).moveCharge (s.eff R.POWER.HOLD_CFG.CHARGE_TO) |> State.showLife

/-! ## Commit (R53, R623) -/

/-- The states of the rule banks (R231). -/
def State.bankStates (s : State) : State :=
  s.each (List.range 4) fun s k =>
    s.set (R.TABLES.RULESET_STATUS.STATE k)
      (if s.ruleSize k = 0 then 0 else if s.fld R.TABLES.RULESET_ACTIVE.BANK = k then 1 else 3)

/-- The pool registers, and the copies of code and patch that owner 4 holds in pool 6 (R433, R471, R537). -/
def State.startPools (s : State) : State :=
  let s1 := s.each [1, 2, 3, 4, 5, 6] fun s k => (s.set (R.POOL.FREE_k.FREE (k - 1)) (s.freeIn k)).set (R.POOL.FREE_k.LOW (k - 1)) (s.freeIn k)
  let copies := s1.deal.programs ++ (match s1.deal.patch with
    | some r => [r]
    | none => [])
  s1.each copies fun s r => s.each (List.range ((r.length + 1048575) / 1048576)) fun s _ => (s.take 4 0x100000 (some 6)).1

/-- Slices and halves that the Deal leaves disabled have acknowledged (R255); the others are in use. -/
def State.startFlow (s : State) : State :=
  let s1 := s.each (List.range 4) fun s i =>
    if s.bit R.FLOW.CTRL.SLICE_EN i then s else s.setBit R.FLOW.STATUS.SLICE_QUIESCED i true
  s1.each (List.range 2) fun s h => if s.bit R.FLOW.CTRL.CACHE_EN h then s else s.setBit R.FLOW.STATUS.CACHE_QUIESCED h true

/-- The timed floor advance is armed, and its target shown (R118). -/
def State.startFloor (s : State) : State :=
  let n := s.eff R.SEC.FLOOR_CFG.DELAY
  if n = 0 then s else (s.arm .floorDelay (secs (60 * n))).showTarget

/-- Items 3 to 5 of R53: the squelch and the bypass are released, and FAULT_N follows the sticky bits, or its pulse mode (R422). -/
def State.releaseOutputs (s : State) : State :=
  if s.col.inFold then s
  else
    let s1 := { s with col := { s.col with staticOut := false } }.setB R.FAULT.STATE.FOLD false
    if s1.pulseMode ∧ s1.anyHandled then s1.startPulse.driveByp else s1.driveByp.driveFaultN

/-- Step 9. -/
def State.commit (s : State) : State :=
  if !s.deal.running || !s.deal.applied then s
  else
    let d := match s.deal.staged with
      | some g => withPlain g.bytes (g.plain.getD [])
      | none => []
    let dels := match rootOf d with
      | some root => acceptAll root (certsOf d)
      | none => []
    let s0 := ((s.dealStep 9).setB R.DEAL.STATUS.LOCKED true).disarm .dealWatch
    let s1 := { s0 with
      deal := { s0.deal with running := false, staged := none, foldSince := false },
      trust := { s0.trust with delegates := dels },
      deck := { s0.deck with pages := [] },
      time := { s0.time with ppsAfter := (s0.clk s0.gateInst).total + 1000000, ppsLast := 0 } }
    let s2 := (((s1.set R.SEC.DELEGATES.COUNT dels.length).setB R.DEAL.STATUS.FWD true).set R.DEAL.T_FWD.T_FWD s1.upUs).set R.DEAL.STATUS.CODE 1
    let s3 := (s2.setCeiling).setV (2 * s2.fld R.CADENCE.VCORE.CEILING)
    let s4 := (((s3.bankStates).showShared).startPools).startFlow
    let s5 := s4.each ((List.range 8).filter fun n => s4.domOn (104 + n)) State.longWindow
    let s6 := s5.each ((recsIn d 4).map fun r => beAt r 0 1).eraseDups State.armGates
    s6.startFloor.releaseOutputs

/-! ## The Deck during the Deal (R52, R57, R67) -/

/-- The Deal watchdog. -/
def State.dealWatchdog (s : State) : State :=
  if s.deal.running && s.isDue .dealWatch then s.dealFail 0x25 else s

/-- DECK_PRES_N rises: before step 7 has passed the Deal ends. -/
def State.deckLost (s : State) : State :=
  if s.deal.running && !s.deal.checked && decide (2 ≤ s.fld R.DEAL.STATUS.STEP) then
    let s1 := (({ s with sup := { s.sup with deckPresN := true } }.setB R.DEAL.DECK_STATE.PRESENT false).setB R.DEAL.DECK_STATE.PWR_ON false).setB
      R.DEAL.DECK_STATE.DEALT false
    s1.dealFail 0x12
  else s

end Sys2Proof.Machine
end

