-- ==== Sys2Proof/Machine/Trust.lean ====
section
/-! DEFINITION. The rollback floor, attestation, and what time ends of a debug unlock (R117, R118, R121-R128). -/
namespace Sys2Proof.Machine

/-! ## The floor (R117, R118) -/

/-- The floor bits are fused in ascending order up to the accepted VERSION; `good` of them read back before one does not. -/
def State.fuseFloor (s : State) (good : Nat) : State :=
  let v := s.fld R.DEAL.IMAGE_VER.VER
  let f := s.trust.otp.floor
  if v ≤ f then s
  else
    let n := min v (f + good)
    let s1 := { s with trust := { s.trust with otp := { s.trust.otp with floor := n } } }.set R.SEC.FLOOR.FLOOR n
    if n = v then ((s1.setB R.SEC.STATUS.FLOOR_PENDING false).disarm .floorDelay).showTarget
    else (s1.setB R.SEC.STATUS.FLOOR_PENDING true).detect 31

/-- DELAY has run since commit, and nothing stands against the advance (R118). -/
def State.floorMay (s : State) : Bool :=
  s.on R.DEAL.STATUS.FWD && s.isDue .floorDelay && !s.deal.foldSince && decide (s.deal.maxVersion ≤ s.fld R.DEAL.IMAGE_VER.VER)
/-- The timed advance is due: it may take place, and it has bits to fuse. -/
def State.floorDue (s : State) : Bool := s.floorMay && decide (s.trust.otp.floor < s.fld R.DEAL.IMAGE_VER.VER)
/-- The timed advance. -/
def State.floorTimed (s : State) (good : Nat) : State := if s.floorMay then s.fuseFloor good else s

/-! ## Attestation (R121-R123) -/

/-- A request that gets a statement (R121). -/
def attReqOk (r : List Byte) : Bool := decide (r.length = 40) && decide (r.take 4 = ascii "AQAQ" ∧ beAt r 4 2 = 1 ∧ beAt r 6 2 ≤ 1)

/-- The queue of requests takes one more (R123, R131). -/
def State.attFree (s : State) : Bool := s.keysOk && decide (s.trust.attQ.length < 4)

/-- A request joins the queue. -/
def State.askStatement (s : State) (r : List Byte) (peer : Option NetPeer) : State :=
  { s with trust := { s.trust with attQ := s.trust.attQ ++ [{ nonce := slice r 8 32, cert := decide (beAt r 6 2 = 1), peer := peer }] } }

/-- The 256 bytes that a statement signs (R122). -/
def State.statementBody (s : State) (nonce : List Byte) : List Byte :=
  ascii "AQAT" ++ beBytes 2 1 ++ beBytes 2 0x160 ++ nonce ++ beBytes 16 deviceId ++ beBytes 48 s.trust.otp.ownerHash ++
    (List.range 12).flatMap (fun k => beBytes 4 (s.fld (R.DEAL.IMAGE_HASH_k.HASH k))) ++
    beBytes 1 (s.fld R.DEAL.IMAGE_VER.VER) ++ beBytes 1 (s.fld R.DEAL.STATUS.SLOT) ++ beBytes 1 s.trust.otp.floor ++
    beBytes 1 (s.fld R.SEC.STATUS.DEBUG) ++ beBytes 4 s.deal.buildSerial ++ beBytes 4 Config.dealerRomVersion.toNat ++
    beBytes 4 Config.servicesRomVersion.toNat ++ (match (if (List.range 4).any fun c => s.on (R.SVC.MC_STATUS.PATCH_OFF c) then none else s.deal.patch) with
      | some p => sha384 p
      | none => beBytes 48 0) ++
    beBytes 1 (s.fld R.SEC.STATUS.SCOPE) ++ beBytes 1 0 ++ beBytes 2 (s.fld R.NLINK.SEAT.SEAT) ++ beBytes 4 s.trust.unlocks ++
    beBytes 8 s.upMs ++ beBytes 4 (s.fld R.DEAL.DEAL_COUNT.COUNT) ++ beBytes 4 (s.fld R.SEC.ATTEST_COUNT.SEQ) ++
    beBytes 16 s.deckSerial

/-- The key store begins a signature: the oldest request leaves the queue with its statement, and its certificate where asked. -/
def State.sign (s : State) : State × Option (AttReq × List Byte) :=
  match s.trust.attQ with
  | [] => (s, none)
  | r :: rest =>
    if !s.keysOk || (s.running .attest && !s.isDue .attest) then (s, none)
    else
      let s1 := ({ s with trust := { s.trust with attQ := rest } }.bump R.SEC.ATTEST_COUNT.SEQ).arm .attest (msec 20)
      let body := s1.statementBody r.nonce
      let out := body ++ ecSign identityKey (sha384 body) (ephOf s1.freeNow) ++ (if r.cert then deviceCert else [])
      (s1.usedFree, some (r, out))

/-! ## What time ends (R125, R127, R128) -/

/-- The outstanding challenge expires. -/
def State.challengeExpiry (s : State) : State :=
  if s.isDue .challenge then { s with trust := { s.trust with challenge := none } }.disarm .challenge else s
/-- DURATION has elapsed. -/
def State.unlockExpiry (s : State) : State := if s.isDue .unlock then s.endUnlock else s
/-- Challenges may be issued again. -/
def State.backoffEnd (s : State) : State := if s.isDue .backoff then s.disarm .backoff else s

/-! ## Keys of a signer (R114-R116, R129) -/

/-- NOT_AFTER has not passed, as far as the gate-time instance knows (R115). -/
def State.inDate (s : State) (d : Delegate) : Bool :=
  let t := s.journalTime
  decide (d.notAfter = 0 ∨ t = 0 ∨ t < 946684800 + (d.notAfter + 1) * 86400)

/-- The public key of a runtime signer: 0xFF the owner root, else a kept delegate, in date. -/
def State.runtimeSigner (s : State) (n : Nat) : Option (List Byte × Nat) :=
  if n = 0xFF then s.trust.rootKey.map fun k => (k, 15)
  else match s.trust.delegates.find? fun d => decide (d.pos = n) with
    | some d => if s.inDate d then some (d.key, d.usage) else none
    | none => none

end Sys2Proof.Machine
end

