-- ==== Sys2Proof/Machine/DealCmds.lean ====
section
/-! DEFINITION. The commands of the Deal, the Deck and the trust timers (R47-R60, R67-R70, R91-R98, R118, R125-R128). -/
namespace Sys2Proof.Machine

/-- DEALER_START (R47 steps 1 to 3): what the Dealer finds, and the junction in tenths of a degree Celsius. -/
def execDealerStart (romOk otpOk idOk selfTestOk keysOk deckPresent : Bool) (junction : Int) (bandOk : Bool) (s : State) : Out State :=
  fin (s.dealerStart { romOk := romOk, otpOk := otpOk, idOk := idOk, selfTestOk := selfTestOk, keysOk := keysOk,
                       deckPresent := deckPresent, junction := junction, bandOk := bandOk })

/-- DECK_READ_FRAME (R70): a frame of 4,096 bytes of page `page` with the CRC that follows it. -/
def execDeckReadFrame (page : Nat) (data : List Byte) (crc : BitVec 32) (s : State) : Out State :=
  fin (if s.deal.running then s.dealFrame page data crc.toNat else s.runtimeFrame page data crc.toNat)

/-- DRAM_INIT_COMPLETE (R47 step 3). -/
def execDramInitComplete (ok : Bool) (s : State) : Out State := fin (s.dramInitDone ok)

/-- MEMTEST_COMPLETE (R47 step 4). -/
def execMemtestComplete (ok : Bool) (s : State) : Out State := fin (s.memtestDone ok)

/-- BUCKET_CLEAR_COMPLETE (R47 step 6). -/
def execBucketClearComplete (ok : Bool) (s : State) : Out State := fin (s.bucketsCleared ok)

/-- IMAGE_STAGED (R47 step 5). -/
def execImageStaged (s : State) : Out State := fin s.stageImage

/-- SIGNATURE_CHECK_COMPLETE (R81, R47 step 7): `fuseFail` is the stage at which the fusing of a claim fails, 0 where it does not. -/
def execSignatureCheckComplete (fuseFail : Fin 4) (s : State) : Out State := fin (s.signatureDone fuseFail.val)

/-- DEAL_APPLY (R83). -/
def execDealApply (s : State) : Out State := fin s.applyImage

/-- DEAL_COMMIT (R53, R623). -/
def execDealCommit (s : State) : Out State := fin s.commit

/-- DEAL_WATCHDOG (R52). -/
def execDealWatchdog (s : State) : Out State := fin s.dealWatchdog

/-- DECK_LOST (R57): DECK_PRES_N rises before step 7 has passed. -/
def execDeckLost (s : State) : Out State := fin s.deckLost

/-- DECK_PROGRAM_COMPLETE (R69): `err` is the ERROR bit. -/
def execDeckProgramComplete (err : Bool) (s : State) : Out State := fin (s.programDone err)

/-- DECK_ERASE_COMPLETE (R69): `err` is the ERROR bit. -/
def execDeckEraseComplete (err : Bool) (s : State) : Out State := fin (s.eraseDone err)

/-- DECK_OVERCURRENT (R67): DECK_PWR is switched off; in the Deal that ends it, later it is a removal. -/
def execDeckOvercurrent (s : State) : Out State :=
  fin (if !s.on R.DEAL.DECK_STATE.PWR_ON then s
       else if s.deal.running then ((s.setB R.DEAL.DECK_STATE.PWR_ON false).setB R.DEAL.DECK_STATE.DEALT false).dealFail 0x11
       else s.deckRemoved.setB R.DEAL.DECK_STATE.PRESENT (!s.sup.deckPresN))

/-- DECK_REMOVED (R97): DECK_PRES_N has been high for 10 ms. -/
def execDeckRemoved (s : State) : Out State :=
  fin (if s.deal.running && !s.deal.checked then s.deckLost
       else
         let s1 := { s with sup := { s.sup with deckPresN := true } }
         if s.on R.DEAL.DECK_STATE.PRESENT || s.on R.DEAL.DECK_STATE.PWR_ON then s1.deckRemoved else s1)

/-- DECK_POWER_RETURN (R98): DECK_PRES_N has been low for 100 ms. -/
def execDeckPowerReturn (s : State) : Out State :=
  fin (if s.deal.running || !s.sup.started then { s with sup := { s.sup with deckPresN := false } } else s.deckPower)

/-- DECK_IDENTITY_CHECK (R98): the identity page as read, none where its read failed twice. -/
def execDeckIdentityCheck (page : Option (List Byte)) (s : State) : Out State := fin (s.deckIdentity page)

/-- JOURNAL_APPEND (R91, R94). -/
def execJournalAppend (s : State) : Out State := fin (if s.mayAppend then s.startAppend else s)

/-- JOURNAL_BUDGET_TICK (R94). -/
def execJournalBudgetTick (s : State) : Out State := fin s.budgetTick

/-- FLOOR_ADVANCE_TIMED (R118): `good` floor bits read back before one does not. -/
def execFloorAdvanceTimed (good : Nat) (s : State) : Out State := fin (s.floorTimed good)

/-- CHALLENGE_EXPIRY (R125). -/
def execChallengeExpiry (s : State) : Out State := fin s.challengeExpiry

/-- UNLOCK_EXPIRY (R127). -/
def execUnlockExpiry (s : State) : Out State := fin s.unlockExpiry

/-- UNLOCK_BACKOFF_END (R128). -/
def execUnlockBackoffEnd (s : State) : Out State := fin s.backoffEnd

end Sys2Proof.Machine
end

