-- ==== Sys2Proof/Machine/ElvonCode.lean ====
section
/-! DEFINITION. The encoding of the Elvon instructions (R455-R458, R460, R462): the decoder, total on any word, and the encoder. -/
namespace Sys2Proof.Machine

/-- A register field. -/
def regAt (w : Word32) (lsb : Nat) : Reg := ⟨w.toNat / 2 ^ lsb % 32, Nat.mod_lt _ (by decide)⟩

/-- The ALU functions by code (R457), BSWAP and POPC with their rb field 0. -/
def decodeAlu (fn : Nat) : Option AluFn :=
  [AluFn.add, .sub, .and, .or, .xor, .sll, .srl, .sra, .slt, .sltu, .mul, .mulhu, .min, .minu, .bswap, .popc][fn]?

/-- Format C's channel or port operand; with IND 0 the rn field is 0, and with IND 1 NUM is not used (R455). -/
def cnumAt (w : Word32) : CNum :=
  { ind := w.getLsbD 15, rn := regAt w 10, num := w.extractLsb' 0 10 }

/-- The decoder (R455-R458). -/
def Elv.decode (w : Word32) : Elv :=
  let d := regAt w 21
  let a := regAt w 16
  let b := regAt w 11
  let c := regAt w 6
  let i : BitVec 16 := w.extractLsb' 0 16
  let fn := w.toNat % 64
  let long (f : LongFn) : Elv := if fn = 0 then .long f d a b c else .reserved w
  match w.toNat / 2 ^ 26 with
  | 0x01 =>
    match decodeAlu fn with
    | some f => if c.val = 0 ∧ ((f = .bswap ∨ f = .popc) → b.val = 0) then .alu f d a b else .reserved w
    | none => .reserved w
  | 0x02 => .imm .addi d a i
  | 0x03 => .imm .andi d a i
  | 0x04 => .imm .ori d a i
  | 0x05 => .imm .xori d a i
  | 0x06 =>
    let n : BitVec 6 := w.extractLsb' 0 6
    match w.toNat / 64 % 1024 with
    | 0 => .shifti .sll d a n
    | 1 => .shifti .srl d a n
    | 2 => .shifti .sra d a n
    | _ => .reserved w
  | 0x07 => if a.val = 0 then .lui d i else .reserved w
  | 0x08 => .imm .lhi d a i
  | 0x09 => .imm .slti d a i
  | 0x10 => .load 1 true d a i
  | 0x11 => .load 2 true d a i
  | 0x12 => .load 4 true d a i
  | 0x13 => .load 8 true d a i
  | 0x14 => .load 1 false d a i
  | 0x15 => .load 2 false d a i
  | 0x16 => .load 4 false d a i
  | 0x18 => .store 1 d a i
  | 0x19 => .store 2 d a i
  | 0x1A => .store 4 d a i
  | 0x1B => .store 8 d a i
  | 0x20 => .branch .eq d a i
  | 0x21 => .branch .ne d a i
  | 0x22 => .branch .lt d a i
  | 0x23 => .branch .ge d a i
  | 0x24 => .branch .ltu d a i
  | 0x25 => .branch .geu d a i
  | 0x26 => .jal d (w.extractLsb' 0 21)
  | 0x27 => .jalr d a i
  | 0x28 =>
    match [AtFn.add, .and, .or, .xor, .swap, .cas][fn % 8]? with
    | some f => if c.val = 0 ∧ fn < 16 then .atomic f (decide (8 ≤ fn)) d a b else .reserved w
    | none => .reserved w
  | 0x30 => .chin d a (cnumAt w)
  | 0x31 => if a.val = 0 then .chout d (cnumAt w) else .reserved w
  | 0x32 => if a.val = 0 ∧ d.val = 0 then .chend (cnumAt w) else .reserved w
  | 0x33 => .pin d a (cnumAt w)
  | 0x34 => if a.val = 0 then .pout d (cnumAt w) else .reserved w
  | 0x38 => long .bcopy
  | 0x39 => long .bfill
  | 0x3A => long .crc32c
  | 0x3B => long .hash
  | 0x3C => long .tsearch
  | 0x3E =>
    let imm := w.toNat % 4096
    match w.toNat / 4096 % 16 with
    | 0 => if d.val = 0 ∧ a.val = 0 ∧ imm = 0 then .await else .reserved w
    | 1 => if imm < 8 then .fence (w.extractLsb' 0 3) else .reserved w
    | 2 => .trap (w.extractLsb' 0 12)
    | 3 => .sleep a
    | 4 => .self d
    | _ => .reserved w
  | _ => .reserved w

/-! ## The encoder -/

/-- An instruction word from its opcode, the fields [25:21] and [20:16], and its low half. -/
def mkWord (op d a lo : Nat) : Word32 := BitVec.ofNat 32 (op * 2 ^ 26 + d * 2 ^ 21 + a * 2 ^ 16 + lo)

/-- Function codes (R457, R460). -/
def aluCode : AluFn → Nat
  | .add => 0 | .sub => 1 | .and => 2 | .or => 3 | .xor => 4 | .sll => 5 | .srl => 6 | .sra => 7
  | .slt => 8 | .sltu => 9 | .mul => 10 | .mulhu => 11 | .min => 12 | .minu => 13 | .bswap => 14 | .popc => 15
def immCode : ImmFn → Nat
  | .addi => 0x02 | .andi => 0x03 | .ori => 0x04 | .xori => 0x05 | .lhi => 0x08 | .slti => 0x09
def shCode : ShFn → Nat
  | .sll => 0 | .srl => 1 | .sra => 2
def brCode : BrFn → Nat
  | .eq => 0x20 | .ne => 0x21 | .lt => 0x22 | .ge => 0x23 | .ltu => 0x24 | .geu => 0x25
def atCode : AtFn → Nat
  | .add => 0 | .and => 1 | .or => 2 | .xor => 3 | .swap => 4 | .cas => 5
def longCode : LongFn → Nat
  | .bcopy => 0x38 | .bfill => 0x39 | .crc32c => 0x3A | .hash => 0x3B | .tsearch => 0x3C
def loadCode (width : Nat) (signed : Bool) : Nat :=
  if width = 1 then (if signed then 0x10 else 0x14)
  else if width = 2 then (if signed then 0x11 else 0x15)
  else if width = 4 then (if signed then 0x12 else 0x16)
  else 0x13
def storeCode (width : Nat) : Nat := if width = 1 then 0x18 else if width = 2 then 0x19 else if width = 4 then 0x1A else 0x1B
/-- The low half of format C. -/
def cnumCode (n : CNum) : Nat := b2n n.ind * 2 ^ 15 + n.rn.val * 2 ^ 10 + n.num.toNat

/-- The word of an instruction (R455).  A POUT of a whole command is several words; it has no word of its own. -/
def Elv.encode : Elv → Word32
  | .alu f rd ra rb => mkWord 0x01 rd.val ra.val (rb.val * 2 ^ 11 + aluCode f)
  | .imm f rd ra i => mkWord (immCode f) rd.val ra.val i.toNat
  | .shifti f rd ra n => mkWord 0x06 rd.val ra.val (shCode f * 64 + n.toNat)
  | .lui rd i => mkWord 0x07 rd.val 0 i.toNat
  | .load w sg rd ra i => mkWord (loadCode w sg) rd.val ra.val i.toNat
  | .store w rs ra i => mkWord (storeCode w) rs.val ra.val i.toNat
  | .branch f ra rb off => mkWord (brCode f) ra.val rb.val off.toNat
  | .jal rd off => BitVec.ofNat 32 (0x26 * 2 ^ 26 + rd.val * 2 ^ 21 + off.toNat)
  | .jalr rd ra i => mkWord 0x27 rd.val ra.val i.toNat
  | .atomic f w rd ra rb => mkWord 0x28 rd.val ra.val (rb.val * 2 ^ 11 + b2n w * 8 + atCode f)
  | .chin rd re n => mkWord 0x30 rd.val re.val (cnumCode n)
  | .chout rd n => mkWord 0x31 rd.val 0 (cnumCode n)
  | .chend n => mkWord 0x32 0 0 (cnumCode n)
  | .pin rd re n => mkWord 0x33 rd.val re.val (cnumCode n)
  | .pout rd n => mkWord 0x34 rd.val 0 (cnumCode n)
  | .long f ra rb rc rd => mkWord (longCode f) ra.val rb.val (rc.val * 2 ^ 11 + rd.val * 2 ^ 6)
  | .await => mkWord 0x3E 0 0 0
  | .fence m => mkWord 0x3E 0 0 (0x1000 + m.toNat)
  | .trap i => mkWord 0x3E 0 0 (0x2000 + i.toNat)
  | .sleep ra => mkWord 0x3E 0 ra.val 0x3000
  | .self rd => mkWord 0x3E rd.val 0 0x4000
  | .poutAll _ _ => 0
  | .reserved w => w

/-- An instruction that one word spells: the widths that R456 gives, and BSWAP and POPC with rb 0. -/
def Elv.ok : Elv → Bool
  | .alu f _ _ rb => !(decide (f = .bswap ∨ f = .popc)) || decide (rb.val = 0)
  | .load w sg _ _ _ => decide (w = 1 ∨ w = 2 ∨ w = 4) || (decide (w = 8) && sg)
  | .store w _ _ _ => decide (w = 1 ∨ w = 2 ∨ w = 4 ∨ w = 8)
  | .poutAll _ _ => false
  | .reserved _ => false
  | _ => true

end Sys2Proof.Machine
end

