-- ==== Sys2Proof/Machine/Mgmt.lean ====
section
/-! DEFINITION. The table ports of PARSE and TM (R597-R599) and the management buses and pins of TOP (R600-R603). -/
namespace Sys2Proof.Machine

/-! ## Table ports (R597-R599) -/

/-- The words of a row of `n` words, first word highest. -/
def rowWords (n v : Nat) : List Nat := (List.range n).map fun k => v / 2 ^ (32 * (n - 1 - k)) % 2 ^ 32

/-- The words of TP_DATA: those beyond the row read 0. -/
def State.tpShow (s : State) (b : Nat) (ws : List Nat) : State :=
  s.each (List.range 18) fun s k => s.set (R.TP.TP_DATA_w.DATA b k) (ws.getD k 0)

/-- The end of a table-port command: RESULT and INDEX. -/
def State.tpEnd (s : State) (b result idx : Nat) : State := (s.set (R.TP.TP_STATUS.RESULT b) result).set (R.TP.TP_STATUS.INDEX b) idx

/-- A row of the parse memories: nodes, arms, pattern slots, outcome actions; none where the index is out of range. -/
def State.parseRow (s : State) (mem idx : Nat) : Option (List Nat) :=
  match mem with
  | 0 => if idx < 256 then some (rowWords 4 (s.row 0x101 idx)) else none
  | 1 => if idx < 4096 then some (rowWords 4 (s.row 0x102 idx)) else none
  | 2 => if idx < 64 then some (rowWords 18 (s.row 0x103 idx)) else none
  | _ =>
    let a := s.outcomeAct idx
    if 1 ≤ idx ∧ idx ≤ 5 then some (rowWords 2 (a.1 * 2 ^ 62 + a.2.1 * 2 ^ 58 + a.2.2 * 2 ^ 54)) else none

/-- The base of the table port of an egress port 0-55, and of PARSE at 56. -/
def tpBase (p : Nat) : Nat := if p < 56 then 0x10100000 + 0x1000 * p else 0x100A0000

/-- A command of PARSE's table port. -/
def State.tpParse (s : State) (op mem idx : Nat) : State :=
  let b := tpBase 56
  if op ≠ 1 ∨ 3 < mem then s.tpEnd b 1 idx
  else match s.parseRow mem idx with
    | some ws => (s.tpShow b ws).tpEnd b 0 idx
    | none => s.tpEnd b 2 idx

/-- A command of the table port of an egress port: memory 0 the admin list, 1 the oper list. -/
def State.tpGate (s : State) (p op mem idx : Nat) : State :=
  let b := tpBase p
  if ¬ (mem = 0 ∧ (op = 1 ∨ op = 2) ∨ mem = 1 ∧ op = 1) then s.tpEnd b 1 idx
  else if 1024 ≤ idx then s.tpEnd b 2 idx
  else if op = 1 then (s.tpShow b (rowWords 2 (if mem = 0 then s.adminEntry p idx else s.operEntry p idx))).tpEnd b 0 idx
  else if s.on (R.TM.GATE_STATUS.PENDING p) then (s.setB (R.TM.STICKY.ADMIN_LOCKED p) true).tpEnd b 4 idx
  else
    -- the reserved bits [47:32] are ignored (R11, R342)
    let v := s.fld (R.TP.TP_DATA_w.DATA b 0) / 2 ^ 16 * 2 ^ 48 + s.fld (R.TP.TP_DATA_w.DATA b 1)
    ({ s with tm := { s.tm with admin := s.tm.admin.put 0 (p * 1024 + idx) v } }).tpEnd b 0 idx

/-- A table-port command: of egress port `p`, or of PARSE at 56. -/
def State.tpRun (s : State) (p op mem idx : Nat) : State := if p < 56 then s.tpGate p op mem idx else s.tpParse op mem idx

/-- A write of `TP_CMD`. -/
def State.tpWrite (s : State) (p v : Nat) : State :=
  if bitOf v 31 then s.tpRun p (bitsOf v 28 3) (bitsOf v 24 4) (bitsOf v 0 16) else s

/-! ## MDIO (R601) -/

/-- The frame in progress on controller `m`. -/
def State.mdioNow (s : State) (m : Nat) : Option (BitVec 32) := s.mgmt.mdio.get none m
def State.setMdio (s : State) (m : Nat) (w : Option (BitVec 32)) : State :=
  ({ s with mgmt := { s.mgmt with mdio := s.mgmt.mdio.put none m w } }).setB (R.TOP.MDIO_STATUS_m.BUSY m) w.isSome

/-- A write of `MDIO_CMD_m`. -/
def State.mdioWrite (s : State) (m v : Nat) : State :=
  if !bitOf v 31 then s
  else if s.on (R.TOP.MDIO_STATUS_m.BUSY m) then s.setB R.TOP.STICKY.MGMT_REFUSED true
  else if !bitOf v 30 && decide (bitsOf v 28 2 = 0 ∨ bitsOf v 28 2 = 3) then s.setB (R.TOP.MDIO_STATUS_m.BAD_CMD m) true
  else (s.setMdio m (some (BitVec.ofNat 32 v))).setB (R.TOP.MDIO_STATUS_m.BAD_CMD m) false

/-- The command word of a frame. -/
def mdioWord (c45 : Bool) (op phy reg data : Nat) : Nat :=
  2 ^ 31 + b2n c45 * 2 ^ 30 + op % 4 * 2 ^ 28 + phy % 32 * 2 ^ 21 + reg % 32 * 2 ^ 16 + data % 65536

/-- A frame reads: clause 22 OP 2, clause 45 OP 2 and 3. -/
def mdioReads (w : BitVec 32) : Bool := decide (bitsOf w.toNat 28 2 = 2) || (bitOf w.toNat 30 && decide (bitsOf w.toNat 28 2 = 3))

/-- The frame ends; `data` is what MDIO carried in a read frame. -/
def State.mdioDone (s : State) (m data : Nat) : State :=
  match s.mdioNow m with
  | none => s
  | some w => let s1 := s.setMdio m none
    if mdioReads w then s1.set (R.TOP.MDIO_STATUS_m.DATA m) data else s1

/-! ## I2C (R602) -/

/-- The transaction in progress on controller `i`. -/
def State.i2cNow (s : State) (i : Nat) : Option (BitVec 32 × BitVec 32) := s.mgmt.i2c.get none i
def State.setI2c (s : State) (i : Nat) (w : Option (BitVec 32 × BitVec 32)) : State :=
  ({ s with mgmt := { s.mgmt with i2c := s.mgmt.i2c.put none i w } }).setB (R.TOP.I2C_STATUS_i.BUSY i) w.isSome

/-- WLEN and RLEN of a command word; the reserved codes 5 to 7 count as 0 (R13). -/
def i2cLen (w k : Nat) : Nat := if bitsOf w k 3 ≤ 4 then bitsOf w k 3 else 0

/-- A write of `I2C_CMD_i`. -/
def State.i2cWrite (s : State) (i v : Nat) : State :=
  let op := bitsOf v 29 2
  if !bitOf v 31 then s
  else if s.on (R.TOP.I2C_STATUS_i.BUSY i) then s.setB R.TOP.STICKY.MGMT_REFUSED true
  else if op = 3 ∨ (op ≠ 0 ∧ i2cLen v 23 = 0) ∨ (op ≠ 1 ∧ i2cLen v 26 = 0) then s.set (R.TOP.I2C_STATUS_i.RESULT i) 4
  else s.setI2c i (some (BitVec.ofNat 32 v, BitVec.ofNat 32 (s.fld (R.TOP.I2C_WDATA_i.DATA i))))

/-- The command word of a transaction. -/
def i2cWord (op wlen rlen addr : Nat) : Nat := 2 ^ 31 + op % 4 * 2 ^ 29 + wlen % 8 * 2 ^ 26 + rlen % 8 * 2 ^ 23 + addr % 128 * 2 ^ 16

/-- The transaction ends.  Of a read, the first RLEN bytes of RDATA are those of the bus; what else RDATA then holds, and what it holds
after a read that failed, the spec does not say (free value). -/
def State.i2cDone (s : State) (i result data : Nat) : State :=
  match s.i2cNow i with
  | none => s
  | some (w, _) =>
    let s1 := (s.setI2c i none).set (R.TOP.I2C_STATUS_i.RESULT i) result
    if bitsOf w.toNat 29 2 = 0 then s1
    else
      let m := if result = 0 then 2 ^ (32 - 8 * i2cLen w.toNat 23) else 2 ^ 32
      (s1.set (R.TOP.I2C_RDATA_i.DATA i) (data / m * m + s1.freeNow % m)).usedFree

/-! ## GPIO (R600) -/

/-- Output levels rise, and fall. -/
def State.gpioSet (s : State) (v : Nat) : State := s.orIn R.TOP.GPIO_OUT_SET.OUT v
def State.gpioClr (s : State) (v : Nat) : State := s.clrIn R.TOP.GPIO_OUT_SET.OUT v

end Sys2Proof.Machine
end

