-- ==== Sys2Proof/Machine/Dram.lean ====
section
/-! DEFINITION. The commands of the DRAM controllers (R519-R535, R542): completions, refresh, bands, calibration and scrub. -/
namespace Sys2Proof.Machine

/-! ## Commands -/

/-- DRAM_REQUEST_COMPLETE (R521, R522, R532): a request of real-time port `port` (0-4) or a best-effort one (5 and above) at
`addr` completes.  `outcome`: 0 good data, 1 corrected, 2 uncorrectable once and good at the retry, 3 uncorrectable twice,
which leaves the block uncorrectable: a write of less than a block poisons it (R522). -/
def execDramRequestComplete (port : Nat) (addr : Addr) (outcome : Fin 4) (s : State) : Out State :=
  let a := addr.toNat
  if a < dramBase ∨ s.dramEnd ≤ a then fin s
  else
    let s1 := if port < 5 then s.rtDone port 1 else s
    fin (match outcome.val with
      | 0 => s1
      | 1 => (s1.readCorrected a).softBlock (a / 64)
      | 2 => s1.bump (R.DRAM.RD_RETRIES.COUNT (s1.ctrlOf a))
      | _ => (s1.readFailed a).hardBlock (a / 64))

/-- REFRESH_DUE (R529, R533): a refresh of controller `c` falls due.  In panic it is postponed, up to 8 intervals, and then
forced; the band switch that waits is made in it, when the new band's record is sound. -/
def execRefreshDue (c : Fin 8) (recordOk : Bool) (s : State) : Out State :=
  let k := c.val
  let p := s.fld (R.DRAM.STATUS.POSTPONED k)
  if s.anyPanic && decide (p < 8) then fin (s.set (R.DRAM.STATUS.POSTPONED k) (p + 1))
  else
    let s1 := if s.anyPanic then
        ((s.bump (R.DRAM.REFRESH_FORCED.COUNT k)).setB (R.DRAM.STICKY.REFRESH_FORCED_SEEN k) true).detect 233
      else s
    let s2 := s1.set (R.DRAM.STATUS.POSTPONED k) 0
    match s2.dram.want.get 0 k with
    | 0 => fin s2
    | b + 1 =>
      let s3 := { s2 with dram := { s2.dram with want := s2.dram.want.put 0 k 0 } }
      if recordOk then fin (((s3.set (R.DRAM.STATUS.BAND k) b).bump (R.DRAM.BAND_SWITCHES.COUNT k)).raise 194)
      else fin (((s3.setB (R.DRAM.STICKY.BAND_MISSED k) true).arm (.bandRetry k) (secs 1)).detect 234)

/-- Every controller whose band is not the task's, and whose retry is not still to come, is to switch at its next refresh. -/
def State.wantBand (s : State) : State :=
  s.each (List.range 8) fun s k =>
    if s.fld (R.DRAM.STATUS.BAND k) ≠ s.dram.band ∧ (!s.running (.bandRetry k) || s.isDue (.bandRetry k)) then
      { s.disarm (.bandRetry k) with dram := { s.dram with want := s.dram.want.put 0 k (s.dram.band + 1) } }
    else s

/-- BAND_TASK_TICK (R528, R529): the task reads the junction `tj`, in tenths of a degree, and moves by one band at its limits of
3 degrees. -/
def execBandTaskTick (tj : Int) (s : State) : Out State :=
  let t := tj
  let b := s.dram.band
  let b' := if bandHi b + 30 ≤ t ∧ b < 4 then b + 1 else if t ≤ bandLo b - 30 ∧ 0 < b then b - 1 else b
  let s1 := { s.setTemp R.DRAM.JUNCTION.TJ t with dram := { s.dram with band := b' } }
  let s2 := s1.wantBand
  fin (if t < -430 ∨ 1280 < t then s2.detect 234 else s2)

/-- MR4_READ (R530): the refresh-rate field of a channel. -/
def execMr4Read (ch : Fin 32) (rate : BitVec 5) (s : State) : Out State :=
  fin { s with dram := { s.dram with mr4 := s.dram.mr4.put 0 ch.val rate.toNat } }

/-- ZQ_CALIBRATION (R530): a calibration of controller `c` ends, or its PHY loses lock (`ok` false). -/
def execZqCalibration (c : Fin 8) (ok : Bool) (s : State) : Out State :=
  let s1 := s.setB (R.DRAM.STATUS.PHY_OK c.val) ok
  fin (if ok then s1 else s1.detect 236)

/-- The number of 64-byte blocks of DRAM. -/
def State.dramBlocks (s : State) : Nat := (s.dramEnd - dramBase) / 64

/-- SCRUB_BLOCK (R531, R535): the patrol scrub reads its next block.  `found`: 0 clean, 1 correctable, 2 uncorrectable. -/
def execScrubBlock (found : Fin 3) (s : State) : Out State :=
  if s.eff R.DRAM.SCRUB.HOURS = 0 ∨ s.anyPanic then fin s
  else
    let b := dramBase / 64 + s.dram.scrubAt
    let k := s.ctrlOf (64 * b)
    let s1 :=
      if found.val = 2 ∨ b ∈ s.dram.hard then
        let s2 := (s.hardBlock b).bump (R.DRAM.SCRUB_UE.COUNT k)
        ((s2.set (R.DRAM.UE_ADDR_LO.ADDR k) (64 * b % 2 ^ 32)).set (R.DRAM.UE_ADDR_HI.ADDR k) (64 * b / 2 ^ 32)).detect 235
      else if found.val = 1 ∨ b ∈ s.dram.soft then
        { s.bump (R.DRAM.SCRUB_CE.COUNT k) with dram := { s.dram with soft := s.dram.soft.filter (fun x => decide (x ≠ b)) } }
      else s
    let last := decide (s.dramBlocks ≤ s.dram.scrubAt + 1)
    let s3 := { s1 with dram := { s1.dram with scrubAt := if last then 0 else s.dram.scrubAt + 1 } }
    fin (if last then (s3.bump R.DRAM.SCRUB_PASSES.COUNT).raise 195 else s3)

/-- CE_RATE_CHECK (R542): each second, a rise of a controller's `CE_COUNT` above `CE_TH` raises F237. -/
def execCeRateCheck (s : State) : Out State :=
  fin (s.each (List.range 8) fun s k =>
    let n := s.fld (R.DRAM.CE_COUNT.COUNT k)
    let rise := (n + 2 ^ 32 - s.dram.ceMark.get 0 k) % 2 ^ 32
    let s1 := { s with dram := { s.dram with ceMark := s.dram.ceMark.put 0 k n } }
    if s.eff R.DRAM.CE_TH.COUNT < rise then ((s1.setB (R.DRAM.STICKY.CE_TH_SEEN k) true).raise 198).detect 237 else s1)

end Sys2Proof.Machine
end

