-- ==== Sys2Proof/Machine/FlowCmds.lean ====
section
/-! DEFINITION. The commands of the flow engine (R245-R283). -/
namespace Sys2Proof.Machine

/-- FLOW_DRAM_READ_COMPLETE (R245, R249, R254): the reads of the lookup of frame `i` complete.  Data that comes for a lookup
that has ended is dropped (R247). -/
def execFlowDramReadComplete (i : Nat) (s : State) : Out State :=
  match s.headOf i with
  | some e => fin (s.lookDone e)
  | none => fin s

/-- FLOW_LOOKUP_RETRY (R250). -/
def execFlowLookupRetry (i : Nat) (s : State) : Out State :=
  match s.headOf i with
  | some e =>
    if e.look = .retry then
      let a := s.readBuckets e true
      fin ((a.1.bump R.FLOW.RESULT_RETRIED.COUNT).putHead i a.2)
    else fin s
  | none => fin s

/-- FLOW_DEADLINE (R247): the head of frame `i` has waited for `CFG.DEADLINE`. -/
def execFlowDeadline (i : Nat) (s : State) : Out State :=
  match s.headOf i with
  | some e =>
    if e.open_ ∧ e.since + usec (s.eff R.FLOW.CFG.DEADLINE) ≤ s.now then fin (s.endAll e 7 0) else fin s
  | none => fin s

/-- TWIN_INSERT (R269). -/
def execTwinInsert (s : State) : Out State := fin s.insertTwin

/-- FLOW_PLACE (R249): an entry whose search found no chain waits for the slice's next expiry. -/
def execFlowPlace (i : Fin 4) (s : State) : Out State := fin (if (s.slc i.val).stuck then s else s.place i.val)

/-- FREE_INDEX_REFILL (R249): up to 1,024 indexes. -/
def execFreeIndexRefill (i : Fin 4) (s : State) : Out State :=
  fin (s.refill i.val (1024 - (s.slc i.val).free.length) (i.val * s.perSlice))

/-- FLOW_CACHE_WRITEBACK (R252): the record at a place of the cache is evicted, and written to DRAM where it is dirty. -/
def execFlowCacheWriteback (i : Fin 4) (set : Fin 4096) (way : Fin 8) (s : State) : Out State :=
  let k := i.val * 32768 + set.val * 8 + way.val
  fin ((s.writeBack k).setCache k none)

/-- FLOW_CACHE_HALF_DISABLE (R253): a write of 0 to `CTRL.CACHE_EN` bit `h`. -/
def execFlowCacheHalfDisable (who : Who) (h : Fin 2) (s : State) : Out State :=
  fin (s.cmdWrite who none false R.FLOW.CTRL.CACHE_EN.addr fun s => s.flowCtrl (s.flowCtrlNow &&& (0xFFFFFFFF - 2 ^ (12 + h.val))))

/-- FLOW_SLICE_DISABLE (R255): a write of 0 to `CTRL.SLICE_EN` bit `i`. -/
def execFlowSliceDisable (who : Who) (i : Fin 4) (s : State) : Out State :=
  fin (s.cmdWrite who none false R.FLOW.CTRL.SLICE_EN.addr fun s => s.flowCtrl (s.flowCtrlNow &&& (0xFFFFFFFF - 2 ^ (8 + i.val))))

/-- FLOW_SLICE_ENABLE (R255): a write of 1 to `CTRL.SLICE_EN` bit `i`. -/
def execFlowSliceEnable (who : Who) (i : Fin 4) (s : State) : Out State :=
  fin (s.cmdWrite who none false R.FLOW.CTRL.SLICE_EN.addr fun s => s.flowCtrl (s.flowCtrlNow ||| 2 ^ (8 + i.val)))

/-- FLOW_SLICE_REBUILD_DONE (R255); a slice that has been disabled again meanwhile stays quiesced. -/
def execFlowSliceRebuildDone (i : Fin 4) (s : State) : Out State :=
  if (s.slc i.val).rebuilding then
    fin ((s.modSlice i.val fun x => { x with rebuilding := false }).setBit R.FLOW.STATUS.SLICE_QUIESCED i.val
      (!s.bit R.FLOW.CTRL.SLICE_EN i.val))
  else fin s

/-- SWEEPER_VISIT (R256, R260): the next bucket of the slice, of its flush pass where `flush`. -/
def execSweeperVisit (i : Fin 4) (flush : Bool) (s : State) : Out State := fin (s.sweep i.val flush)

/-- FLOW_EXPIRY (R257, R258): the waiting expiry of record `r` takes its turn on its bucket. -/
def execFlowExpiry (r : BitVec 27) (s : State) : Out State := fin (s.expiryTurn r.toNat)

/-- EXPORT_BATCH_SEND (R259). -/
def execExportBatchSend (s : State) : Out State := fin s.sendBatch

/-- EXPORT_FLUSH_TIMER (R259): `EXPORT.FLUSH` ms after its first entry the open batch is due. -/
def execExportFlushTimer (s : State) : Out State :=
  if 0 < s.flow.batch ∧ s.flow.batchAt + msec (s.eff R.FLOW.EXPORT.FLUSH) ≤ s.now then
    fin { s with flow := { s.flow with batchDue := true } }
  else fin s

/-- EXPORT_STALL (R259): the wait for a buffer or for the channel has lasted longer than `EXPORT_STALL.TIME`. -/
def execExportStall (s : State) : Out State :=
  match s.flow.exportWait with
  | some t => if t + msec (s.eff R.FLOW.EXPORT_STALL.TIME) < s.now then fin ((s.detect 205).raise 126) else fin s
  | none => fin s

/-- A write of `KILL` with GO (R260). -/
def State.kill (s : State) (r : Nat) : State := if s.inTable r then s.askExpiry r 3 true else s

/-- FLOW_KILL (R260). -/
def execFlowKill (who : Who) (r : BitVec 27) (s : State) : Out State :=
  fin (s.cmdWrite who none false R.FLOW.KILL.GO.addr fun s => s.kill r.toNat)

/-- A write of `FLUSH` with GO (R260): a pass that has begun takes its profiles in and starts again. -/
def State.flushFlows (s : State) (all : Bool) (p : Nat) : State :=
  (s.each (List.range 4) fun s i => s.modSlice i fun x =>
    { x with flush := some (0, (match x.flush with
      | some e => e.2
      | none => 0) ||| (if all then 0xFFFF else 2 ^ p)) }).setB R.FLOW.STATUS.FLUSH_BUSY true

/-- FLOW_FLUSH (R260). -/
def execFlowFlush (who : Who) (all : Bool) (p : Fin 16) (s : State) : Out State :=
  fin (s.cmdWrite who none false R.FLOW.FLUSH.GO.addr fun s => s.flushFlows all p.val)

/-- A read of `PEEK_0` takes the whole record; an index out of range reads all 0 (R262). -/
def State.peekFlow (s : State) : State :=
  let r := s.fld R.FLOW.PEEK_INDEX.INDEX
  { s with flow := { s.flow with peek := if r < 4 * s.perSlice then s.record r else [] } }

/-- FLOW_PEEK_READ (R262). -/
def execFlowPeekRead (who : Who) (s : State) : Out State :=
  fin (s.cmdWrite who none false (R.FLOW.PEEK_k.DATA 0).addr State.peekFlow)

/-- SAMPLE_STEP_TIMER (R281): panic continues `STEP` us after the last change of N. -/
def execSampleStepTimer (i : Fin 4) (s : State) : Out State :=
  let x := s.slc i.val
  if s.bit R.FLOW.STATUS.PANIC i.val ∧ s.nOf i.val < s.eff R.FLOW.SAMPLE_CFG.N_MAX ∧
      x.nAt + 1000 * s.eff R.FLOW.SAMPLE_CFG.STEP ≤ s.mono then
    fin (s.setN i.val (s.fld (R.FLOW.SAMPLE_STATE.LOG2N i.val) + 1))
  else fin s

/-- SAMPLE_RELAX_TIMER (R281): no panic for `RELAX` us since it cleared, or since N last halved. -/
def execSampleRelaxTimer (i : Fin 4) (s : State) : Out State :=
  let x := s.slc i.val
  if !s.bit R.FLOW.STATUS.PANIC i.val ∧ 1 < s.nOf i.val ∧
      max x.calmAt x.nAt + 1000 * s.eff R.FLOW.SAMPLE_CFG.RELAX ≤ s.mono then
    fin (s.setN i.val (s.fld (R.FLOW.SAMPLE_STATE.LOG2N i.val) - 1))
  else fin s

/-- INSERT_DEFER_START (R283). -/
def execInsertDeferStart (i : Fin 4) (s : State) : Out State :=
  match (s.slc i.val).panicAt with
  | some t =>
    if t + 1000 * s.eff R.FLOW.DEFER_CFG.DEFER_AFTER ≤ s.mono ∧ s.nOf i.val = s.eff R.FLOW.SAMPLE_CFG.N_MAX ∧ ¬ s.deferring i.val then
      fin (((s.setBit R.FLOW.SAMPLE_STATE.DEFER i.val true).bump R.FLOW.DEFER_EPISODES.COUNT).detect 210)
    else fin s
  | none => fin s

end Sys2Proof.Machine
end

