-- ==== Sys2Proof/Machine/Egress.lean ====
section
/-! DEFINITION. The exception path and its descriptors, and the send requests (R22, R443-R446). -/
namespace Sys2Proof.Machine

/-! ## Exception descriptors (R444) -/

/-- The descriptor of a copy in buffer `i` of pool `k`; `seq` descriptors have been presented on its queue, this one included. -/
def State.descriptor (s : State) (f : Frm) (c : Copy) (k i seq : Nat) : List Word64 :=
  let ts := f.ts.getD (0, 0, 0)
  let p := f.parsed
  let w0 := s.bufAddr k i * 2 ^ 24 + s.stored c % 2 ^ 14 * 2 ^ 10 + k * 2 ^ 7
  let w1 := f.src % 64 * 2 ^ 58 + c.xcause % 256 * 2 ^ 50 + f.epoch % 4 * 2 ^ 48 + p.eoh % 512 * 2 ^ 39 +
    p.stack.length % 32 * 2 ^ 34 + p.outcome % 8 * 2 ^ 31 + b2n f.marked * 2 ^ 30 + b2n c.xmiss * 2 ^ 29 +
    c.xres % 16 * 2 ^ 25 + b2n p.cskip * 2 ^ 24 + f.tc % 16 * 2 ^ 20 + f.dp % 4 * 2 ^ 18 + b2n f.pass2 * 2 ^ 17 +
    b2n c.mirror * 2 ^ 16 + f.hash % 2 ^ 16
  let w2 := ts.2.1 % 2 ^ 48 * 2 ^ 16
  let w3 := ts.1 % 4 * 2 ^ 62 + ts.2.2 % 2 ^ 30 * 2 ^ 32 + seq % 2 ^ 32
  [BitVec.ofNat 64 w0, BitVec.ofNat 64 w1, BitVec.ofNat 64 w2, BitVec.ofNat 64 w3]

/-- The exception path starts to wait for a buffer, or ends its wait (R412). -/
def State.setExcWait (s : State) (w : Option Nat) : State := { s with tm := { s.tm with excWait := w } }

/-- The descriptors that wait on exception port `q`. -/
def State.descs (s : State) (q : Nat) : List (List Word64) := s.tm.desc.get [] q

/-- The head frame of Xq is copied into a pool buffer of owner 0, its descriptor presented and its cells freed (R22, R205); while
no buffer is available it stays queued.  `rd` as in `readCells`. -/
def State.exceptionCopy (s : State) (q rd k : Nat) : State :=
  match s.queue 56 q with
  | [] => s
  | c :: _ =>
    if !s.powered 149 then s
    else
      match c.frame.bind s.frame with
      | none => s.dequeue 56 q
      | some f =>
        match s.readCells c rd k with
        | (s1, false) => s1.dropHead 56 q c dCellCrc
        | (s1, true) =>
          let x := (s1.edIn f c).bytes
          match s1.take 0 x.length none with
          | (_, none) => if s1.tm.excWait.isSome then s1 else (s1.takeFailed true).setExcWait (some s1.now)
          | (s2, some (k, i)) =>
            let seq := s2.tm.descSeq.get 0 q + 1
            let s3 := s2.memPut (s2.bufAddr k i) x
            let s4 := { s3 with tm := { s3.tm with
              desc := s3.tm.desc.put [] q (s3.descs q ++ [s3.descriptor f c k i seq]),
              descSeq := s3.tm.descSeq.put 0 q seq } }
            (((s4.setExcWait none).raise (96 + q)).dequeue 56 q).dropCopy c

/-- The exception path has waited 10 ms for a buffer (R412); it goes on waiting, and a further 10 ms are reported again. -/
def State.exceptionStall (s : State) : State :=
  match s.tm.excWait with
  | some w => if w + msec 10 ≤ s.now then (s.setExcWait (some s.now)).detect 266 else s
  | none => s

/-- The next descriptor of Xq, for a thread whose pool owner is `owner`: its buffer is owned by the reader from then on
(R444, R541). -/
def State.excPop (s : State) (q owner : Nat) : Option (List Word64 × State) :=
  match s.descs q with
  | [] => none
  | d :: t =>
    let s1 := { s with tm := { s.tm with desc := s.tm.desc.put [] q t } }
    match s1.bufStart ((d.headD 0).toNat / 2 ^ 24) with
    | some (k, i) => some (d, s1.hold k i (some owner))
    | none => some (d, s1)

/-! ## Send requests (R446) -/

/-- The frame that a send request builds.  Its flow hash, which the spec does not state, is a free value; its drop precedence is
0, and its traffic class its queue. -/
def State.sentFrame (s : State) (q : Nat) : Frm :=
  { src := 64, cells := [], got := 0, head := [], len := none, whole := true, noCell := false, crcBad := false, tc := q, dp := 0,
    ts := none, pass2 := false, epoch := s.fld R.TABLES.RULESET_ACTIVE.BANK, counted := false, hash := s.freeNow % 65536,
    marked := false, kprof := 0, shim := none, parsed := Parsed.init, late := none, doom := 0, settled := true, rows := s.tabs.nWrites }

/-- The copy of a send request: none where a REMOTE request meets no route. -/
def State.sentCopy (s : State) (i : Nat) (f : Frm) (w0 w1 : Word64) : Option Copy :=
  let p := bitsOf w1.toNat 32 6
  let q := bitsOf w1.toNat 28 4
  let d := bitsOf w1.toNat 38 10
  let c := { mkCopy i p q with ets := if w0.toNat.testBit 8 then some (bitsOf w1.toNat 48 16) else none,
                               uncontrolled := w0.toNat.testBit 7 }
  if w0.toNat.testBit 6 then
    (linkOf (s.routeEntry d)).map fun l =>
      { c with port := 48 + l, shim := some (mkShim d p q f.hash f.epoch s.hopInit 0 false), seat := some (d, s.moves d) }
  else some c

/-- A request that is not admitted. -/
def State.injectRefused (s : State) : State := s.bump R.SVC.INJECT_REFUSED.COUNT

/-- The frame of a send request is admitted straight to its egress queue. -/
def State.inject (s : State) (w0 w1 : Word64) (x : List Byte) : State :=
  if s.on R.FAULT.STATE.FOLD then s.injectRefused
  else
    let y := s.usedFree.newFrame { s.sentFrame (bitsOf w1.toNat 28 4) with len := some (x.length + 4) }
    let s1 := y.1.append y.2 x
    match s1.frame y.2 with
    | none => s1.injectRefused
    | some f =>
      match s1.sentCopy y.2 f w0 w1 with
      | none => (s1.forget y.2).noRoute.injectRefused
      | some c =>
        if !s1.portTakes c.port c.uncontrolled then ((s1.forget y.2).countAt c.port dPortDown).injectRefused
        else
          match if f.crcBad then (s1, none) else s1.enqueueFrame y.2 0 [c] with
          | (s2, none) => (s2.forget y.2).injectRefused
          | (s2, some _) => s2.bump R.SVC.INJECTED.COUNT

/-- A send request: the buffer is copied into cells, admitted, and given back where the request says so (R446). -/
def State.sendReq (s : State) (_t : Nat) (w0 w1 : Word64) : State :=
  let a := w0.toNat / 2 ^ 24
  let n := bitsOf w0.toNat 10 14
  let s1 := match s.memRead a n with
    | (s1, true) => s1.inject w0 w1 (s1.bytesAt a n)
    | (s1, false) => s1.injectRefused
  if w0.toNat.testBit 9 then
    (match s1.bufStart a with
     | some (k, i) => s1.giveBuf k i
     | none => s1)
  else s1

end Sys2Proof.Machine
end

