-- ==== Sys2Proof/Machine/Serv.lean ====
section
/-! DEFINITION. What the built-in services share: their parameters, the frames they take and send, ARP and the next hops (R490-R497).
Which service runs, its status header and its restart are in Threads.lean and Svc.lean. -/
namespace Sys2Proof.Machine

/-! ## Parameters (R495, R496) -/

/-- A numeric parameter, or its default. -/
def State.paramNat (s : State) (svc p dflt : Nat) : Nat :=
  match s.param svc p with
  | some b => ofBe b
  | none => dflt
/-- IF_PORT, VLAN, ADDR, PREFIX, GATEWAY and QUEUE of a service. -/
def State.svcPort (s : State) (k : Nat) : Nat := s.paramNat k 0x100 (Config.ifPort k % 48)
def State.svcVlan (s : State) (k : Nat) : Nat := s.paramNat k 0x101 0
def State.svcAddr (s : State) (k : Nat) : Nat := s.paramNat k 0x102 0
def State.svcPrefix (s : State) (k : Nat) : Nat := s.paramNat k 0x103 24
def State.svcGateway (s : State) (k : Nat) : Nat := s.paramNat k 0x104 0
def State.svcQueue (s : State) (k : Nat) : Nat := s.paramNat k 0x107 12

/-- A frame that a service drops (R494). -/
def State.svcDrop (s : State) (k : Nat) : State := s.bumpSvcStat k 0x18 8

/-! ## Taking frames (R491, R492) -/

/-- The bytes of the frame at the head of Xq, without taking it. -/
def State.headFrame (s : State) (q : Nat) : List Byte :=
  match s.descs q with
  | d :: _ => s.bytesAt ((d.headD 0).toNat / 2 ^ 24) (bitsOf (d.headD 0).toNat 10 14)
  | [] => []

/-- Service `k` takes the next frame of Xq and gives its buffer back: the descriptor and the bytes, none of these where DRAM cannot
give them. -/
def State.svcTake (s : State) (k q : Nat) : Option (List Word64 × List Byte × State) :=
  match s.excPop q 3 with
  | none => none
  | some (d, s1) =>
    let a := (d.headD 0).toNat / 2 ^ 24
    let r := s1.memRead a (bitsOf (d.headD 0).toNat 10 14)
    let x := if r.2 then r.1.bytesAt a (bitsOf (d.headD 0).toNat 10 14) else []
    let s2 := match r.1.bufStart a with
      | some (p, i) => r.1.giveBuf p i
      | none => r.1
    some (d, x, s2.bumpSvcStat k 8 8)

/-- The ingress port of a descriptor (R444). -/
def descPort (d : List Word64) : Nat := bitsOf (d.getD 1 0).toNat 58 6

/-- EtherType and payload of a frame, up to two VLAN tags passed over. -/
def ethBody : Nat → List Byte → Nat × List Byte
  | 0, l => (beAt l 0 2, l.drop 2)
  | n + 1, l => if beAt l 0 2 = 0x8100 ∨ beAt l 0 2 = 0x88A8 then ethBody n (l.drop 4) else (beAt l 0 2, l.drop 2)
def ethIn (f : List Byte) : Nat × List Byte := ethBody 2 (f.drop 12)

/-- A UDP datagram over IPv4, received or to be sent. -/
structure Udp where
  src : Nat
  dst : Nat
  sport : Nat
  dport : Nat
  data : List Byte
  deriving DecidableEq, Repr

/-- The pseudo header of UDP. -/
def udpPseudo (src dst n : Nat) : List Byte := beBytes 4 src ++ beBytes 4 dst ++ [0, 17] ++ beBytes 2 n

/-- The UDP datagram of a frame: whole, unfragmented, and with sound checksums. -/
def udpIn (f : List Byte) : Option Udp :=
  let e := ethIn f
  let b := e.2
  let hl := 4 * (beAt b 0 1 % 16)
  let n := beAt b 2 2
  let u := slice b hl (n - hl)
  let m := beAt u 4 2
  let v : Udp := { src := beAt b 12 4, dst := beAt b 16 4, sport := beAt u 0 2, dport := beAt u 2 2, data := slice u 8 (m - 8) }
  if e.1 = 0x800 ∧ beAt b 0 1 / 16 = 4 ∧ 20 ≤ hl ∧ hl + 8 ≤ n ∧ n ≤ b.length ∧ beAt b 9 1 = 17 ∧ beAt b 6 2 % 2 ^ 14 = 0 ∧
      fold16 (sum16 (b.take hl)) = 0xFFFF ∧ 8 ≤ m ∧ m ≤ u.length ∧
      (beAt u 6 2 = 0 ∨ fold16 (sum16 (udpPseudo v.src v.dst m ++ u.take m)) = 0xFFFF) then some v else none

/-! ## Sending frames (R446, R497) -/

/-- A frame without FCS, padded to 60 bytes. -/
def ethOut (dst src : List Byte) (vlan typ : Nat) (body : List Byte) : List Byte :=
  let l := dst ++ src ++ (if vlan = 0 then [] else beBytes 2 0x8100 ++ beBytes 2 vlan) ++ beBytes 2 typ ++ body
  l ++ List.replicate (60 - l.length) 0

/-- An IPv4 packet with a UDP datagram; its identification and its TTL are open. -/
def ipOut (u : Udp) (id ttl : Nat) : List Byte :=
  let m := 8 + u.data.length
  let h (c : Nat) : List Byte := [0x45, 0] ++ beBytes 2 (20 + m) ++ beBytes 2 id ++ [0, 0] ++ beBytes 1 ttl ++ [17] ++ beBytes 2 c ++
    beBytes 4 u.src ++ beBytes 4 u.dst
  let p (c : Nat) : List Byte := beBytes 2 u.sport ++ beBytes 2 u.dport ++ beBytes 2 m ++ beBytes 2 c ++ u.data
  let c := 65535 - fold16 (sum16 (udpPseudo u.src u.dst m ++ p 0))
  h (65535 - fold16 (sum16 (h 0))) ++ p (if c = 0 then 65535 else c)

/-- A frame of a service is sent: through a pool buffer of the services' owner, which the request gives back. -/
def State.svcEmit (s : State) (f : SvcFrame) : State :=
  match s.take 3 f.bytes.length none with
  | (s1, none) => (s1.takeFailed false).svcDrop f.svc
  | (s1, some (p, i)) =>
    let a := s1.bufAddr p i
    let s2 := s1.memPut a f.bytes
    let w0 := a * 2 ^ 24 + f.bytes.length % 2 ^ 14 * 2 ^ 10 + 512 + (if f.unc then 128 else 0)
    let w1 := f.port % 64 * 2 ^ 32 + s.svcQueue f.svc % 16 * 2 ^ 28
    (s2.sendReq (svcThread f.svc) (BitVec.ofNat 64 w0) (BitVec.ofNat 64 w1)).bumpSvcStat f.svc 0x10 8

/-- The MAC address in the shared cache. -/
def State.arpOf (s : State) (ip : Nat) : Option (Nat × Nat × Nat) := s.serv.arp.find? fun e => decide (e.1 = ip)

/-- An ARP message (RFC 826) of service `k`: its operation, and the target's addresses. -/
def State.arpFrame (s : State) (k op tha tpa : Nat) : SvcFrame :=
  let p := s.svcPort k
  let body := beBytes 2 1 ++ beBytes 2 0x800 ++ [6, 4] ++ beBytes 2 op ++ s.macAddr p ++ beBytes 4 (s.svcAddr k) ++ beBytes 6 tha ++ beBytes 4 tpa
  let dst := if op = 1 then beBytes 6 (2 ^ 48 - 1) else beBytes 6 tha
  { svc := k, hop := none, port := p, unc := false, bytes := ethOut dst (s.macAddr p) (s.svcVlan k) 0x806 body, since := s.now }

/-- A frame leaves for its next hop; one whose next hop is unresolved waits, and is asked for.  An entry of the cache that is 60 s old
is asked for again. -/
def State.svcGo (s : State) (f : SvcFrame) : State :=
  match f.hop with
  | none => s.svcEmit f
  | some ip =>
    match s.arpOf ip with
    | some (_, mac, t) =>
      let s1 := s.svcEmit { f with bytes := beBytes 6 mac ++ f.bytes.drop 6 }
      if t + secs 60 ≤ s.now then s1.svcEmit (s1.arpFrame f.svc 1 0 ip) else s1
    | none =>
      ({ s with serv := { s.serv with unresolved := s.serv.unresolved ++ [{ f with since := s.now }] } }).svcEmit (s.arpFrame f.svc 1 0 ip)

/-- The messages held during Fold leave in order (R497). -/
def State.svcFlush (s : State) : State :=
  if s.on R.FAULT.STATE.FOLD then s
  else ({ s with serv := { s.serv with heldMsgs := [] } }).each s.serv.heldMsgs State.svcGo

/-- A service sends a message: in Fold it is held, up to 64 for each service. -/
def State.svcSend (s : State) (f : SvcFrame) : State :=
  if s.on R.FAULT.STATE.FOLD then
    if 64 ≤ (s.serv.heldMsgs.filter fun x => decide (x.svc = f.svc)).length then s.svcDrop f.svc
    else { s with serv := { s.serv with heldMsgs := s.serv.heldMsgs ++ [f] } }
  else s.svcFlush.svcGo f

/-- The next hop of an address for service `k`: 0 none. -/
def State.nextHop (s : State) (k ip : Nat) : Nat :=
  let m := 2 ^ (32 - s.svcPrefix k)
  if s.svcAddr k / m = ip / m then ip else s.svcGateway k

/-- A UDP datagram of service `k` as a frame to a MAC address; it uses two free values. -/
def State.udpFrame (s : State) (k mac dst sport dport : Nat) (data : List Byte) : SvcFrame :=
  let p := s.svcPort k
  let u : Udp := { src := s.svcAddr k, dst := dst, sport := sport, dport := dport, data := data }
  let b := ethOut (beBytes 6 mac) (s.macAddr p) (s.svcVlan k) 0x800 (ipOut u s.freeNow s.usedFree.freeNow)
  { svc := k, hop := none, port := p, unc := false, bytes := b, since := s.now }

/-- A service sends a UDP datagram from its address. -/
def State.udpSend (s : State) (k dst sport dport : Nat) (data : List Byte) : State :=
  let f := s.udpFrame k (2 ^ 48 - 1) dst sport dport data
  let s1 := s.usedFree.usedFree
  if dst = 2 ^ 32 - 1 then s1.svcSend f
  else if s.nextHop k dst = 0 then s1.svcDrop k
  else s1.svcSend { f with hop := some (s.nextHop k dst) }

/-! ## ARP (R497) -/

/-- The cache takes an entry; the oldest of 16 goes. -/
def State.arpPut (s : State) (ip mac : Nat) : State :=
  let l := s.serv.arp.filter fun e => decide (e.1 ≠ ip)
  { s with serv := { s.serv with arp := (if l.length < 16 then l else l.drop 1) ++ [(ip, mac, s.now)] } }

/-- The frames that waited for a next hop leave. -/
def State.arpRelease (s : State) (ip : Nat) : State :=
  let go := s.serv.unresolved.filter fun f => decide (f.hop = some ip)
  ({ s with serv := { s.serv with unresolved := s.serv.unresolved.filter fun f => decide (f.hop ≠ some ip) } }).each go State.svcSend

/-- An enabled service has this address. -/
def State.svcWithAddr (s : State) (ip : Nat) : Option Nat :=
  (List.range 12).find? fun k => decide (k ∈ [2, 5, 6, 7, 8, 10]) && s.svcOn k && decide (s.svcAddr k = ip ∧ ip ≠ 0)

/-- An ARP message arrives at the endpoint. -/
def State.arpIn (s : State) (b : List Byte) : State :=
  let sha := beAt b 8 6
  let spa := beAt b 14 4
  let tpa := beAt b 24 4
  let mine := s.svcWithAddr tpa
  let known := (s.arpOf spa).isSome || s.serv.unresolved.any fun f => decide (f.hop = some spa)
  let s1 := if spa ≠ 0 ∧ (known ∨ mine.isSome) then (s.arpPut spa sha).arpRelease spa else s
  match mine with
  | some k => if beAt b 6 2 = 1 then s1.svcSend (s1.arpFrame k 2 sha spa) else s1
  | none => s1

/-- An ARP message for Ethernet and IPv4. -/
def arpOk (f : List Byte) : Bool :=
  let e := ethIn f
  decide (e.1 = 0x806 ∧ 28 ≤ e.2.length ∧ beAt e.2 0 2 = 1 ∧ beAt e.2 2 2 = 0x800 ∧ beAt e.2 4 2 = 0x604 ∧ (beAt e.2 6 2 = 1 ∨ beAt e.2 6 2 = 2))

/-- Frames that have waited 1 s for their next hop are dropped. -/
def State.arpTimeout (s : State) : State :=
  let late := s.serv.unresolved.filter fun f => decide (f.since + secs 1 ≤ s.now)
  ({ s with serv := { s.serv with unresolved := s.serv.unresolved.filter fun f => decide (s.now < f.since + secs 1) } }).each late
    fun s f => s.svcDrop f.svc

end Sys2Proof.Machine
end

