-- ==== Sys2Proof/Machine/Endpoint.lean ====
section
/-! DEFINITION. The management endpoint and the attestation responder: messages, nonces, signed commands, the staging of an image, and
the acceptance of an update (R99-R101, R121-R123, R513-R517). -/
namespace Sys2Proof.Machine

/-! ## Messages (R513) -/

/-- A message of the endpoint: its peer, its TYPE and its body. -/
structure EpMsg where
  peer : NetPeer
  typ : Nat
  body : List Byte
  deriving DecidableEq, Repr

/-- The endpoint message of a frame, none where the frame is no such message. -/
def State.epMsg (s : State) (f : List Byte) : Option EpMsg :=
  match udpIn f with
  | none => none
  | some u =>
    if u.dst = s.svcAddr 10 ∧ s.param 10 0x106 = some (beBytes 2 u.dport) ∧ 12 ≤ u.data.length ∧ u.data.take 4 = ascii "AQMP" ∧
        beAt u.data 4 2 = 1 ∧ 1 ≤ beAt u.data 6 1 ∧ beAt u.data 6 1 ≤ 5 then
      some { peer := { ip := u.src, port := u.sport, req := beAt u.data 8 4 }, typ := beAt u.data 6 1, body := u.data.drop 12 }
    else none

/-- A reply of the endpoint. -/
def State.epReply (s : State) (p : NetPeer) (typ : Nat) (body : List Byte) : State :=
  s.udpSend 10 p.ip (s.paramNat 10 0x106 0) p.port
    (ascii "AQMP" ++ beBytes 2 1 ++ beBytes 1 (0x80 + typ) ++ beBytes 1 0 ++ beBytes 4 p.req ++ body)
/-- The reply to a command: RESULT and SEQ. -/
def State.cmdReply (s : State) (p : NetPeer) (result seq : Nat) : State :=
  s.epReply p 2 (beBytes 1 result ++ beBytes 3 0 ++ beBytes 8 seq)

/-! ## Commands (R515) -/

/-- OP, ARG and the signed bytes of a COMMAND body. -/
def cmdOp (b : List Byte) : Nat := beAt b 48 2
def cmdArgLen (b : List Byte) : Nat := beAt b 50 2
def cmdArg (b : List Byte) : List Byte := slice b 52 (cmdArgLen b)
def cmdTail (b : List Byte) : List Byte := b.drop (52 + cmdArgLen b)
/-- The ARG length of an OP, none where it is reserved. -/
def cmdOpLen (op : Nat) : Option Nat := if op = 1 then some 1 else if op = 2 ∨ op = 4 then some 0 else if op = 3 then some 52 else none
/-- Lengths, OP and ALG are sound. -/
def cmdFormOk (b : List Byte) : Bool :=
  decide (52 ≤ b.length ∧ cmdOpLen (cmdOp b) = some (cmdArgLen b) ∧ (cmdTail b).length = 100 ∧ beAt (cmdTail b) 1 1 = 1)

/-- The nonces that are outstanding and unexpired (R514). -/
def State.liveNonces (s : State) : List (List Byte × Nat) := s.serv.nonces.filter fun e => decide (s.now < e.2 + secs 60)
/-- The nonce is used up. -/
def State.useNonce (s : State) (n : List Byte) : State :=
  { s with serv := { s.serv with nonces := s.serv.nonces.filter fun e => decide (e.1 ≠ n) } }

/-- The checks of a command in the order of R515; 0 where all pass. -/
def State.cmdCheck (s : State) (b : List Byte) : State × Nat :=
  let t := cmdTail b
  if !cmdFormOk b then (s, 1)
  else if !s.liveNonces.any fun e => decide (e.1 = b.take 32) then (s, 2)
  else
    let s1 := s.useNonce (b.take 32)
    if beAt b 32 16 ≠ deviceId then (s1, 3)
    else match s.runtimeSigner (beAt t 0 1) with
      | none => (s1, 4)
      | some (key, usage) =>
        if !ecVerify key (sha384 (b.take (52 + cmdArgLen b))) (slice t 4 48) (slice t 52 48) then (s1, 4)
        else if !bitOf usage 2 then (s1, 5)
        else (s1, 0)

/-! ## The queue X5 (R491, R497) -/

/-- A message that waits for the row of its own kind: everything but a command that fails its format check. -/
def epHeld (m : EpMsg) : Bool := decide (m.typ ≠ 2) || cmdFormOk m.body

/-- The endpoint takes the frames at the head of X5 that need no row of their own: ARP, commands of no sound format, and frames of
another protocol. -/
def State.epClean (s : State) : Nat → State
  | 0 => s
  | n + 1 =>
    if s.descs 5 = [] then s
    else
      let f := s.headFrame 5
      match s.epMsg f with
      | some m =>
        if epHeld m then s
        else match s.svcTake 10 5 with
          | some (_, _, s1) => (s1.cmdReply m.peer 1 0).epClean n
          | none => s
      | none =>
        match s.svcTake 10 5 with
        | some (_, x, s1) => (if arpOk x then s1.arpIn (ethIn x).2 else s1.svcDrop 10).epClean n
        | none => s

/-- The endpoint takes the next message, where it is one that `p` names. -/
def State.epTake (s : State) (p : EpMsg → Bool) : State × Option EpMsg :=
  if !s.svcLive 10 then (s, none)
  else
    let s1 := s.epClean (s.descs 5).length
    if s1.descs 5 = [] then (s1, none)
    else match s1.epMsg (s1.headFrame 5) with
      | some m =>
        if p m then
          (match s1.svcTake 10 5 with
           | some (_, _, s2) => (s2, some m)
           | none => (s1, none))
        else (s1, none)
      | none => (s1, none)

/-! ## Staging and update (R99, R516) -/

/-- The first byte not yet received. -/
def nextByte (got : List (Nat × Nat)) : Nat → Nat → Nat
  | 0, c => c
  | n + 1, c => match got.find? fun e => decide (e.1 ≤ c ∧ c < e.1 + e.2) with
    | some e => nextByte got n (e.1 + e.2)
    | none => c
def Staging.next (g : Staging) : Nat := min g.len (nextByte g.got g.got.length 0)
def State.stagingNext (s : State) : Nat :=
  match s.serv.staging with
  | some g => g.next
  | none => 0

/-- The staging is discarded and its buffers are given back. -/
def State.dropStaging (s : State) : State :=
  match s.serv.staging with
  | none => s
  | some g =>
    ({ s with serv := { s.serv with staging := none } }).each g.bufs fun s i => s.release 6 i

/-- Takes `n` buffers of pool 6. -/
def State.takeBufs (s : State) : Nat → State × Option (List Nat)
  | 0 => (s, some [])
  | n + 1 =>
    match s.take 3 0x100000 (some 6) with
    | (s1, none) => (s1.takeFailed false, none)
    | (s1, some (_, i)) => match s1.takeBufs n with
      | (s2, some l) => (s2, some (i :: l))
      | (s2, none) => (s2.release 6 i, none)

/-- The result code with which an update of this image does not begin; 0 where R99 accepts it. -/
def State.updateCheck (s : State) (d : List Byte) : Nat :=
  let v := imgVersion d
  let now := s.fld R.DEAL.IMAGE_VER.VER
  let signer : Option (List Byte × Nat × Nat × Nat) := match rootOf d with
    | some root =>
      if ofBe (sha384 root) = s.trust.otp.ownerHash then signerKey (some root) (acceptAll root (certsOf d)) (beAt ((sigSect d).data d) 0 1) 0
      else none
    | none => none
  let inDate := match signer with
    | some (_, _, _, t) => decide (t = 0 ∨ s.journalTime = 0 ∨ s.journalTime < 946684800 + (t + 1) * 86400)
    | none => false
  if s.deck.update.isSome then 2
  else if !s.on R.DEAL.DECK_STATE.DEALT then 3
  else if !headerOk d ∨ imgLen d ≠ d.length then 4
  else if v < s.trust.otp.floor ∨ v < now ∨ (v = now ∧ imgSerial d ≤ s.deal.buildSerial) then 5
  else if !tableOk d ∨ !inDate ∨ !(match rootOf d with
      | some root => signatureOk root d
      | none => false) then 6
  else if (s.trust.fleetKey.bind fun k => decryptRegion k d).isNone then 7
  else 0

/-- An image that is complete: its hash is checked, then R99, and its write begins. -/
def State.stagingDone (s : State) (g : Staging) : State :=
  let d := (g.bufs.flatMap fun i => s.bytesAt (s.bufAddr 6 i) 0x100000).take g.len
  let s1 := s.dropStaging
  if sha384 d ≠ g.sha then (s1.set R.DEAL.UPDATE.RESULT 0x0D).raise 207
  else
    let c := s1.updateCheck d
    if c = 0 then s1.startSlotWrite d else s1.set R.DEAL.UPDATE.RESULT c

/-- A DATA message (R516): bytes beyond the image are ignored. -/
def State.stageData (s : State) (b : List Byte) : State :=
  match s.serv.staging with
  | none => s
  | some g =>
    let o := beAt b 0 4
    let x := (b.drop 4).take (g.len - o)
    let put (s : State) (k : Nat) : State :=
      let y := slice x (k * 0x100000 - o) (if o < k * 0x100000 then 0x100000 else (k + 1) * 0x100000 - o)
      s.memPut (s.bufAddr 6 (g.bufs.getD k 0) + (o - k * 0x100000)) y
    let s1 := s.each ((List.range g.bufs.length).filter fun k => decide (o < (k + 1) * 0x100000 ∧ k * 0x100000 < o + x.length)) put
    { s1 with serv := { s1.serv with staging := some { g with got := (o, x.length) :: g.got, since := s.now } } }

/-! ## What each message does -/

/-- NONCE (R514): a ninth replaces the oldest. -/
def State.epNonce (s : State) (m : EpMsg) : State :=
  if !s.keysOk then s
  else
    let n := s.freeBytes 32
    let l := if s.serv.nonces.length < 8 then s.serv.nonces else s.serv.nonces.drop 1
    ({ s.usedFrees 32 with serv := { s.serv with nonces := l ++ [(n, s.now)] } }).epReply m.peer 1 n

/-- ATTEST (R517): answered once a statement is signed. -/
def State.epAttest (s : State) (m : EpMsg) : State :=
  if s.svcLive 11 && attReqOk m.body && s.attFree then s.askStatement m.body (some m.peer) else s

/-- DATA (R516). -/
def State.epData (s : State) (m : EpMsg) : State :=
  if m.body.length < 5 ∨ 1028 < m.body.length then s.svcDrop 10
  else
    let s1 := s.stageData m.body
    match s1.serv.staging with
    | some g => if g.next = g.len then (s1.epReply m.peer 4 (beBytes 4 g.len)).stagingDone g else s1.epReply m.peer 4 (beBytes 4 g.next)
    | none => s1.epReply m.peer 4 (beBytes 4 0)

/-- STATUS (R513). -/
def State.epStatus (s : State) (m : EpMsg) : State :=
  s.epReply m.peer 5 (beBytes 1 (s.fld R.DEAL.UPDATE.RESULT) ++ beBytes 1 (s.fld R.DEAL.UPDATE.PROGRESS) ++ beBytes 1 0 ++
    beBytes 1 (s.fld R.DEAL.UPDATE.TARGET) ++ beBytes 4 s.stagingNext)

/-- A statement has been signed: it goes to the result buffer of the debug port, or to the peer that asked (R517, R572). -/
def State.attestSign (s : State) : State :=
  match s.sign with
  | (s1, none) => s1
  | (s1, some (r, x)) => match r.peer with
    | none => { s1 with dbg := { s1.dbg with buf := x } }
    | some p => if s1.svcLive 10 && s1.svcLive 11 then s1.epReply p 3 x else s1

/-- The SWAP word of U0 (R228). -/
def swapWord (bank : Nat) : Word64 := BitVec.ofNat 64 (6 * 2 ^ 56 + 0x10 * 2 ^ 48 + bank)

/-- A SWAP is issued on U0 for TTDP (none) or for a peer, where the port has room. -/
def State.askSwap (s : State) (bank : Nat) (p : Option NetPeer) : State :=
  let s1 := s.uportPush 0 [swapWord bank]
  { s1 with serv := { s1.serv with swaps := s1.serv.swaps ++ [p] } }

/-- RULESET_SWAP: answered when U0 completes it. -/
def State.cmdSwap (s : State) (m : EpMsg) : State :=
  match s.cmdCheck m.body with
  | (s1, 0) => if s1.uportRoom 0 then s1.askSwap (ofBe (cmdArg m.body)) (some m.peer) else s1.cmdReply m.peer 7 0
  | (s1, c) => s1.cmdReply m.peer c 0

/-- FLOOR_ADVANCE (R118): `good` floor bits read back before one does not. -/
def State.cmdFloor (s : State) (m : EpMsg) (good : Nat) : State :=
  match s.cmdCheck m.body with
  | (s1, 0) =>
    let v := s1.fld R.DEAL.IMAGE_VER.VER
    let s2 := s1.fuseFloor good
    s2.cmdReply m.peer (if v ≤ s1.trust.otp.floor ∨ s2.trust.otp.floor ≠ v then 6 else 0) 0
  | (s1, c) => s1.cmdReply m.peer c 0

/-- UPDATE_BEGIN (R516). -/
def State.cmdUpdate (s : State) (m : EpMsg) : State :=
  match s.cmdCheck m.body with
  | (s1, 0) =>
    let n := beAt (cmdArg m.body) 0 4
    if n < 244 ∨ 24 * 1048576 < n then s1.cmdReply m.peer 6 0
    else if s1.deck.update.isSome ∨ s1.serv.staging.isSome then s1.cmdReply m.peer 7 0
    else match s1.takeBufs ((n + 1048575) / 1048576) with
      | (s2, some l) =>
        let g : Staging := { len := n, sha := (cmdArg m.body).drop 4, bufs := l, got := [], since := s.now }
        ({ s2 with serv := { s2.serv with staging := some g } }).cmdReply m.peer 0 0
      | (s2, none) => s2.cmdReply m.peer 7 0
  | (s1, c) => s1.cmdReply m.peer c 0

/-- RESTART_SERVICES: the reply is sent before `RESTART.GO` is written. -/
def State.cmdRestart (s : State) (m : EpMsg) : State :=
  match s.cmdCheck m.body with
  | (s1, 0) => if s1.on R.FAULT.STATE.SVC_HELD then s1.cmdReply m.peer 6 0 else (s1.cmdReply m.peer 0 0).startRestart
  | (s1, c) => s1.cmdReply m.peer c 0

/-- No DATA has come for 10 s (R516). -/
def State.stagingTimeout (s : State) : State :=
  match s.serv.staging with
  | some g => if g.since + secs 10 ≤ s.now then s.dropStaging else s
  | none => s

end Sys2Proof.Machine
end

