-- ==== Sys2Proof/Machine/ServCtl.lean ====
section
/-! DEFINITION. The TTDP, time, MKA and Table services (R498-R502, R511, R512), and what waits for the completions of U0. -/
namespace Sys2Proof.Machine

/-! ## TTDP (R498, R499) -/

/-- The maps of a new topology: LOCAL from CN_SUBNETS, TRAIN and LEN as the inauguration found them; a map without a subnet gets LEN 0. -/
def State.writeMaps (s : State) (maps : List (BitVec 32 × Fin 33)) : State :=
  let subnets := (s.param 1 7).getD []
  s.each (List.range 4) fun s m =>
    let a := beAt subnets (4 * m) 4
    match if a = 0 then none else maps[m]? with
    | some (train, len) => ((s.set (R.FLOW.RNAT_m.LOCAL.PREFIX m) a).set (R.FLOW.RNAT_m.TRAIN.PREFIX m) train.toNat).set
        (R.FLOW.RNAT_m.LEN.LEN m) len.val
    | none => s.set (R.FLOW.RNAT_m.LEN.LEN m) 0

/-- The end of an inauguration goes on: the flushes in turn, each awaited, then the SWAP. -/
def State.inaugRun (s : State) : State :=
  match s.serv.inaug with
  | none => s
  | some x =>
    let put (s : State) (x : Inaug) : State := { s with serv := { s.serv with inaug := some x } }
    let late := decide (x.since + msec (s.paramNat 1 6 1000) ≤ s.now)
    if !s.svcLive 1 ∨ x.sent then s
    else if x.busy && s.on R.FLOW.STATUS.FLUSH_BUSY && !late then s
    else if (x.busy && s.on R.FLOW.STATUS.FLUSH_BUSY || !x.left.isEmpty) && late then
      put (s.bumpSvcStat 1 0x2C 4) { x with left := [], busy := false }
    else match x.left with
      | p :: t => put (s.flushFlows false p) { x with left := t, busy := true }
      | [] => if s.uportRoom 0 then put (s.askSwap x.bank none) { x with sent := true } else s

/-- An inauguration ends: the maps are written, and the flushes begin.  While the SWAP of an earlier end is out, this one is not taken. -/
def State.inaugEnd (s : State) (maps : List (BitVec 32 × Fin 33)) (counter consists : Nat) : State :=
  let out : Bool := match s.serv.inaug with
    | some x => x.sent
    | none => false
  if !s.svcLive 1 ∨ out then s
  else
    let profs := (List.range 16).filter fun p => (s.paramNat 1 5 0).testBit p
    let x : Inaug := { left := profs, busy := false, since := s.now, counter := counter, consists := consists, sent := false,
                       bank := if 1 < consists then s.paramNat 1 4 0 else s.paramNat 1 3 0 }
    { s.writeMaps maps with serv := { s.serv with inaug := some x } }.inaugRun

/-- TTDP's SWAP has completed: the new topology is in force, and TOPOLOGY frames carry its counter. -/
def State.inaugDone (s : State) (st seq : Nat) : State :=
  match s.serv.inaug with
  | none => s
  | some x =>
    let s1 := if st = 0 then (s.setSvcStat 1 0x2A 1 x.bank).setSvcStat 1 0x34 8 seq else s.bumpSvcStat 1 0x30 4
    let s2 := (((s1.setSvcStat 1 0x20 4 x.counter).bumpSvcStat 1 0x24 4).setSvcStat 1 0x28 1 1).setSvcStat 1 0x29 1 x.consists
    let ports := ((s.param 1 1).getD []).map (·.toNat)
    ({ s2 with serv := { s2.serv with inaug := none } }).each (ports.filter fun p => s.portExists p) fun s p =>
      let b := (Config.topologyFrame p x.counter).take 1514
      s.svcSend { svc := 1, hop := none, port := p, unc := false, bytes := b ++ List.replicate (60 - b.length) 0, since := s.now }

/-- A completion of U0 that a service waits for is read: TTDP goes on, or the peer of a RULESET_SWAP is answered (R515). -/
def State.swapsRun (s : State) : State :=
  match s.serv.swaps with
  | [] => s
  | p :: t => match s.uportPop 0 with
    | none => s
    | some (ws, s1) =>
      let st := bitsOf (ws.getD 0 0).toNat 56 8
      let seq := (ws.getD 1 0).toNat
      let s2 := { s1 with serv := { s1.serv with swaps := t } }
      match p with
      | none => s2.inaugDone st seq
      | some q => if s2.svcLive 10 then s2.cmdReply q (if st = 0 then 0 else 6) (if st = 0 then seq else 0) else s2

/-! ## Time (R500, R501) -/

/-- The servo steps instance `i` back by `v` ns (R170): through OFFSET where it holds the step, else through SET. -/
def State.servoStep (s : State) (i : Nat) (v : Int) : State :=
  if -2 ^ 31 < v ∧ v < 2 ^ 31 then (s.set (R.TIME.INST_i.OFFSET.NS i) ((-v) % 2 ^ 32).toNat).instCmd i 2
  else
    let t := (((s.clk i).total : Int) - v).toNat
    (((s.set (R.TIME.INST_i.SET_SEC_LO.SEC i) (t / 1000000000)).set (R.TIME.INST_i.SET_SEC_HI.SEC i) (t / 1000000000 / 2 ^ 32)).set
      (R.TIME.INST_i.SET_NS.NS i) (t % 1000000000)).instCmd i 1

/-- A Sync interval of instance `i` has ended with an offset of `v` ns from the master.  How far RATE and the trim are moved, the spec
does not say (free values). -/
def State.servo (s : State) (i : Nat) (v : Int) : State :=
  let lock := s.paramNat 2 (0x20 + i) 100
  let s0 := s.setSvcStat 2 (0x24 + 0x20 * i) 8 (v % 2 ^ 64).toNat
  if s.paramNat 2 (0x24 + i) 100000 < v.natAbs then s0.servoStep i v
  else
    let s1 := (s0.writeRate i (s.freeNow % 2 ^ 32)).usedFree
    let s2 := if s1.eff R.TIME.OSC.SRC = 2 ∧ s1.eff R.TIME.OSC.PTP_INST = i then (s1.set R.TIME.OSC_TRIM.TRIM (s1.freeNow % 2 ^ 24)).usedFree else s1
    let good := if v.natAbs ≤ lock then s.serv.good.get 0 i + 1 else 0
    let bad := if 2 * lock < v.natAbs then s.serv.bad.get 0 i + 1 else 0
    let s3 := s2.setServo i good bad
    if 4 ≤ bad then s3.setSync i false else if 16 ≤ good then s3.setSync i true else s3

/-- A grandmaster instance holds SYNC at 1 while its reference stands: REF_LOCK, or a PPS_IN captured each second. -/
def State.servoMaster (s : State) (i : Nat) : State :=
  let pps := match s.time.ppsIn with
    | some a => decide (s.now < a + msec 1500)
    | none => false
  s.setSync i (s.on R.TIME.OSC.REF_LOCK || pps)

/-- An entry of the egress timestamp queue is read: one that the service asked for is used, another goes to TS_CHANNEL or is dropped. -/
def State.tsDispatch (s : State) (mine : Bool) : State :=
  match s.time.ets with
  | [] => s
  | e :: _ =>
    let ch := s.paramNat 2 0x30 0xFFFF
    if !s.svcLive 2 then s
    else if mine then s.etsPop
    else if ch = 0xFFFF then s.etsPop.svcDrop 2
    else if s.hwRoom ch 2 then
      let w0 := e.port % 64 * 2 ^ 58 + e.inst % 4 * 2 ^ 56 + e.tag % 2 ^ 16
      let w1 := e.sec % 2 ^ 32 * 2 ^ 32 + e.ns
      let s1 := s.etsPop
      s1.setChan ch { s1.chan ch with msgs := (s1.chan ch).msgs ++ [{ words := [BitVec.ofNat 64 w0, BitVec.ofNat 64 w1], hw := false }] }
    else s

/-! ## MKA (R502) -/

/-- The CAK of a CAK_n parameter: 128 bits where its second half is zero (DESIGN CHOICE), else 256. -/
def cakOf (pair : List Byte) : List Byte := if beAt pair 36 16 = 0 then slice pair 20 16 else slice pair 20 32

/-- The key server of port `p` distributes a new SAK under the pair CAK_n, or CAK2_n where there is none: drawn from the DRBG, installed for every peer and for transmission under the next
AN, and sent to the peers wrapped under the KEK (R119).  `ssci` and the peers' SCI and SSCI are those of the association. -/
def State.sakNew (s : State) (p ssci : Nat) (peers : List (BitVec 64 × BitVec 32)) : State :=
  let pair := match s.param 3 (0x10 + p) with
    | some x => x
    | none => (s.param 3 (0x40 + p)).getD []
  if !s.svcLive 3 ∨ !s.keysOk ∨ !s.secyOn p ∨ pair = [] ∨ !s.powered p then s
  else
    let ckn := (slice pair 4 16).take (beAt pair 0 1)
    let cak := cakOf pair
    let n := if s.fld (R.PORT.SECY_CTRL.CIPHER p) % 2 = 0 then 16 else 32
    let key := s.freeBytes n
    let s1 := s.usedFrees n
    let salt := s1.freeBytes 12
    let s2 := s1.usedFrees 12
    let an : Nat := match (s.secy p).tx with
      | some a => (a.an + 1) % 4
      | none => 0
    let an4 : Fin 4 := ⟨an % 4, Nat.mod_lt _ (by decide)⟩
    let s3 := s2.each peers fun s e => s.saWrite p (.rx e.1 an4 key salt e.2.toNat 1)
    let s4 := s3.saWrite p (.tx an4 key salt ssci 1)
    let s5 := (((s4.setSvcStat 3 (0x20 + 8 * p) 1 peers.length).setSvcStat 3 (0x21 + 8 * p) 1 1).setSvcStat 3 (0x22 + 8 * p) 1 an).bumpSvcStat 3 (0x24 + 8 * p) 4
    let ctx := slice pair 4 16
    let b := (Config.mkaFrame p an (mkaKdf cak (ascii "IEEE8021 ICK") ctx) ckn (keyWrap (mkaKdf cak (ascii "IEEE8021 KEK") ctx) key)).take 1514
    s5.svcSend { svc := 3, hop := none, port := p, unc := true, bytes := b ++ List.replicate (60 - b.length) 0, since := s.now }

/-! ## The Table service (R511, R512) -/

/-- LSA_INTERVAL in ms. -/
def State.lsaInterval (s : State) : Nat := s.paramNat 9 1 1000

/-- The own link-state message goes out on every UP link, at its interval or on a change. -/
def State.lsaFlood (s : State) : State :=
  if !s.svcLive 9 ∨ (!s.serv.lsaDue ∧ s.now < s.serv.lsaAt + msec s.lsaInterval) then s
  else
    let up := (List.range 8).filter fun n => decide (s.linkState n = 3)
    let seq := s.serv.lsaSeq + 1
    let m := Config.lsaBytes (s.ownSeat, deviceId, seq,
      up.map fun n => (s.fld (R.NLINK.PEER.SEAT n), s.fld (R.NLINK.RTT.NS n), decide (s.fld (R.NLINK.CTRL.REACH n) = 1)))
    ({ s with serv := { s.serv with lsaSeq := seq, lsaAt := s.now, lsaDue := false } }).each up fun s n => s.sendCtl n 1 (m.take 476)

/-- Messages that have not been refreshed for 5 x LSA_INTERVAL are dropped. -/
def State.lsaAge (s : State) : State :=
  if !s.svcLive 9 then s
  else
    let keep := s.serv.lsdb.filter fun r => decide (s.now < r.since + msec (5 * s.lsaInterval))
    { s with serv := { s.serv with lsdb := keep, routesDue := s.serv.routesDue || decide (keep.length ≠ s.serv.lsdb.length) } }

/-- The links of the other seats: from, to, RTT. -/
def State.tableEdges (s : State) : List (Nat × Nat × Nat) :=
  s.serv.lsdb.flatMap fun r => r.links.map fun l => (r.seat, l.1, l.2.1)
/-- The own links that are UP: link, peer, RTT. -/
def State.ownLinks (s : State) : List (Nat × Nat × Nat) :=
  ((List.range 8).filter fun n => decide (s.linkState n = 3)).map fun n => (n, s.fld (R.NLINK.PEER.SEAT n), s.fld (R.NLINK.RTT.NS n))

/-- One pass over the links: the cost of a path is its number of links x 2^40 plus the sum of its RTTs; 0 where no path is known. -/
def relax (edges : List (Nat × Nat × Nat)) (d : Tbl Nat) : Tbl Nat :=
  edges.foldl (fun d e =>
    let c := d.get 0 e.1 + 2 ^ 40 + e.2.2
    if d.get 0 e.1 ≠ 0 ∧ (d.get 0 e.2.1 = 0 ∨ c < d.get 0 e.2.1) then d.put 0 e.2.1 c else d) d
def relaxN (edges : List (Nat × Nat × Nat)) : Nat → Tbl Nat → Tbl Nat
  | 0, d => d
  | n + 1, d => relaxN edges n (relax edges d)

/-- The cost to each seat by the own link of `e`, through no own seat again. -/
def State.costsBy (s : State) (e : Nat × Nat × Nat) : Tbl Nat :=
  relaxN (s.tableEdges.filter fun x => decide (x.1 ≠ s.ownSeat ∧ x.2.1 ≠ s.ownSeat)) 63 [(e.2.1, 2 ^ 40 + e.2.2)]

/-- The best link of a list of (link, cost), the lower number on a tie. -/
def bestLink (l : List (Nat × Nat)) : Option (Nat × Nat) :=
  l.foldl (fun a e => match a with
    | some x => if e.2 < x.2 then some e else a
    | none => some e) none

/-- The entry of seat `d`, from the costs by each link: a link within its ROUTE_HOLD takes no route that does not already use it. -/
def State.routeFor (s : State) (costs : List (Nat × Tbl Nat)) (d : Nat) : Nat :=
  let e := s.routeEntry d
  let uses (n : Nat) : Bool := (bitOf e 31 && decide (bitsOf e 28 3 = n)) || (bitOf e 27 && decide (bitsOf e 24 3 = n))
  let hops := s.eff R.NLINK.HOP_INIT.HOPS
  let cand := costs.filterMap fun c =>
    let k := c.2.get 0 d
    if k = 0 ∨ hops < k / 2 ^ 40 ∨ (s.now < s.serv.routeHold.get 0 c.1 ∧ !uses c.1) then none else some (c.1, k)
  match bestLink cand with
  | none => 0
  | some (p, k) =>
    let alt := match bestLink (cand.filter fun c => decide (c.1 ≠ p)) with
      | some (a, _) => 2 ^ 27 + a * 2 ^ 24
      | none => 0
    2 ^ 31 + p * 2 ^ 28 + alt + k / 2 ^ 40 % 64 * 2 ^ 16

/-- The entries that change are written (R382). -/
def State.writeRoutes (s : State) : State :=
  let costs := s.ownLinks.map fun e => (e.1, s.costsBy e)
  let new := (List.range 1024).filterMap fun d =>
    let v := if d = s.ownSeat then 0 else s.routeFor costs d
    let e := s.routeEntry d
    if v = e - bitsOf e 22 1 * 2 ^ 22 then none else some (d, v)
  s.each new fun s e => (s.writeRoute e.1 e.2).bumpSvcStat 9 0x24 4

/-- The seats that this seat reaches, itself among them. -/
def State.seatsKnown (s : State) : List Nat :=
  let costs := s.ownLinks.map s.costsBy
  (List.range 1024).filter fun d => decide (d = s.ownSeat) || costs.any fun c => decide (c.get 0 d ≠ 0)

/-- The own links of the flood tree: the shortest-path tree rooted at the lowest seat number (R512). -/
def State.treeLinks (s : State) : Nat × Nat :=
  let root := s.seatsKnown.headD s.ownSeat
  let edges := s.tableEdges ++ s.ownLinks.map fun e => (s.ownSeat, e.2.1, e.2.2)
  let dist := relaxN edges 63 [(root, 1)]
  let parent (v : Nat) : Nat :=
    let into := edges.filter fun e => decide (e.2.1 = v ∧ dist.get 0 e.1 ≠ 0 ∧ dist.get 0 e.1 + 2 ^ 40 + e.2.2 = dist.get 0 v)
    into.foldl (fun a e => min a e.1) 1024
  let linkTo (v : Nat) : Nat := match bestLink ((s.ownLinks.filter fun e => decide (e.2.1 = v)).map fun e => (e.1, e.2.2)) with
    | some (n, _) => 2 ^ n
    | none => 0
  let up := if s.ownSeat = root then 0 else linkTo (parent s.ownSeat)
  let kids := ((s.ownLinks.map (·.2.1)).eraseDups.filter fun v => decide (v ≠ root ∧ parent v = s.ownSeat)).foldl (fun a v => a ||| linkTo v) 0
  (root, up ||| kids)

/-- Routes and flood tree after a change of the link state held.  Edges leave the tree first; the new ones join at the next computation
(R372). -/
def State.routeCompute (s : State) : State :=
  if !s.svcLive 9 ∨ !s.serv.routesDue then s
  else
    let t := s.treeLinks
    let old := s.fld R.NLINK.FLOOD_TREE.LINKS
    let gone := decide (old &&& t.2 ≠ old)
    let s1 := (s.writeRoutes.setSvcStat 9 0x20 2 s.seatsKnown.length).setSvcStat 9 0x22 2 t.1
    ({ s1 with serv := { s1.serv with routesDue := gone } }).set R.NLINK.FLOOD_TREE.LINKS (if gone then old &&& t.2 else t.2)

/-- ROUTE_HOLD of link `n` has passed (R512). -/
def State.routeHoldEnd (s : State) (n : Nat) : State :=
  let t := s.serv.routeHold.get 0 n
  if t ≠ 0 ∧ t ≤ s.now then
    { s with serv := { s.serv with routeHold := s.serv.routeHold.put 0 n 0, routesDue := true } }
  else s

/-! ## What the services do without a command of their own -/

/-- The waits of the services that need no event: the end of an inauguration, the completions of U0, and the messages held in Fold. -/
def State.servTick (s : State) : State := (if s.serv.heldMsgs.isEmpty then s.inaugRun else s.inaugRun.svcFlush).swapsRun

end Sys2Proof.Machine
end

