-- ==== Sys2Proof/Machine/RegView.lean ====
section
/-! DEFINITION. What register reads return where the register shows state that is held elsewhere: identities, levels, peeks, alias
registers and the views of threads, channels, tables and domains. -/
namespace Sys2Proof.Machine

/-- The number whose bit k is `p k`, for the first `n` bits. -/
def bitsWhere (n : Nat) (p : Nat → Bool) : Nat := (List.range n).foldl (fun a k => a + b2n (p k) * 2 ^ k) 0

/-! ## By block -/

/-- GPIO levels: what the module drives from commit, and on an input the level of the pin, which is the carrier's (free value; R600,
R603). -/
def State.gpioIn (s : State) : Nat :=
  bitsWhere 16 fun n =>
    if s.on R.DEAL.STATUS.LOCKED && s.bit R.TOP.GPIO_DIR.DIR n then s.bit R.TOP.GPIO_OUT_SET.OUT n else s.freeNow.testBit n

/-- TOP (R600). -/
def State.viewTop (s : State) (o w : Nat) : Nat :=
  match o with
  | 0x00 => 0x48600000 + (match s.variant with
      | .v32 => 0x20
      | .v16 => 0x10) * 256 + Config.stepping.toNat
  | 0x04 => Config.servicesRomVersion.toNat
  | 0x08 => Config.dealerRomVersion.toNat
  | 0x0C => s.upMs % 2 ^ 64
  | 0xC8 => s.fld R.TOP.GPIO_OUT_SET.OUT
  | 0xCC => s.gpioIn
  | _ => w

/-- The minutes that are left of an unlock, a part of one counted whole (R127). -/
def State.unlockLeft (s : State) : Nat :=
  match s.dueAt .unlock with
  | some d => (d - s.now + secs 60 - 1) / secs 60
  | none => 0

/-- SEC: the time left of an unlock. -/
def State.viewSec (s : State) (o w : Nat) : Nat :=
  if o = 0x4C then s.unlockLeft
  else if o = 0 then
    w - bitsOf w 3 1 * 8 - bitsOf w 0 1 + b2n (bitOf w 3 || s.floorDue) * 8 + b2n s.isClaimed
  else if 0x14 ≤ o ∧ o < 0x44 then bitsOf s.trust.otp.ownerHash (32 * (11 - (o - 0x14) / 4)) 32
  else if o = 0x44 then w - bitsOf w 0 8 + s.trust.otp.floor
  else w

/-- TIME: `OSC_TRIM` reads the trim in force (R184). -/
def State.viewTime (s : State) (o w : Nat) : Nat := if o = 4 then s.trim else w

/-- DEAL: before step 1 of a Deal `FLOOR` shows OTP (R65). -/
def State.viewDeal (s : State) (o w : Nat) : Nat := if o = 0x20 ∧ s.fld R.DEAL.STATUS.STEP = 0 then s.trust.otp.floor else w

/-- Time with `CAP_POWER` set, in ms (R565). -/
def State.capMs (s : State) : Nat :=
  (s.cad.capTotal + (if s.on R.CADENCE.STATUS.CAP_POWER then s.now - s.cad.capAt else 0)) / 50000 % 2 ^ 32

/-- Every rail is within its window (R553). -/
def State.railsOk (s : State) : Bool := s.sup.started && !s.isPresent 43 && !s.isPresent 35 && !s.sup.monSupply

/-- POWER: the rails, the capped time and the alias registers of the domains (R565). -/
def State.viewPower (s : State) (o w : Nat) : Nat :=
  if o = 0 then w - bitsOf w 5 1 * 32 + b2n s.railsOk * 32
  else if o = 0x40 then s.capMs
  else if 0x100 ≤ o ∧ o < 0x118 then bitsWhere 32 fun j => s.domOn (32 * ((o - 0x100) / 4) + j)
  else if 0x120 ≤ o ∧ o < 0x138 then bitsWhere 32 fun j => s.domOn (32 * ((o - 0x120) / 4) + j)
  else w

/-- CADENCE: the pipelines that have shed a frame in the last 2 us (R44). -/
def State.viewCadence (s : State) (o w : Nat) : Nat :=
  if o = 0x18 then
    w - bitsOf w 4 4 * 16 + bitsWhere 4 (fun n => (s.cad.shedAt.get none n).any fun t => decide (s.now < t + usec 2)) * 16
  else w

/-- FAULT: the classes of the sticky bits, the cores whose countdowns are frozen (R415), the time in Fold, the class of F019, and in
`INJECT_k` the sticky bits (R8). -/
def State.viewFault (s : State) (o w : Nat) : Nat :=
  match o with
  | 0x24 => bitsWhere 4 fun c => (List.range 320).any fun n => s.isSticky n && decide (s.classOf n = c)
  | 0x28 => bitsWhere 4 s.frozenCore
  | 0x5C => (s.col.foldTotal + (if s.col.inFold then s.now - s.col.foldAt else 0)) / 50000 % 2 ^ 32
  | _ =>
    if 0x140 ≤ o ∧ o < 0x168 then s.fld (R.FAULT.STICKY_k.STICKY ((o - 0x140) / 4))
    -- the class of F019 comes from OTP (R411)
    else if o = 0x310 then w - bitsOf w 24 2 * 2 ^ 24 + s.classOf 19 % 4 * 2 ^ 24 else w

/-- INTC (R479-R489): alias registers, the claim value, the lines and the sentry. -/
def State.viewIntc (s : State) (o w : Nat) (vendor : Bool) : Nat :=
  if 0x20 ≤ o ∧ o < 0x40 then s.fld (R.INTC.PEND_SET_k.PEND ((o - 0x20) / 4))
  else if 0x60 ≤ o ∧ o < 0x80 then s.fld (R.INTC.MASK_SET_k.MASK ((o - 0x60) / 4))
  else if 0xE0 ≤ o ∧ o < 0xF0 then s.claimValue ((o - 0xE0) / 4) vendor
  else if 0x100 ≤ o ∧ o < 0x110 then w + b2n (s.line ((o - 0x100) / 4)) * 2 ^ 31
  else if o = 0x178 then (bitsWhere 4 s.asleep) * 16 + bitsWhere 4 s.line
  else if o = 0x17C then ((List.range 32).filter fun i => s.bit R.INTC.WAKE_EN.EN i).length
  else w

/-- DEBUG (R585). -/
def State.viewDebug (s : State) (o w : Nat) : Nat :=
  if o = 0 then
    w % 2 + b2n (!s.isClaimed) * 2 + b2n (allThreads.any fun t => (s.thr t).stepping) * 4 + s.fld R.SEC.STATUS.DEBUG * 16 + s.fld R.SEC.STATUS.SCOPE * 256 +
      bitsWhere 4 s.coreHalted * 4096 + bitsOf w 16 4 * 65536
  else if 0x10 ≤ o ∧ o < 0x20 then bitsWhere 16 fun j => decide ((s.thr (16 * ((o - 0x10) / 4) + j)).st = .halted)
  else w

/-- PARSE: the pattern-matcher domains 150-153 that are off (R209, R556). -/
def State.viewParse (s : State) (o w : Nat) : Nat := if o = 0x44 then bitsWhere 4 fun p => !s.powered (150 + p) else w

/-- FLOW: the record taken when `PEEK_0` was read (R262). -/
def State.viewFlow (s : State) (o w : Nat) : Nat := if 0x380 ≤ o ∧ o < 0x400 then ofLe (slice s.flow.peek (o - 0x380) 4) else w

/-- EDIT: the peeked FRER stream (R301). -/
def State.viewEdit (s : State) (o w : Nat) : Nat :=
  let x := s.frer (s.fld R.EDIT.FRER_PEEK_INDEX.STREAM)
  match o with
  | 0x70 => x.gen % 65536 * 65536 + x.rcv % 65536
  | 0x74 => x.hist % 2 ^ 32
  | 0x78 => b2n x.takeAny * 2 ^ 31 + x.rogue % 65536
  | 0x7C => x.passed % 2 ^ 32
  | 0x80 => x.discarded % 2 ^ 32
  | 0x84 => x.lost % 2 ^ 32
  | _ => w

/-- BUF: fills and peeks (R332). -/
def State.viewBuf (s : State) (o w : Nat) : Nat :=
  let q := s.fld R.BUF.QPEEK_INDEX.QUEUE
  let x := s.fld R.BUF.IPEEK_INDEX.INDEX
  match o with
  | 0xC0 => s.committed % 2 ^ 18
  | 0xC4 => s.freeCount % 2 ^ 18
  | 0xF4 => if q / 16 < 58 then s.qFill (q / 16) (q % 16) % 2 ^ 18 else 0
  | 0xF8 => s.buf.shared.get 0 q % 2 ^ 18
  | 0x100 => s.fIn (x / 4) (x % 4) % 2 ^ 18
  | _ => w

/-- TM: the queues held, and in TM[56] and TM[57] the peeked filter, gate list and meter (R356, R357). -/
def State.viewTm (s : State) (p o w : Nat) : Nat :=
  if p < 56 then (if o = 0x3C then w - w % 65536 + s.heldQueues p else w)
  else if p = 56 then
    let x := s.sf (s.fld R.TM.SF_PEEK_INDEX.FILTER)
    let l := s.fld R.TM.SG_PEEK_INDEX.LIST
    let g := s.sg l
    match o with
    | 0x04 => x.hit
    | 0x08 => x.passed
    | 0x0C => x.sdu
    | 0x10 => x.gate
    | 0x14 => x.oct
    | 0x18 => x.red
    | 0x1C => b2n x.blocked
    | 0x28 => b2n (bitOf (s.sgEntry l g.entry) 61) * 2 ^ 31 + g.entry % 64
    | 0x2C => g.octets % 2 ^ 24
    | 0x38 => x.yellow
    | 0x3C => s.sgCycle l % 2 ^ 32
    | _ => w
  else
    let n := s.fld R.TM.METER_PEEK_INDEX.METER
    let x := s.mt n
    let t := s.refill2 n (s.row 0x32 n)
    match o with
    | 0x04 => x.nGreen
    | 0x08 => x.nYellow
    | 0x0C => x.nRed
    | 0x10 => t.1 / shUnit % 2 ^ 24
    | 0x14 => t.2 / shUnit % 2 ^ 24
    | 0x18 => b2n x.red
    | _ => w

/-- The state code of a thread (R429). -/
def ThSt.code : ThSt → Nat
  | .stopped => 0
  | .ready => 1
  | .waitChannel => 2
  | .waitPort => 3
  | .waitEvent => 4
  | .halted => 5
  | .trapped => 6

/-- `CH_PEEK` of a channel (R453). -/
def State.chPeek (s : State) (n : Nat) : Nat :=
  let c := s.chan n
  let own := match c.owner with
    | some (u, _) => 2 ^ 31 + u % 64 * 2 ^ 24
    | none => 0
  let wait := (allThreads.filter fun t => decide ((s.thr t).st = .waitChannel ∧ (s.thr t).wait = n)).length
  own + c.words % 32 * 65536 + c.msgs.length % 32 * 256 + wait

/-- SVC: threads, and in SVC[0] the deadlock condition and the peeked channel (R452, R453). -/
def State.viewSvc (s : State) (c o w : Nat) : Nat :=
  if o = 4 then bitsWhere 16 fun j => decide ((s.thr (16 * c + j)).st = .ready)
  else if 0x40 ≤ o ∧ o < 0x140 then
    let t := 16 * c + (o - 0x40) / 16
    let h := s.thr t
    match o % 16 with
    | 0 => h.trapCause % 256 * 2 ^ 24 + h.wait % 512 * 256 + b2n (vendorThr t) * 8 + h.st.code
    | 4 => h.pc.toNat % 2 ^ 32
    | 8 => h.pc.toNat / 2 ^ 32
    | _ => w
  else if 0x400 ≤ o ∧ o < 0x480 then (s.thr (16 * c + (o - 0x400) / 8)).faultAddr
  else if c = 0 ∧ o = 0x804 then b2n s.deadlockNow
  else if c = 0 ∧ o = 0x80C then s.chPeek (s.fld R.SVC.CH_PEEK_INDEX.CHANNEL)
  else w

/-- NLINK[0]: the peeked seat's entry (R383). -/
def State.viewNlink (s : State) (n o w : Nat) : Nat :=
  if n = 0 ∧ o = 0x8018 then s.routeEntry (s.fld R.NLINK.RT_INDEX.SEAT) else w

/-- The errors of a lane that runs in some mode, which are the carrier's (free values), FEC errors where a FEC is set (R135, R136,
R163). -/
def State.laneErrors (s : State) (n k : Nat) : Nat :=
  let l := if n < 48 then s.lanePort n else n
  let fec := if n < 48 then decide (s.eff (R.LANE.CTRL.FEC l) ≠ 0) else s.on (R.NLINK.CTRL.FEC (n - 48))
  let runs := decide (s.eff (R.LANE.CTRL.MODE l) ≠ 0) && decide (k = 2 ∨ fec)
  if runs then (Config.laneErrors n k s.now).toNat else 0

/-- LANE status (R163): of an E lane as its port's link fault has it, of an N lane as its lock; and the error counters. -/
def State.viewLane (s : State) (n o w : Nat) : Nat :=
  if 0x20 ≤ o ∧ o < 0x2C then s.laneErrors n ((o - 0x20) / 4)
  else if o ≠ 4 then w
  else if n < 48 then
    let member := decide (n % 4 ≠ 0) && s.gang (n / 4)
    let lead := if s.gang (n / 4) then n / 4 * 4 else n
    let f := s.fault lead
    let off := decide (s.eff (R.LANE.CTRL.MODE lead) = 0)
    let lock := !off && decide (f ≠ 3 ∧ f ≠ 4)
    b2n member * 64 + b2n (lock && decide (f ≠ 11) && decide (s.eff (R.LANE.CTRL.FEC lead) ≠ 0)) * 32 + b2n (!off && decide (f = 5)) * 16 +
      b2n lock * 8 + b2n (!off && decide (f ≠ 3)) * 4 + 2
  else
    let lock := bitsOf w 3 1
    (if s.on (R.NLINK.CTRL.FEC (n - 48)) then lock * 32 else 0) + lock * 8 + lock * 4 + 2

/-- PORT: whether the controlled port operates (R152, R164). -/
def State.viewPort (s : State) (p o w : Nat) : Nat :=
  if o = 0x10 then w - bitsOf w 11 1 * 2 ^ 11 + b2n (s.ctrlOper p) * 2 ^ 11 else w

/-- What a register shows, from the word that its stored fields give. -/
def State.view (s : State) (p : RegPlace) (vendor : Bool) (w : Nat) : Nat :=
  match p.blk with
  | .top => s.viewTop p.off w
  | .sec => s.viewSec p.off w
  | .deal => s.viewDeal p.off w
  | .time => s.viewTime p.off w
  | .power => s.viewPower p.off w
  | .cadence => s.viewCadence p.off w
  | .fault => s.viewFault p.off w
  | .intc => s.viewIntc p.off w vendor
  | .debug => s.viewDebug p.off w
  | .parse => s.viewParse p.off w
  | .flow => s.viewFlow p.off w
  | .edit => s.viewEdit p.off w
  | .buf => s.viewBuf p.off w
  | .tm => s.viewTm p.inst p.off w
  | .svc => s.viewSvc p.inst p.off w
  | .nlink => s.viewNlink p.inst p.off w
  | .lane => s.viewLane p.inst p.off w
  | .port => s.viewPort p.inst p.off w
  | _ => w

end Sys2Proof.Machine
end

