-- ==== Sys2Proof/Machine/TmCmds.lean ====
section
/-! DEFINITION. The commands of the traffic manager, the policers, FRER and the buffer's tests (R298, R303, R326-R357). -/
namespace Sys2Proof.Machine

/-- TM_SELECT (R338) on egress port `p`. -/
def execTmSelect (p : Fin 56) (s : State) : Out State := fin (s.tmSelect p.val)

/-- FRAME_TRANSMIT_START (R346): `sfd` ns from now the first bit after the SFD leaves.  `rd` 1: a re-read of the frame's cell `k`
succeeded; 2: its read failed persistently (R324). -/
def execFrameTransmitStart (p : Fin 48) (sfd : Nat) (rd : Fin 3) (k : Nat) (s : State) : Out State :=
  fin (s.transmit p.val sfd rd.val k)

/-- FRAME_TRANSMIT_END (R144). -/
def execFrameTransmitEnd (p : Fin 48) (s : State) : Out State := fin (s.transmitEnd p.val)

/-- HEAD_AGE_TEST (R314, R385) of port 57 or of a link that is not UP. -/
def execHeadAgeTest (p : Fin 58) (s : State) : Out State := fin (s.ageHeads p.val)

/-- RECIRC_SERVE (R303) of pipeline `n`'s share; `rd` 3: it yields (R310). -/
def execRecircServe (n : Fin 4) (rd : Fin 4) (k : Nat) (s : State) : Out State :=
  fin (s.recircServe n.val rd.val k ((List.range 16).foldl (fun a q => a + (s.queue 57 q).length) 1))

/-- GATE_ENTRY_CHANGE (R343). -/
def execGateEntryChange (p : Fin 56) (s : State) : Out State := fin (s.gateStep p.val)

/-- GATE_LIST_SWAP (R344): a list that waits for a restart is taken by GATE_RESTART. -/
def execGateListSwap (p : Fin 56) (s : State) : Out State :=
  fin (if (s.eport p.val).restart.isSome then s else s.swapGates p.val)

/-- GATE_RESTART (R181). -/
def execGateRestart (p : Fin 56) (s : State) : Out State := fin (s.restartGates p.val)

/-- GATE_ARM (R344). -/
def execGateArm (who : Who) (p : Fin 56) (s : State) : Out State :=
  fin (s.cmdWrite who none false (R.TM.GATE_CMD.ARM p.val).addr fun s => s.armGates p.val)

/-- GATE_CANCEL (R345). -/
def execGateCancel (who : Who) (p : Fin 56) (s : State) : Out State :=
  fin (s.cmdWrite who none false (R.TM.GATE_CMD.ARM p.val).addr fun s => s.cancelGates p.val)

/-- GATE_ARM_CANCEL (R626). -/
def execGateArmCancel (who : Who) (p : Fin 56) (s : State) : Out State :=
  fin (s.cmdWrite who none false (R.TM.GATE_CMD.ARM p.val).addr fun s => (s.cancelGates p.val).armGates p.val)

/-- STREAM_GATE_ENTRY (R351). -/
def execStreamGateEntry (l : Fin 256) (s : State) : Out State := fin (s.sgNext l.val)

/-- SF_UNBLOCK (R350). -/
def execSfUnblock (who : Who) (n : Fin 16384) (s : State) : Out State :=
  fin (s.cmdWrite who none false R.TM.SF_UNBLOCK.GO.addr fun s => s.sfUnblock n.val)

/-- METER_CLEAR_RED (R357). -/
def execMeterClearRed (who : Who) (n : Fin 16384) (s : State) : Out State :=
  fin (s.cmdWrite who none false R.TM.METER_CLEAR_RED.GO.addr fun s => s.meterClearRed n.val)

/-- `FRER_RESET` (R298). -/
def State.frerReset (s : State) (n : Nat) : State := s.setFrer n { s.frer n with takeAny := true }

/-- FRER_RESET (R298). -/
def execFrerReset (who : Who) (n : Fin 4096) (s : State) : Out State :=
  fin (s.cmdWrite who none false R.EDIT.FRER_RESET.GO.addr fun s => s.frerReset n.val)

/-- FRER_TAKE_ANY_TIMEOUT (R298): no frame of the stream has passed for `RESET_MS`. -/
def execFrerTakeAnyTimeout (n : Fin 4096) (s : State) : Out State :=
  fin (if s.eff R.EDIT.FRER_CFG.RESET_MS * 1000000 ≤ s.mono - (s.frer n.val).lastPass then s.frerReset n.val else s)

/-- BANK_TEST_REQUEST (R326). -/
def execBankTestRequest (who : Who) (b : Fin 32) (s : State) : Out State :=
  fin (s.cmdWrite who none false R.BUF.TEST_REQ.GO.addr fun s => s.testReq false b.val)

/-- WHOLE_BUFFER_TEST (R329). -/
def execWholeBufferTest (who : Who) (s : State) : Out State :=
  fin (s.cmdWrite who none false R.BUF.TEST_REQ.GO.addr fun s => s.testReq true 31)

/-- BANK_ROTATION_TIMER (R326): `PERIOD` seconds have passed. -/
def execBankRotationTimer (s : State) : Out State := fin s.rotateBank

/-- BANK_DRAIN_COMPLETE (R327). -/
def execBankDrainComplete (s : State) : Out State := fin s.drained

/-- BANK_DRAIN_TIMEOUT (R327). -/
def execBankDrainTimeout (s : State) : Out State := fin s.drainLate

/-- MARCH_TEST_COMPLETE (R327, R328). -/
def execMarchTestComplete (pass : Bool) (s : State) : Out State := fin (s.marchEnd pass)

/-- WHOLE_BUFFER_TEST_COMPLETE (R329): `bad` has a bit for each bank that failed. -/
def execWholeBufferTestComplete (bad : BitVec 17) (s : State) : Out State := fin (s.wholeEnd bad.toNat)

end Sys2Proof.Machine
end

