-- ==== Sys2Proof/Machine/RegBus.lean ====
section
/-! DEFINITION. Register accesses: the access codes, the vendor registers and windows, captured high words, domains that are off, and
what a write to a register does beside its fields (R8-R13, R44, R564, R590-R593, R622). -/
namespace Sys2Proof.Machine

/-! ## Where an access goes (R564, R591, R592, R622) -/

/-- What an address of the register range names. -/
inductive RegAcc where
  | unmapped
  | off
  | keys (p : RegPlace)
  | vendor
  | reg (p : RegPlace) (h : RegHit)

/-- Classes an address: a domain that is off comes before everything else. -/
def State.regAcc (s : State) (a : Nat) : RegAcc :=
  match regPlace a with
  | none => .unmapped
  | some p =>
    let off := match p.dom with
      | some d => !s.powered d
      | none => false
    if off then .off
    else if p.keyWin then .keys p
    else if p.vendorWin then .vendor
    else match p.hit with
      | some h => .reg p h
      | none => .unmapped

/-- An access to an offset that holds no register (R591). -/
def State.unmapped (s : State) (a : Nat) : State :=
  ((s.bump R.TOP.UNMAPPED.COUNT).set R.TOP.UNMAPPED_ADDR.ADDR a).setB R.TOP.STICKY.UNMAPPED_SEEN true

/-- An access to `SVC[c]` wakes its core (R486). -/
def State.touch (s : State) (a : Nat) : State :=
  match regPlace a with
  | some p => if p.blk = .svc ∧ s.powered (154 + p.inst) then s.touchCore p.inst 4 else s
  | none => s

/-! ## Reads -/

/-- The value of a register: the stored fields, with what the register shows of other state. -/
def State.regValue (s : State) (p : RegPlace) (h : RegHit) (vendor : Bool) : Nat :=
  let low := if h.high then { p with off := p.off - 4 } else p
  s.view low vendor (wordOfFields (h.fields.map fun f => (f.fld, if f.acc = .wo then 0 else s.fld f.fld)))

/-- The register is a 64-bit counter with the capture rule of R44; `FAULT_ADDR_t` is none. -/
def captures (p : RegPlace) (h : RegHit) : Bool := h.c64 && !(decide (p.blk = .svc) && decide (0x400 ≤ p.off ∧ p.off < 0x480))

/-- What a read does beside returning a value: a claim (R480), the record taken at `PEEK_0` (R262), a pin level used. -/
def State.readEffect (s : State) (who : Who) (p : RegPlace) : State :=
  match p.blk with
  | .intc => if 0xE0 ≤ p.off ∧ p.off < 0xF0 then s.claim who ((p.off - 0xE0) / 4) else s
  | .top => if p.off = 0xCC then s.usedFree else s
  | _ => s

/-- A read of the low word captures the high one, and the next read of the high word returns it (R44). -/
def State.readCounter (s : State) (a v : Nat) (high : Bool) : State × Nat :=
  if high then
    match s.caught.get 0 (a - 4) with
    | 0 => (s, v / 2 ^ 32)
    | n + 1 => ({ s with caught := s.caught.put 0 (a - 4) 0 }, n)
  else ({ s with caught := s.caught.put 0 a (v / 2 ^ 32 + 1) }, v % 2 ^ 32)

/-- A read of a register that is laid out. -/
def State.readReg (s : State) (who : Who) (a : Nat) (p : RegPlace) (h : RegHit) : State × Nat :=
  let s0 := if p.blk = .flow ∧ p.off = 0x380 then s.peekFlow else s
  let v := s0.regValue p h who.vendor
  let s1 := s0.readEffect who p
  if captures p h then s1.readCounter a v h.high
  else (s1, (if h.high then v / 2 ^ 32 else v) % 2 ^ 32)

/-- An access of 32 bits reads `a`: the value, and whether the issuing thread traps with cause 0x03 (R10). -/
def State.regRead (s : State) (who : Who) (a : Nat) : State × Nat × Bool :=
  let s0 := s.touch a
  match s0.regAcc a with
  | .unmapped => (s0.unmapped a, 0, false)
  | .off => (s0.offAccess a, 0xDEAD0FF0, false)
  | .keys p =>
    -- a vendor thread works the key store and the SAs through registers that the spec does not lay out (free value)
    let hidden := !who.vendor || (decide (p.blk = .sec) && (match who with
      | .debug _ => true
      | .thread _ => false))
    if hidden then (s0, 0, false) else (s0.usedFree, s0.freeNow % 2 ^ 32, false)
  | .vendor =>
    if !who.vendor then
      (match who with
       | .thread _ => (s0, 0, true)
       | .debug _ => (s0, 0, false))
    else if Config.vendorRegister a then (s0.usedFree, s0.freeNow % 2 ^ 32, false)
    else (s0.unmapped a, 0, false)
  | .reg p h => match s0.readReg who a p h with
    | (s1, v) => (s1, v, false)

/-! ## Writes -/

/-- `THREAD_t.CMD` of a vendor thread carries -V (R452). -/
def RegPlace.vendorCmd (p : RegPlace) : Bool :=
  decide (p.blk = .svc) && decide (0x40 ≤ p.off ∧ p.off < 0x140 ∧ p.off % 16 = 12) && decide ((p.off - 0x40) / 16 < 4)

/-- An owner-mode write that has no effect and traps (R10). -/
def State.ownerRefused (s : State) (p : RegPlace) (h : RegHit) (v : Nat) : Bool :=
  let vs := h.fields.filter (·.vend)
  p.vendorCmd || (!vs.isEmpty && (h.fields.all (·.vend) || vs.any fun f =>
    match f.acc with
    | .rw => decide (f.fld.of v ≠ s.fld f.fld)
    | .wo => decide (f.fld.of v ≠ 0)
    | .as => decide (f.fld.of v ≠ 0)
    | .ac => decide (f.fld.of v ≠ 0)
    | _ => false))

/-- A write to one field by its access code (R8, R9). -/
def State.writeField (s : State) (f : FldAt) (v : Nat) : State :=
  match f.acc with
  | .rw => s.set f.fld (f.fld.of v)
  | .w1c => s.clrIn f.fld (f.fld.of v)
  | .as => s.orIn f.fld (f.fld.of v)
  | .ac => s.clrIn f.fld (f.fld.of v)
  | .ro => s
  | .wo => s
  | .dl => s

/-- A write to every field that the initiator may write. -/
def State.writeFields (s : State) (vendor : Bool) (l : List FldAt) (v : Nat) : State :=
  s.each (l.filter fun f => vendor || !f.vend) fun s f => s.writeField f v

/-- A write of `PORT[n].CTRL` (R159, R160, R164); a gang member has no port to control. -/
def State.writePortCtrl (s : State) (n v : Nat) : State :=
  if !s.portExists n then s
  else
    let s1 := ((s.set (R.PORT.CTRL.CUT_OUT_EN n) (bitsOf v 5 1)).set (R.PORT.CTRL.CUT_IN_EN n) (bitsOf v 4 1)).set
      (R.PORT.CTRL.DRAIN_MODE n) (bitsOf v 3 1)
    if bitOf v 0 then s1.portEnable n else s1.portDisable n

/-- A write of a register of `TM[0]` to `TM[55]` (R341, R343-R345, R356). -/
def State.writeTm (s : State) (p : Nat) (l : List FldAt) (o v : Nat) : State :=
  if o = 0x800 then s.tpWrite p v
  else if o = 0 ∨ o = 8 ∨ o = 0xC then ((s.pinPort p).writeFields true l v).showGates p
  else if 0x10 ≤ o ∧ o ≤ 0x1C then
    (if s.on (R.TM.GATE_STATUS.PENDING p) then s.setB (R.TM.STICKY.ADMIN_LOCKED p) true else s.writeFields true l v)
  else if o = 0x20 then
    let s1 := if bitOf v 1 then s.cancelGates p else s
    if bitOf v 0 then s1.armGates p else s1
  else s.writeFields true l v

/-- A write of a register of TIME (R165-R175). -/
def State.writeTime (s : State) (vendor : Bool) (l : List FldAt) (o v : Nat) : State :=
  let i := (o - 0x40) / 32
  if o = 4 then (if s.eff R.TIME.OSC.SRC = 1 then s else s.writeFields vendor l v)
  else if o = 0xC then (if bitOf v 0 then s.captureGo else s)
  else if o = 0x190 then (if bitOf v 0 then s.etsPop else s)
  else if 0x40 ≤ o ∧ o < 0xC0 ∧ o % 32 = 0 then s.instCmd i (v % 4)
  else if 0x40 ≤ o ∧ o < 0xC0 ∧ o % 32 = 0x14 then s.writeRate i v
  else s.writeFields vendor l v

/-- A write of a register of INTC (R477-R484). -/
def State.writeIntc (s : State) (who : Who) (l : List FldAt) (o v : Nat) : State :=
  if o < 0x20 then s.pendSet who (o / 4) v
  else if o < 0x40 then s.pendClr who ((o - 0x20) / 4) v
  else if o < 0x60 then s.maskSet who ((o - 0x40) / 4) v
  else if o < 0x80 then s.maskClr who ((o - 0x60) / 4) v
  else if 0xA0 ≤ o ∧ o < 0xE0 then s.routeWrite who ((o - 0xA0) / 4) v
  else if 0xF0 ≤ o ∧ o < 0x100 then s.done who ((o - 0xF0) / 4) (v % 65536)
  else s.writeFields who.vendor l v

/-- A write of a register of FLOW (R253-R262). -/
def State.writeFlow (s : State) (vendor : Bool) (l : List FldAt) (o v : Nat) : State :=
  match o with
  | 0x000 => s.flowCtrl v
  | 0x300 => if bitOf v 31 then s.kill (bitsOf v 0 27) else s
  | 0x304 => if bitOf v 31 then s.flushFlows (bitOf v 4) (bitsOf v 0 4) else s
  | _ => s.writeFields vendor l v

/-- A write of a register of FAULT (R408, R416, R423, R424, R428). -/
def State.writeFault (s : State) (l : List FldAt) (o v : Nat) : State :=
  match o with
  | 0x4 => s.bypWrite v
  | 0x8 => if bitOf v 0 then s.foldExit else s
  | 0xC => if bitOf v 0 then s.foldReqWrite else s
  | _ =>
    if 0x100 ≤ o ∧ o < 0x128 then s.stickyWrite ((o - 0x100) / 4) v
    else if 0x140 ≤ o ∧ o < 0x168 then s.injectWrite ((o - 0x140) / 4) v
    else s.writeFields true l v

/-- A write of a register of TOP (R600-R602). -/
def State.writeTop (s : State) (l : List FldAt) (o v : Nat) : State :=
  match o with
  | 0x44 => s.mdioWrite 0 v
  | 0x54 => s.mdioWrite 1 v
  | 0x84 => s.i2cWrite 0 v
  | 0xA4 => s.i2cWrite 1 v
  | 0xC4 => s.gpioSet v
  | 0xC8 => s.gpioClr v
  | _ => s.writeFields true l v

/-- A write of a register of SVC[c] (R435, R450). -/
def State.writeSvc (s : State) (c : Nat) (l : List FldAt) (o v : Nat) : State :=
  if 0x40 ≤ o ∧ o < 0x140 ∧ o % 16 = 12 then s.threadCmd (16 * c + (o - 0x40) / 16) (v % 4)
  else if c = 0 ∧ o = 0x800 then (if bitOf v 0 then s.startRestart else s)
  else s.writeFields true l v

/-- A write to a register that is laid out and that the initiator may write. -/
def State.writeReg (s : State) (who : Who) (p : RegPlace) (h : RegHit) (v : Nat) : State :=
  let l := h.fields
  let plain := s.writeFields who.vendor l v
  match p.blk with
  | .top => s.writeTop l p.off v
  | .cadence => plain.holdV
  | .power =>
    if 0x100 ≤ p.off ∧ p.off < 0x118 then s.pwrSet ((p.off - 0x100) / 4) v
    else if 0x120 ≤ p.off ∧ p.off < 0x138 then s.pwrClr ((p.off - 0x120) / 4) v
    else plain
  | .fault => s.writeFault l p.off v
  | .intc => s.writeIntc who l p.off v
  | .time => s.writeTime who.vendor l p.off v
  | .parse => if p.off = 0x800 then s.tpWrite 56 v else plain
  | .tables => if p.off = 0 then s.swapWrite (v % 4) else plain
  | .flow => s.writeFlow who.vendor l p.off v
  | .edit => if p.off = 0x64 then (if bitOf v 31 then s.frerReset (bitsOf v 0 12) else s) else plain
  | .buf => if p.off = 0xE4 then (if bitOf v 31 then s.testReq (bitOf v 8) (bitsOf v 0 5) else s) else plain
  | .tm =>
    if p.inst < 56 then s.writeTm p.inst l p.off v
    else if p.inst = 56 ∧ p.off = 0x20 then (if bitOf v 31 then s.sfUnblock (bitsOf v 0 14) else s)
    else if p.inst = 57 ∧ p.off = 0x1C then (if bitOf v 31 then s.meterClearRed (bitsOf v 0 14) else s)
    else plain
  | .svc => s.writeSvc p.inst l p.off v
  | .dram => if p.off = 0 then (if bitOf v 0 then s.dramEnable p.inst else s.dramDisable p.inst) else plain
  | .nlink =>
    if p.off = 0 then (if bitOf v 0 then s.nlinkOn p.inst else s.nlinkOff p.inst)
    else if p.off = 0x8018 then s.writeRoute (s.fld R.NLINK.RT_INDEX.SEAT) v
    else plain
  | .lane =>
    -- a setting whose taps exceed 63 is ignored (R163)
    if p.off = 0x10 ∧ 63 < bitsOf v 0 6 + bitsOf v 6 6 + bitsOf v 12 6 then s else plain
  | .port => if p.off = 0 then s.writePortCtrl p.inst v else plain
  | .deal => plain
  | .sec => plain
  | .debug => plain
  | .pool => plain
  | .pipe => plain

/-- An access of 32 bits writes `v` to `a`; whether the issuing thread traps with cause 0x03 (R10). -/
def State.regWrite (s : State) (who : Who) (a v : Nat) : State × Bool :=
  let s0 := s.touch a
  let refused : State × Bool := match who with
    | .thread _ => (s0, true)
    | .debug _ => (s0, false)
  match s0.regAcc a with
  | .unmapped => (s0.unmapped a, false)
  | .off => (s0.offAccess a, false)
  | .keys _ => if who.vendor then (s0, false) else refused
  | .vendor => if !who.vendor then refused else if Config.vendorRegister a then (s0, false) else (s0.unmapped a, false)
  | .reg p h => if !who.vendor && s0.ownerRefused p h v then refused else (s0.writeReg who p h v, false)

end Sys2Proof.Machine
end

