-- ==== Sys2Proof/Machine/Elvon.lean ====
section
/-! DEFINITION. What the Elvon instructions do (R434-R448, R454-R466): address checks, memory, channels, ports, long
instructions, and the issue of one instruction or chunk by a thread. -/
namespace Sys2Proof.Machine

/-! ## Address checks -/

/-- The areas of the address map (R586). -/
inductive Zone where
  | sram | rom | regs | dram | none
  deriving DecidableEq, Repr

/-- The area of an address. -/
def State.zone (s : State) (a : Nat) : Zone :=
  if a < 0x800000 then .sram
  else if 0x1000000 ≤ a ∧ a < 0x1200000 then .rom
  else if 0x10000000 ≤ a ∧ a < 0x11000000 then .regs
  else if dramBase ≤ a ∧ a < s.dramEnd then .dram
  else .none

/-- The kinds of access (R434). -/
inductive AccKind where
  | load | store | atomic | fetch
  deriving DecidableEq, Repr

/-- Region `r` of a core lets the thread make the access (R434). -/
def State.regionGrants (s : State) (t r a n : Nat) (k : AccKind) : Bool :=
  let c := t / 16
  s.on (R.SVC.REGION_r.CTRL.EN c r) && s.bit (R.SVC.REGION_r.CTRL.THREADS c r) (t % 16) &&
  (match k with
   | .load => s.on (R.SVC.REGION_r.CTRL.R c r)
   | .store => s.on (R.SVC.REGION_r.CTRL.W c r)
   | .atomic => s.on (R.SVC.REGION_r.CTRL.W c r)
   | .fetch => s.on (R.SVC.REGION_r.CTRL.X c r)) &&
  decide (4096 * s.fld (R.SVC.REGION_r.BASE.BASE c r) ≤ a ∧
    a + n ≤ 4096 * (s.fld (R.SVC.REGION_r.BASE.BASE c r) + s.fld (R.SVC.REGION_r.SIZE.SIZE c r)))

/-- An address that owner mode never reaches (R434, R525): the flow table, and buffers held by owners 0-15, the code and
patch copies among them. -/
def State.vendorOnly (s : State) (a : Nat) : Bool :=
  decide (dramBase ≤ a ∧ a < s.poolStart) ||
  (match s.bufAt a with
   | some (k, i) =>
     match s.holderOf k i with
     | some o => decide (o < 16)
     | none => false
   | none => false)

/-- The trap cause of an access of `n` bytes, none where it is allowed (R434, R459, R460, R587).  `n` is a width of 1, 2, 4 or 8, or a
chunk with `aligned` false. -/
def State.refuses (s : State) (t a n : Nat) (k : AccKind) (aligned : Bool) : Option Nat :=
  let z := s.zone a
  if aligned && decide (a % n ≠ 0) then some 0x04
  else if z = .none ∨ s.zone (a + n - 1) ≠ z then some 0x02
  else if k = .atomic ∧ (z = .dram ∨ z = .regs) then some 0x05
  else if z = .regs ∧ (!aligned || decide (n ≠ 4) || decide (k = .fetch)) then some 0x04
  else if z = .rom ∧ (k = .store ∨ k = .atomic) then some 0x02
  else if vendorThr t then none
  else if s.vendorOnly a || s.vendorOnly (a + n - 1) then some 0x02
  else if (List.range 8).any fun r => s.regionGrants t (8 + r) a n k then none
  else some 0x02

/-- Stores bytes; a write of less than a block re-reads it, and fails where it is uncorrectable (R459, R522). -/
def State.memWrite (s : State) (a : Nat) (l : List Byte) : State × Bool :=
  match (blocksOf a l.length).find? fun b =>
      decide (b ∈ s.dram.hard) && !(decide (a ≤ 64 * b ∧ 64 * b + 64 ≤ a + l.length)) with
  | some b => (if dramBase ≤ a then s.readFailed (64 * b) else s, false)
  | none => (((s.partCorrected a l.length).wroteBlocks a l.length).putBytes a l, true)

/-- The thread as the initiator of a register access. -/
def whoOf (t : Nat) : Who := .thread ⟨t % 64, Nat.mod_lt _ (by decide)⟩

/-! ## Loads, stores and atomics -/

/-- A load of `n` bytes (R456, R459). -/
def State.doLoad (s : State) (t : Nat) (n : Nat) (sg : Bool) (rd ra : Reg) (i : BitVec 16) : State :=
  let a := (s.reg t ra + i.signExtend 64).toNat
  match s.refuses t a n .load true with
  | some c => s.trap t c a
  | none =>
    if s.zone a = .regs then
      match s.regRead (whoOf t) a with
      | (s1, v, false) => (s1.setReg t rd (if sg then (BitVec.ofNat 32 v).signExtend 64 else BitVec.ofNat 64 v)).next t
      | (s1, _, true) => s1.trap t 0x03 a
    else
      match s.memRead a n with
      | (s1, false) => s1.trap t 0x09 a
      | (s1, true) =>
        let v := ofLe (s1.bytesAt a n)
        let r := if sg then BitVec.ofInt 64 (signedOf (8 * n) v) else BitVec.ofNat 64 v
        ((s1.setReg t rd r).next t).watch t a n false

/-- A store of the low `n` bytes of rs (R456, R459). -/
def State.doStore (s : State) (t : Nat) (n : Nat) (rs ra : Reg) (i : BitVec 16) : State :=
  let a := (s.reg t ra + i.signExtend 64).toNat
  match s.refuses t a n .store true with
  | some c => s.trap t c a
  | none =>
    let v := (s.reg t rs).toNat % 2 ^ (8 * n)
    if s.zone a = .regs then
      match s.regWrite (whoOf t) a v with
      | (s1, false) => if (s1.thr t).st = .ready ∧ (s1.thr t).pc = (s.thr t).pc then s1.next t else s1
      | (s1, true) => s1.trap t 0x03 a
    else
      match s.memWrite a (leBytes n v) with
      | (s1, false) => s1.trap t 0x09 a
      | (s1, true) => (s1.next t).watch t a n true

/-- An atomic (R460). -/
def State.doAtomic (s : State) (t : Nat) (f : AtFn) (word : Bool) (rd ra rb : Reg) : State :=
  let a := (s.reg t ra).toNat
  let n := if word then 4 else 8
  match s.refuses t a n .atomic true with
  | some c => s.trap t c a
  | none =>
    match s.memRead a n with
    | (s1, false) => s1.trap t 0x09 a
    | (s1, true) =>
      let old := ofLe (s1.bytesAt a n)
      let m := 2 ^ (8 * n)
      let new := atomicOp f old ((s1.reg t rb).toNat % m) ((s1.reg t rd).toNat % m) % m
      (((s1.putBytes a (leBytes n new)).setReg t rd (BitVec.ofNat 64 old)).next t).watch t a n true

/-! ## Channels (R437-R439, R455) -/

/-- The channel or port number that an operand names. -/
def State.cnum (s : State) (t : Nat) (n : CNum) : Nat :=
  if n.ind then (s.reg t n.rn).toNat % 1024 else n.num.toNat

/-- Whether a blocked instruction reads (CHIN, PIN) or writes. -/
def isReadElv : Elv → Bool
  | .chin .. => true
  | .pin .. => true
  | _ => false

/-- Another thread began to wait on the same channel or port, for the same kind of access, before this one (R431). -/
def State.othersWait (s : State) (t : Nat) (st : ThSt) (on : Nat) (rd : Bool) : Bool :=
  let h := s.thr t
  allThreads.any fun u =>
    let k := s.thr u
    decide (u ≠ t ∧ k.st = st ∧ k.wait = on) &&
      (match k.blocked with
       | some e => isReadElv e == rd
       | none => false) &&
      (decide (h.wait ≠ on ∨ h.blocked = none) || decide (k.waitSeq < h.waitSeq))

/-- CHIN (R439); channels 0-31 are closed to owner mode (R492). -/
def State.doChin (s : State) (t : Nat) (rd re : Reg) (n : CNum) : State :=
  let c := s.cnum t n
  if 511 < c then s.trapHere t 0x05
  else if c < 32 && !vendorThr t then s.trapHere t 0x02
  else
    let ch := s.chan c
    match ch.reader, ch.msgs with
    | some (u, w :: ws), _ =>
      if u = t then
        let s1 := s.setChan c { ch with reader := if ws.isEmpty then none else some (t, ws) }
        (s1.setTwo t rd re w (BitVec.ofNat 64 ws.length)).next t
      else s.block t .waitChannel c (.chin rd re n)
    | some (_, []), _ => s.block t .waitChannel c (.chin rd re n)
    | none, m :: ms =>
      if s.othersWait t .waitChannel c true then s.block t .waitChannel c (.chin rd re n)
      else
        match m.words with
        | [] => (s.setChan c { ch with msgs := ms }).block t .waitChannel c (.chin rd re n)
        | w :: ws =>
          let s1 := s.setChan c { ch with msgs := ms, reader := if ws.isEmpty then none else some (t, ws) }
          (s1.setTwo t rd re w (BitVec.ofNat 64 ws.length)).next t
    | none, [] => s.block t .waitChannel c (.chin rd re n)

/-- CHOUT (R437, R438). -/
def State.doChout (s : State) (t : Nat) (rd : Reg) (n : CNum) : State :=
  let c := s.cnum t n
  if 511 < c then s.trapHere t 0x05
  else if c < 32 && !vendorThr t then s.trapHere t 0x02
  else
    let ch := s.chan c
    if ch.writes t then
      if 16 ≤ ch.part.length then s.trapHere t 0x06
      else if 16 ≤ ch.words then s.block t .waitChannel c (.chout rd n)
      else (s.setChan c { ch with part := ch.part ++ [s.reg t rd] }).next t
    else if ch.owner.isSome || s.othersWait t .waitChannel c false || decide (16 ≤ ch.words) then
      s.block t .waitChannel c (.chout rd n)
    else (s.setChan c { ch with owner := some (t, (s.thr t).pc), part := [s.reg t rd] }).next t

/-- CHEND (R437, R439). -/
def State.doChend (s : State) (t : Nat) (n : CNum) : State :=
  let c := s.cnum t n
  if 511 < c then s.trapHere t 0x05
  else if c < 32 && !vendorThr t then s.trapHere t 0x02
  else
    let ch := s.chan c
    if ch.writes t then
      (s.setChan c { ch with owner := none, part := [], msgs := ch.msgs ++ [{ words := ch.part, hw := false }] }).next t
    else if ch.reads t then (s.setChan c { ch with reader := none }).next t
    else s.next t

/-! ## Ports (R443-R448, R539, R540) -/

/-- AWAIT (R448, R458): the held port is given up, and the thread holds it again once its core's line is asserted. -/
def State.doAwait (s : State) (t : Nat) (e : Elv) (rd re : Reg) : State :=
  let c := t / 16
  let s1 := s.dropPort t
  if s1.line c && decide (s1.holder c = none) && !s1.othersWait t .waitEvent 104 (isReadElv e) &&
      !s1.othersWait t .waitEvent 104 (!isReadElv e) then
    ((s1.setHolder c (some t)).setTwo t rd re 0 0).next t
  else s1.block t .waitEvent 104 e

/-- SLEEP (R447, R458). -/
def State.doSleep (s : State) (t : Nat) (ra : Reg) : State :=
  let us := (s.reg t ra).toNat % 2 ^ 32
  if us = 0 then s.next t
  else (s.armElapsed (.sleep t) us).block t .waitPort 0 (.sleep ra)

/-- The timer that a port names may be used by the thread (R443). -/
def State.timerOk (s : State) (t i : Nat) : Bool :=
  vendorThr t || (if i < 32 then s.bit R.SVC.TIMER_OWNER_LO.OWNER i else s.bit R.SVC.TIMER_OWNER_HI.OWNER (i - 32))
/-- The update port may be used by the thread (R228). -/
def State.uportOk (s : State) (t u : Nat) : Bool := vendorThr t || s.bit R.TABLES.UPORT_MODE.OWNER u

/-- Returns the next word of a multi-word item, and keeps the rest for the thread's next PINs. -/
def State.pinItem (s : State) (t p : Nat) (rd re : Reg) (ws : List Word64) : State :=
  match ws with
  | [] => s.next t
  | w :: rest =>
    let s1 := s.modThr t fun h => { h with pin := if rest.isEmpty then none else some (p, rest) }
    (s1.setTwo t rd re w (BitVec.ofNat 64 rest.length)).next t

/-- The first word of a new item. -/
def State.pinFresh (s : State) (t p : Nat) (rd re : Reg) (e : Elv) : State :=
  let wait := s.block t .waitPort p e
  if p < 16 then
    if s.othersWait t .waitPort p true then wait
    else
      match s.excPop p (poolOwner t) with
      | some (ws, s1) => s1.pinItem t p rd re ws
      | none => wait
  else if p = 16 then
    match (s.thr t).take with
    | some w => ((s.modThr t fun h => { h with take := none }).setTwo t rd re w 0).next t
    | none => wait
  else if 32 ≤ p ∧ p < 96 then
    if !s.timerOk t (p - 32) then s.trapHere t 0x07
    else
      let tm := s.svc.timers.get ETimer.init (p - 32)
      if tm.count = 0 ∨ s.othersWait t .waitPort p true then wait
      else
        let s1 := { s with svc := { s.svc with timers := s.svc.timers.put ETimer.init (p - 32) { tm with count := 0 } } }
        (s1.setTwo t rd re (BitVec.ofNat 64 tm.count) 0).next t
  else if 96 ≤ p ∧ p < 104 then
    if !s.uportOk t (p - 96) then s.trapHere t 0x07
    else if s.othersWait t .waitPort p true then wait
    else
      match s.uportPop (p - 96) with
      | some (ws, s1) => s1.pinItem t p rd re ws
      | none => wait
  else if p = 104 then s.doAwait t e rd re
  else s.trapHere t 0x07

/-- PIN (R443). -/
def State.doPin (s : State) (t : Nat) (rd re : Reg) (n : CNum) : State :=
  let p := s.cnum t n
  let e := Elv.pin rd re n
  match (s.thr t).pin with
  | some (q, ws) => if q = p then s.pinItem t p rd re ws else s.pinFresh t p rd re e
  | none => s.pinFresh t p rd re e

/-- A take request (R539). -/
def State.doTake (s : State) (t : Nat) (w : Word64) : State :=
  let v := w.toNat
  let exact := v.testBit 62
  let size := bitsOf v 0 24
  let pool := bitsOf v 56 3
  let h := s.thr t
  if (!exact && (decide (size = 0) || decide (1048576 < size))) || (exact && (decide (pool = 0) || decide (pool = 7))) ||
      decide (bitsOf v 24 32 ≠ 0) || decide (bitsOf v 59 3 ≠ 0) || h.take.isSome || h.takeWaits then s.trapHere t 0x08
  else
    match s.takeFor t w with
    | (s1, some b) => (s1.modThr t fun h => { h with take := some (s1.takeWord (some b)) }).next t
    | (s1, Option.none) =>
      let s2 := s1.takeFailed (v.testBit 63)
      if v.testBit 63 then
        let wt : Waiter := { thread := t, word := w }
        let s3 := { s2 with pools := { s2.pools with waiting := s2.pools.waiting ++ [wt] } }
        (s3.modThr t fun h => { h with takeWaits := true }).next t
      else
        (s2.modThr t fun h => { h with take := some (s2.takeWord none) }).next t

/-- A give (R540). -/
def State.doGive (s : State) (t : Nat) (w : Word64) : State :=
  match s.bufStart (w.toNat / 2 ^ 24) with
  | none => s.trapHere t 0x08
  | some (k, i) =>
    match s.holderOf k i with
    | some o =>
      if !vendorThr t && decide (o ≠ poolOwner t) && decide (o ≠ 1) then s.trapHere t 0x08
      else (s.release k i).next t
    | none => (s.doubleFree).next t

/-- Arms or cancels timer `i` (R447). -/
def State.doTimer (s : State) (t i : Nat) (w : Word64) : State :=
  let v := w.toNat
  let tm := s.svc.timers.get ETimer.init i
  if v.testBit 63 then
    let off : ETimer := { tm with armed := false }
    let s1 := { s with svc := { s.svc with timers := s.svc.timers.put ETimer.init i off } }
    (s1.disarm (.etimer i)).next t
  else if bitsOf v 0 32 = 0 then s.trapHere t 0x08
  else
    let tm1 : ETimer := { armed := true, thread := t, periodic := v.testBit 62, event := v.testBit 61,
                          interval := bitsOf v 0 32, count := 0 }
    let s1 := { s with svc := { s.svc with timers := s.svc.timers.put ETimer.init i tm1 } }
    (s1.armElapsed (.etimer i) (bitsOf v 0 32)).next t

/-- The words of a request or a command on a multi-word port, by its first word. -/
def poutLen (p : Nat) (w : Word64) : Nat := if p = 105 then 3 else uportLen w

/-- Another thread owns a partly written request or command on the port (R443). -/
def State.portOwned (s : State) (t p : Nat) : Bool :=
  allThreads.any fun u => decide (u ≠ t) &&
    (match (s.thr u).pout with
     | some (q, _) => decide (q = p)
     | none => false)

/-- A malformed send request (R446). -/
def State.sendBad (s : State) (t : Nat) (w0 w1 : Word64) : Bool :=
  let len := bitsOf w0.toNat 10 14
  decide (len < 60) || decide (9212 < len) || (w0.toNat.testBit 7 && !vendorThr t) ||
    (if w0.toNat.testBit 6 then decide (48 ≤ bitsOf w1.toNat 32 6) else !s.portExists (bitsOf w1.toNat 32 6))

/-- A whole request or command is accepted. -/
def State.poutDone (s : State) (t p : Nat) (ws : List Word64) : State :=
  if p = 105 then
    let w0 := ws.headD 0
    let w1 := (ws.drop 1).headD 0
    if s.sendBad t w0 w1 then s.trapHere t 0x08 else (s.sendReq t w0 w1).next t
  else (s.uportPush (p - 96) ws).next t

/-- The first word of a multi-word POUT (R443). -/
def State.poutFirst (s : State) (t p : Nat) (w : Word64) (e : Elv) : State :=
  if s.portOwned t p || s.othersWait t .waitPort p false || (decide (p ≠ 105) && !s.uportRoom (p - 96)) then
    s.block t .waitPort p e
  else if poutLen p w ≤ 1 then s.poutDone t p [w]
  else (s.modThr t fun h => { h with pout := some (p, [w]) }).next t

/-- The next word of a multi-word POUT on port 96-103 or 105 (R443). -/
def State.poutWord (s : State) (t p : Nat) (w : Word64) (e : Elv) : State :=
  match (s.thr t).pout with
  | some (q, ws) =>
    if q = p then
      let all := ws ++ [w]
      if poutLen p (all.headD 0) ≤ all.length then (s.modThr t fun h => { h with pout := none }).poutDone t p all
      else (s.modThr t fun h => { h with pout := some (p, all) }).next t
    else s.poutFirst t p w e
  | none => s.poutFirst t p w e

/-- POUT of one word (R443). -/
def State.doPoutWord (s : State) (t p : Nat) (w : Word64) (e : Elv) : State :=
  if p = 16 then s.doTake t w
  else if p = 17 then s.doGive t w
  else if 32 ≤ p ∧ p < 96 then (if s.timerOk t (p - 32) then s.doTimer t (p - 32) w else s.trapHere t 0x07)
  else if 96 ≤ p ∧ p < 104 then (if s.uportOk t (p - 96) then s.poutWord t p w e else s.trapHere t 0x07)
  else if p = 105 then s.poutWord t p w e
  else s.trapHere t 0x07

/-- The POUTs of a whole command or request, one after another (R443). -/
def State.doPoutAll (s : State) (t p : Nat) (ws : List Word64) : State :=
  if p = 105 ∨ (96 ≤ p ∧ p < 104 ∧ s.uportOk t (p - 96)) then
    if s.portOwned t p || s.othersWait t .waitPort p false || (decide (p ≠ 105) && !s.uportRoom (p - 96)) then
      s.block t .waitPort p (.poutAll p ws)
    else s.poutDone t p ws
  else s.trapHere t 0x07

/-! ## Long instructions (R462, R463) -/

/-- The named registers of a long instruction are distinct and not g0, and its other fields are 0. -/
def longOk (f : LongFn) (ra rb rc rd : Reg) : Bool :=
  match f with
  | .bcopy => decide (rd.val = 0) && distinct [ra.val, rb.val, rc.val]
  | .bfill => decide (rd.val = 0) && distinct [ra.val, rb.val, rc.val]
  | .crc32c => decide (rb.val = 0) && distinct [ra.val, rc.val, rd.val]
  | .hash => decide (rb.val = 0) && distinct [ra.val, rc.val, rd.val]
  | .tsearch => distinct [ra.val, rb.val, rc.val, rd.val]
where
  /-- No 0 and no number twice. -/
  distinct : List Nat → Bool
    | [] => true
    | x :: t => decide (x ≠ 0) && decide (x ∉ t) && distinct t

/-- After a chunk: the PC moves on when the count has reached 0, and otherwise stays on the instruction. -/
def State.chunkEnd (s : State) (t : Nat) (rc : Reg) : State :=
  if s.reg t rc = 0 then s.next t else s.modThr t fun h => { h with midLong := true, skipBp := false }

/-- The bytes that BFILL writes at `n` addresses from `x`: byte (address mod 8) of the pattern. -/
def fillBytes (pat : Word64) (x n : Nat) : List Byte :=
  (List.range n).map fun i => BitVec.ofNat 8 (pat.toNat / 2 ^ (8 * ((x + i) % 8)))

/-- One chunk of BCOPY or BFILL. -/
def State.copyChunk (s : State) (t : Nat) (copy : Bool) (ra rb rc : Reg) : State :=
  let a := (s.reg t ra).toNat
  let b := (s.reg t rb).toNat
  let k := min (s.reg t rc).toNat (64 - a % 64)
  match if copy then s.refuses t b k .load false else none with
  | some c => s.trap t c b
  | none =>
    match s.refuses t a k .store false with
    | some c => s.trap t c a
    | none =>
      match if copy then s.memRead b k else (s, true) with
      | (s1, false) => s1.trap t 0x09 b
      | (s1, true) =>
        match s1.memWrite a (if copy then s1.bytesAt b k else fillBytes (s.reg t rb) a k) with
        | (s2, false) => s2.trap t 0x09 a
        | (s2, true) =>
          let kk := BitVec.ofNat 64 k
          let s3 := (s2.setReg t ra (s.reg t ra + kk)).setReg t rc (s.reg t rc - kk)
          let s4 := if copy then s3.setReg t rb (s.reg t rb + kk) else s3
          let s5 := (s4.chunkEnd t rc).watch t a k true
          if copy then s5.watch t b k false else s5

/-- One chunk of CRC32C or HASH. -/
def State.crcChunk (s : State) (t poly : Nat) (ra rc rd : Reg) : State :=
  let a := (s.reg t ra).toNat
  let k := min (s.reg t rc).toNat (64 - a % 64)
  match s.refuses t a k .load false with
  | some c => s.trap t c a
  | none =>
    match s.memRead a k with
    | (s1, false) => s1.trap t 0x09 a
    | (s1, true) =>
      let st := crcBytes poly ((s.reg t rd).toNat % 2 ^ 32) (s1.bytesAt a k)
      let kk := BitVec.ofNat 64 k
      let s2 := ((s1.setReg t ra (s.reg t ra + kk)).setReg t rc (s.reg t rc - kk)).setReg t rd (BitVec.ofNat 64 st)
      (s2.chunkEnd t rc).watch t a k false

/-- The entries of a TSEARCH chunk: the first whose key matches, by its place. -/
def State.searchHit (s : State) (a : Nat) (key : Word64) (n : Nat) : Option Nat :=
  (List.range n).find? fun i => decide (ofLe (s.bytesAt (a + 16 * i) 8) = key.toNat)

/-- One chunk of TSEARCH. -/
def State.searchChunk (s : State) (t : Nat) (ra rb rc rd : Reg) : State :=
  let a := (s.reg t ra).toNat
  let n := min (s.reg t rc).toNat 4
  if a % 8 ≠ 0 then s.trap t 0x04 a
  else
    match s.refuses t a (16 * n) .load false with
    | some c => s.trap t c a
    | none =>
      match s.memRead a (16 * n) with
      | (s1, false) => s1.trap t 0x09 a
      | (s1, true) =>
        match s1.searchHit a (s.reg t rb) n with
        | some i =>
          let s2 := (s1.setReg t ra (s.reg t ra + BitVec.ofNat 64 (16 * i))).setReg t rc (s.reg t rc - BitVec.ofNat 64 i)
          ((s2.setReg t rd (BitVec.ofNat 64 (ofLe (s1.bytesAt (a + 16 * i + 8) 8)))).next t).watch t a (16 * n) false
        | none =>
          let s2 := (s1.setReg t ra (s.reg t ra + BitVec.ofNat 64 (16 * n))).setReg t rc (s.reg t rc - BitVec.ofNat 64 n)
          (s2.chunkEnd t rc).watch t a (16 * n) false

/-- One chunk of a long instruction; a count of 0 ends it at once. -/
def State.doLong (s : State) (t : Nat) (f : LongFn) (ra rb rc rd : Reg) : State :=
  if !longOk f ra rb rc rd then s.trapHere t 0x05
  else if s.reg t rc = 0 then s.next t
  else
    match f with
    | .bcopy => s.copyChunk t true ra rb rc
    | .bfill => s.copyChunk t false ra rb rc
    | .crc32c => s.crcChunk t polyC ra rc rd
    | .hash => s.crcChunk t poly32 ra rc rd
    | .tsearch => s.searchChunk t ra rb rc rd

/-! ## One instruction -/

/-- What an instruction does, its checks at issue passed (R456-R462). -/
def State.doElv (s : State) (t : Nat) (e : Elv) : State :=
  match e with
  | .alu f rd ra rb => (s.setReg t rd (alu f (s.reg t ra) (s.reg t rb))).next t
  | .imm f rd ra i => (s.setReg t rd (immOp f (s.reg t ra) i)).next t
  | .shifti f rd ra n => (s.setReg t rd (shiftOp f (s.reg t ra) n)).next t
  | .lui rd i => (s.setReg t rd (i.signExtend 64 <<< 16)).next t
  | .load n sg rd ra i => s.doLoad t n sg rd ra i
  | .store n rs ra i => s.doStore t n rs ra i
  | .branch f ra rb off =>
    if brTaken f (s.reg t ra) (s.reg t rb) then s.jump t ((s.thr t).pc + 4 * off.signExtend 40) else s.next t
  | .jal rd off =>
    let pc := (s.thr t).pc
    (s.setReg t rd ((pc + 4).zeroExtend 64)).jump t (pc + 4 * off.signExtend 40)
  | .jalr rd ra i =>
    let target := (s.reg t ra + i.signExtend 64).truncate 40
    if target.toNat % 4 ≠ 0 then s.trap t 0x04 target.toNat
    else (s.setReg t rd (((s.thr t).pc + 4).zeroExtend 64)).jump t target
  | .atomic f w rd ra rb => s.doAtomic t f w rd ra rb
  | .chin rd re n => s.doChin t rd re n
  | .chout rd n => s.doChout t rd n
  | .chend n => s.doChend t n
  | .pin rd re n => s.doPin t rd re n
  | .pout rd n => s.doPoutWord t (s.cnum t n) (s.reg t rd) e
  | .long f ra rb rc rd => s.doLong t f ra rb rc rd
  | .await => s.doAwait t e 0 0
  | .fence _ => s.next t
  | .trap i => s.trap t 0x01 i.toNat
  | .sleep ra => s.doSleep t ra
  | .self rd => (s.setReg t rd (BitVec.ofNat 64 (b2n (vendorThr t) * 256 + t))).next t
  | .poutAll p ws => s.doPoutAll t p ws
  | .reserved _ => s.trapHere t 0x05

/-- The slots that an instruction, or a chunk, takes (R464). -/
def slotsOf : Elv → Nat
  | .alu .mul _ _ _ => 2
  | .alu .mulhu _ _ _ => 2
  | .atomic .. => 2
  | .poutAll _ ws => ws.length
  | _ => 1

/-- The thread waits. -/
def Thread.waits (h : Thread) : Bool := decide (h.st = .waitChannel ∨ h.st = .waitPort ∨ h.st = .waitEvent)

/-- Executes an instruction of a READY thread, and counts its slots once it is not blocked (R464). -/
def State.run (s : State) (t : Nat) (e : Elv) : State :=
  let s1 := s.doElv t e
  if (s1.thr t).waits then s1 else s1.slots t (slotsOf e)

/-- The thread may issue: it is READY, its core on and awake, and the complex running (R429, R451, R485, R560). -/
def State.canIssue (s : State) (t : Nat) : Bool :=
  s.svcRuns && decide ((s.thr t).st = .ready) && !s.asleep (t / 16) && s.domOn (154 + t / 16)

/-- A thread issues one instruction, or one chunk: breakpoints and the fetch check come first (R434, R576, R578). -/
def State.issue (s : State) (t : Nat) (e : Elv) : State :=
  if !s.canIssue t then s
  else
    let h := s.thr t
    match if h.skipBp || h.midLong then none else s.breakAt t with
    | some b => s.halt t 2 (b.slot % 8)
    | none =>
      match s.refuses t h.pc.toNat 4 .fetch true with
      | some c => s.trap t c h.pc.toNat
      | none =>
        match s.memRead h.pc.toNat 4 with
        | (s1, false) => s1.trap t 0x09 h.pc.toNat
        | (s1, true) => s1.run t e

/-- A waiting thread tries its blocked instruction again (R431): the state after, where it is released. -/
def State.retry (s : State) (t : Nat) : Option State :=
  let h := s.thr t
  match h.blocked with
  | none => none
  | some (.sleep _) =>
    if s.isElapsed (.sleep t) then
      some ((((s.disarm (.sleep t)).modThr t fun h => { h with st := .ready, blocked := none }).next t).slots t 1)
    else none
  | some e =>
    let s1 := (s.modThr t fun h => { h with st := .ready }).run t e
    if (s1.thr t).waits then none else some (s1.modThr t fun k => { k with blocked := none })

end Sys2Proof.Machine
end

