-- ==== Sys2Proof/Machine/DbgOps.lean ====
section
/-! DEFINITION. The debug port: requests and their scope, the unlock exchange, run control, and memory and register accesses (R121-R129,
R566-R584). -/
namespace Sys2Proof.Machine

/-! ## Requests (R568-R573) -/

/-- Status codes (R570). -/
def rOk : Resp := ⟨0, []⟩
def rErr (code : Nat) : Resp := ⟨code, []⟩

/-- The port answers from the moment the Dealer starts (R566). -/
def State.portUp (s : State) : Bool := s.sup.started && decide (s.fld R.DEAL.STATUS.STEP ≠ 0)

/-- The scope bits that the port holds (R124, R126, R572): all four on an unclaimed module. -/
def State.scopeBits (s : State) : Nat :=
  if !s.isClaimed then 15 else if s.unlocked then s.fld R.SEC.STATUS.SCOPE else 0
/-- The port is open: unclaimed or unlocked. -/
def State.portOpen (s : State) : Bool := !s.isClaimed || s.unlocked
/-- VENDOR is held. -/
def State.vendorHeld (s : State) : Bool := bitOf s.scopeBits 2

/-- The scope that a command needs: any, locked too; an open port; or the bits of a mask (1 OBSERVE, 2 CONTROL, 4 VENDOR, 8 WRITE). -/
inductive Need where
  | any
  | opened
  | bits (mask : Nat)
  deriving DecidableEq, Repr

/-- The present scope covers the command. -/
def State.covers (s : State) (n : Need) : Bool :=
  match n with
  | .any => true
  | .opened => s.portOpen
  | .bits m => s.portOpen && decide (s.scopeBits &&& m = m)

/-- The bits of a mask, with VENDOR where the target asks for it. -/
def needBits (m : Nat) (vendor : Bool) : Need := .bits (m ||| (if vendor then 4 else 0))

/-- A request whose CRC is sound (R569, R572): a repeated SEQ gets the stored response; a command beyond the scope is LOCKED; any other
is executed.  A request whose response comes later answers nothing yet. -/
def State.request (s : State) (q : Bool) (n : Need) (f : State → State × Option Resp) : State :=
  if !s.portUp || s.dbg.late.isSome then s
  else
    match s.dbg.seq.filter fun e => e.1 == q with
    | some e => { s with dbg := { s.dbg with out := e.2 } }
    | none =>
      let s1 := s.bump R.DEBUG.PACKETS.COUNT
      if !s1.covers n then (s1.bump R.DEBUG.LOCKED_REFUSALS.COUNT).reply q (rErr 4)
      else
        match f s1 with
        | (s2, some r) => s2.reply q r
        | (s2, none) => { s2 with dbg := { s2.dbg with late := some q } }

/-- A request that is answered at once. -/
def State.ask (s : State) (q : Bool) (n : Need) (f : State → State × Resp) : State :=
  s.request q n fun s => ((f s).1, some (f s).2)

/-- A packet as it stands on the wire, for those that execute nothing (R568, R569): a failed CRC, a reserved opcode, a COUNT above 64. -/
def State.rawPacket (s : State) (l : List Byte) : State :=
  if !s.portUp || s.dbg.late.isSome || decide (l.length < 8) then s
  else if (l.getLastD 0).toNat ≠ crc8 l.dropLast then
    let s1 := (s.bump R.DEBUG.CRC_ERRORS.COUNT).setB R.DEBUG.STICKY.CRC_ERR_SEEN true
    { s1 with dbg := { s1.dbg with out := rErr 1 } }
  else
    let cmd := (l.headD 0).toNat
    let known := decide (cmd % 128 ∈ [1, 2, 3, 4, 5, 6, 7, 0x10, 0x11, 0x12, 0x14, 0x15, 0x18, 0x19, 0x1A, 0x20, 0x21, 0x22, 0x23, 0x24, 0x25])
    if known && decide ((l.getD 1 0).toNat ≤ 64) then s
    else s.ask (bitOf cmd 7) .any fun s => (s, rErr 2)

/-! ## The unlock exchange (R125-R129) -/

/-- The words of a byte string. -/
def wordsOf (l : List Byte) : List Nat := (List.range (l.length / 4)).map fun k => beAt l (4 * k) 4

/-- RELOCK, on an open port (R127, R584): the SEQ record is cleared, its own response included. -/
def State.relockReq (s : State) (q : Bool) : State :=
  let again := match s.dbg.seq with
    | some e => e.1 == q
    | none => false
  if s.portUp && s.dbg.late.isNone && !again && s.portOpen then
    let s1 := s.bump R.DEBUG.PACKETS.COUNT
    let s2 := if s1.unlocked then s1.relock else s1.dbgClear
    { s2 with dbg := { s2.dbg with out := rOk } }
  else s.ask q .opened fun s => (s, rOk)

/-- CHALLENGE. -/
def State.challengeNew (s : State) : State × Resp :=
  match s.dueAt .backoff with
  | some d => (s, ⟨9, [(d - s.now + secs 1 - 1) / secs 1]⟩)
  | none =>
    if !s.keysOk then (s, rErr 7)
    else
      let r := s.freeBytes 24
      let c := ascii "AQDU" ++ beBytes 2 1 ++ beBytes 2 0 ++ r.take 8 ++ beBytes 16 deviceId ++ r.drop 8 ++
        beBytes 4 (s.fld R.DEAL.DEAL_COUNT.COUNT) ++ beBytes 2 (s.fld R.NLINK.SEAT.SEAT) ++ beBytes 10 0
      let s1 := { s.usedFrees 24 with trust := { s.trust with challenge := some c }, dbg := { s.dbg with buf := c } }
      let s2 := (s1.set (R.SEC.LAST_CHALLENGE_k.ID 0) (beAt r 0 4)).set (R.SEC.LAST_CHALLENGE_k.ID 1) (beAt r 4 4)
      (s2.arm .challenge (secs 60), ⟨0, wordsOf c⟩)

/-- Checks 1 to 4 of R126. -/
def State.responseOk (s : State) (l : List Byte) : Bool :=
  match s.trust.challenge, s.runtimeSigner (beAt l 8 1) with
  | some c, some (key, usage) =>
    decide (l.take 8 = slice c 8 8) && s.keysOk && decide (beAt l 9 1 < 16) && decide (1 ≤ beAt l 10 2 ∧ beAt l 10 2 ≤ 1440) &&
      bitOf usage 1 && ecVerify key (sha384 (c ++ slice l 8 4)) (slice l 12 48) (slice l 60 48)
  | _, _ => false

/-- RESPONSE: its record is queued, and the answer waits for its read-back (check 5). -/
def State.response (s : State) (l : List Byte) : State × Option Resp :=
  let ready := s.on R.DEAL.DECK_STATE.DEALT && !s.on R.DEAL.DECK_STATE.JOURNAL_PAUSED && decide (0 < s.fld R.DEAL.JOURNAL.BUDGET) &&
    decide (s.deck.queue.length < 16)
  if l.length ≠ 108 then (s, some (rErr 3))
  else if s.responseOk l && ready then
    let c := s.trust.challenge.getD []
    let s1 := s.journal { typ := 5, merged := 0, payload := slice c 8 8 ++ slice l 8 2 }
    ({ s1 with trust := { s1.trust with unlocking := some (beAt l 9 1, beAt l 10 2) } }, none)
  else (s.unlockFail, some (rErr 7))

/-- ROOT_KEY (R129): the key of an image that has been accepted is this same key. -/
def State.keepRoot (s : State) (key : List Byte) : State × Resp :=
  if key.length = 97 ∧ s.isClaimed ∧ ofBe (sha384 key) = s.trust.otp.ownerHash then
    ({ s with trust := { s.trust with rootKey := some key } }, rOk)
  else (s, rErr 7)

/-- ATTEST: the request joins the queue of R123. -/
def State.attestReq (s : State) (l : List Byte) : State × Resp :=
  if !attReqOk l then (s, rErr 3) else if !s.attFree then (s, rErr 7) else (s.askStatement l none, rOk)

/-- BUF_READ: what the buffer does not hold is open (free values). -/
def State.bufRead (s : State) (o n : Nat) : State × Resp :=
  if o % 4 ≠ 0 ∨ 2048 ≤ o ∨ 2048 < o + 4 * n then (s, rErr 3)
  else
    let l := slice s.dbg.buf o (4 * n)
    let k := 4 * n - l.length
    (s.usedFrees k, ⟨0, wordsOf (l ++ s.freeBytes k)⟩)

/-! ## Targets (R575) -/

/-- The threads that a target names. -/
def targetsOf (v : Nat) : List Nat :=
  if bitOf v 7 then (if bitOf v 6 then allThreads else (List.range 16).map fun j => bitsOf v 4 2 * 16 + j)
  else [bitsOf v 0 6]

/-- A target with vendor threads needs VENDOR (R572). -/
def vendorTarget (v : Nat) : Bool := (targetsOf v).any vendorThr

/-- The cores that a target names are woken (R575, R486). -/
def State.wakeTargets (s : State) (v : Nat) : State :=
  s.each ((targetsOf v).map coreOfThr).eraseDups fun s c => if s.asleep c then s.wake c 5 else s

/-- A command on threads: not while the complex is in reset or held (R570). -/
def State.onThreads (s : State) (v : Nat) (f : State → State × Option Resp) : State × Option Resp :=
  if !s.svcRuns then (s, some (rErr 0x0B)) else f (s.wakeTargets v)

/-- HALT of one thread: at its boundary a breakpoint at its PC goes first (R575, R578); one with a pending step is HALTED by the step. -/
def State.haltThr (s : State) (t : Nat) : State :=
  let h := s.thr t
  if h.stepping then s.modThr t fun h => { h with afterStep := 1 }
  else if h.st = .stopped ∨ h.st = .trapped ∨ h.st = .halted then s
  else
    match if h.st ≠ .ready ∨ h.skipBp ∨ h.midLong then none else s.breakAt t with
    | some b => s.halt t 2 (b.slot % 8)
    | none => s.halt t 1 0

/-- RESUME of one thread (R576, R577). -/
def State.resumeOne (s : State) (t : Nat) : State :=
  if (s.thr t).stepping then s.modThr t fun h => { h with afterStep := 2 } else s.resumeThr t

/-- Some thread of the target can be resumed. -/
def State.canResume (s : State) (l : List Nat) : Bool := l.any fun t => decide ((s.thr t).st = .halted) || (s.thr t).stepping

/-! ## Steps (R466, R577) -/

/-- The rest of the chunks of a long instruction, at most `n` of them. -/
def State.moreChunks (s : State) (t : Nat) (e : Elv) : Nat → State
  | 0 => s
  | n + 1 => if (s.thr t).st = .ready ∧ (s.thr t).midLong then (s.run t e).moreChunks t e n else s

/-- The chunks that are left of a long instruction are at most its count. -/
def State.chunksLeft (s : State) (t : Nat) (e : Elv) : Nat :=
  match e with
  | .long _ _ _ rc _ => (s.reg t rc).toNat
  | _ => 0

/-- One instruction, or one chunk of it, of a READY thread at its PC. -/
def State.stepAt (s : State) (t : Nat) (chunk : Bool) : State :=
  let a := (s.thr t).pc.toNat
  match s.refuses t a 4 .fetch true with
  | some c => s.trap t c a
  | none =>
    match s.memRead a 4 with
    | (s1, false) => s1.trap t 0x09 a
    | (s1, true) =>
      let e := Elv.decode (BitVec.ofNat 32 (ofLe (s1.bytesAt a 4)))
      let s2 := s1.run t e
      if chunk then s2 else s2.moreChunks t e (s1.chunksLeft t e)

/-- The step of a thread has ended: HALTED with step cause, unless it trapped, stopped or was halted by a watchpoint; a RESUME sent
meanwhile acts now. -/
def State.stepEnd (s : State) (t : Nat) : State :=
  let next := (s.thr t).afterStep
  let s1 := if (s.thr t).st = .ready then s.halt t 4 0 else s
  let s2 := s1.modThr t fun h => { h with stepping := false, afterStep := 0 }
  if next = 2 then s2.resumeThr t else s2

/-- STEP of one HALTED thread. -/
def State.stepThr (s : State) (t : Nat) (chunk : Bool) : State :=
  if (s.thr t).st ≠ .halted then s
  else
    let s1 := (s.modThr t fun h => { h with st := .ready, skipBp := true, afterStep := 0 }).stepAt t chunk
    if (s1.thr t).waits then (s1.modThr t fun h => { h with stepping := true, afterStep := 0 }).refreeze (t / 16)
    else s1.stepEnd t

/-- Some step is pending. -/
def State.stepPending (s : State) : Bool := allThreads.any fun t => (s.thr t).stepping

/-- STEP: the response waits for a blocked instruction, for up to 1 ms. -/
def State.stepTarget (s : State) (v : Nat) (chunk : Bool) : State × Option Resp :=
  let l := (targetsOf v).filter fun t => decide ((s.thr t).st = .halted)
  if l.isEmpty then (s, some (rErr 6))
  else
    let s1 := s.each l fun s t => s.stepThr t chunk
    if l.any fun t => (s1.thr t).stepping then (s1.arm .step (msec 1), none) else (s1, some rOk)

/-- A step still blocked after 1 ms is answered STEP_PENDING. -/
def State.stepLate (s : State) : State :=
  if s.isDue .step then (s.disarm .step).lateReply (if s.stepPending then rErr 0x0A else rOk) else s

/-- A blocked stepped instruction completes; where its request is not yet answered, it is. -/
def State.stepDone (s : State) (t : Nat) : State :=
  if !(s.svcRuns && (s.thr t).stepping && (s.thr t).waits && s.domOn (154 + t / 16)) then s
  else
    match (s.wake (t / 16) 3).retry t with
    | none => s
    | some s1 =>
      let s2 := s1.stepEnd t
      if s2.stepPending then s2 else if s2.running .step then (s2.disarm .step).lateReply rOk else s2

/-! ## Registers of a thread (R576) -/

/-- REG_READ: two words, the high one first. -/
def State.regReadThr (s : State) (v r : Nat) : State × Option Resp :=
  let t := bitsOf v 0 6
  if bitOf v 7 ∨ bitOf v 6 ∨ 32 < r then (s, some (rErr 3))
  else if (s.thr t).st ≠ .halted then (s, some (rErr 6))
  else
    let x := if r = 32 then (s.thr t).pc.toNat else (s.reg t ⟨r % 32, Nat.mod_lt _ (by decide)⟩).toNat
    (s, some ⟨0, [x / 2 ^ 32, x % 2 ^ 32]⟩)

/-- A debug write has executed (R574, R585). -/
def State.wroteDebug (s : State) : State := (s.bump R.DEBUG.DEBUG_WRITES.COUNT).setB R.DEBUG.STICKY.WRITE_SEEN true

/-- REG_WRITE; a new PC is a new instruction, whose breakpoint fires unless the thread is resumed or stepped from there. -/
def State.regWriteThr (s : State) (v r x : Nat) : State × Option Resp :=
  let t := bitsOf v 0 6
  if bitOf v 7 ∨ bitOf v 6 ∨ 32 < r ∨ (r = 32 ∧ (x % 4 ≠ 0 ∨ 2 ^ 40 ≤ x)) then (s, some (rErr 3))
  else if (s.thr t).st ≠ .halted then (s, some (rErr 6))
  else if r = 32 then
    let same := decide ((s.thr t).pc.toNat = x)
    ((s.modThr t fun h => { h with pc := BitVec.ofNat 40 x, midLong := h.midLong && same }).wroteDebug, some rOk)
  else ((s.setReg t ⟨r % 32, Nat.mod_lt _ (by decide)⟩ (BitVec.ofNat 64 x)).wroteDebug, some rOk)

/-! ## Breakpoints and watchpoints (R578) -/

/-- A thread mask with vendor threads. -/
def vendorMask (w : Nat) : Bool := decide (w % 16 ≠ 0)

/-- BREAK. -/
def State.setBreak (s : State) (pc : Addr) (w : Nat) : State × Resp :=
  let k := bitsOf w 24 2 * 8 + bitsOf w 16 3
  if pc.toNat % 4 ≠ 0 then (s, rErr 3)
  else
    let l := s.dbg.brks.filter fun b => decide (b.slot ≠ k)
    let s1 := if s.asleep (bitsOf w 24 2) then s.wake (bitsOf w 24 2) 5 else s
    ({ s1 with dbg := { s1.dbg with brks := if bitOf w 31 then ⟨k, pc, bitsOf w 0 16⟩ :: l else l } }, rOk)

/-- WATCH. -/
def State.setWatch (s : State) (a w n : Nat) : State × Resp :=
  let k := bitsOf w 24 2 * 4 + bitsOf w 16 2
  let lg := n % 32
  if 12 < lg ∨ a % 2 ^ lg ≠ 0 then (s, rErr 3)
  else
    let l := s.dbg.wtcs.filter fun b => decide (b.slot ≠ k)
    let s1 := if s.asleep (bitsOf w 24 2) then s.wake (bitsOf w 24 2) 5 else s
    ({ s1 with dbg := { s1.dbg with wtcs := if bitOf w 31 then ⟨k, a, lg, bitOf w 30, bitOf w 29, bitsOf w 0 16⟩ :: l else l } }, rOk)

/-! ## Memory and registers (R573, R574) -/

/-- A word that needs VENDOR (R572): vendor SRAM, the flow table and the pool area with the vendor-only copies, and regions 0-7. -/
def State.vendorWord (s : State) (a : Nat) : Bool :=
  decide (0x600000 ≤ a ∧ a < 0x800000) || decide (dramBase ≤ a ∧ a < s.ownerArea) ||
    decide (0x10300000 ≤ a ∧ a < 0x10340000 ∧ 0x200 ≤ a % 0x10000 ∧ a % 0x10000 < 0x280)

/-- The word addresses of a request. -/
def spanOf (a n : Nat) : List Nat := (List.range n).map fun i => a + 4 * i

/-- A word that the port never reaches (R574): the key store; and for a write the services ROM and the identity ROM's DEVICE_ID. -/
def State.deniedWord (s : State) (write : Bool) (a : Nat) : Bool :=
  decide (0x10020200 ≤ a ∧ a < 0x10020300) ||
    (write && (decide (s.zone a = .rom) || decide (0x10020004 ≤ a ∧ a < 0x10020014)))

/-- What refuses a request of `n` words at `a` as a whole. -/
def State.memBad (s : State) (a n : Nat) (write : Bool) : Option Nat :=
  if n = 0 ∨ a % 4 ≠ 0 then some 3
  else if s.zone a = .none then some 5
  else if s.zone (a + 4 * n - 1) ≠ s.zone a then some 3
  else if (spanOf a n).any (s.deniedWord write) then some 5
  else none

/-- The words of MEM_READ from `a` on: those read, and whether all could be. -/
def State.readWords (s : State) (who : Who) (a : Nat) : Nat → State × List Nat × Bool
  | 0 => (s, [], true)
  | n + 1 =>
    if s.zone a = .regs then
      match s.regRead who a with
      | (s1, v, _) => match s1.settle.readWords who (a + 4) n with
        | (s2, l, ok) => (s2, v :: l, ok)
    else
      match s.memRead a 4 with
      | (s1, false) => (s1, [], false)
      | (s1, true) => match s1.readWords who (a + 4) n with
        | (s2, l, ok) => (s2, ofLe (s1.bytesAt a 4) :: l, ok)

/-- The words of MEM_WRITE from `a` on: how many were written, and whether all could be. -/
def State.writeWords (s : State) (who : Who) (a : Nat) : List Nat → State × Nat × Bool
  | [] => (s, 0, true)
  | w :: l =>
    if s.zone a = .regs then
      match (s.regWrite who a w).1.settle.writeWords who (a + 4) l with
      | (s2, k, ok) => (s2, k + 1, ok)
    else
      match s.memWrite a (leBytes 4 w) with
      | (s1, false) => (s1, 0, false)
      | (s1, true) => match s1.writeWords who (a + 4) l with
        | (s2, k, ok) => (s2, k + 1, ok)

/-- MEM_READ. -/
def State.dbgRead (s : State) (a n : Nat) : State × Resp :=
  if 64 < n then (s, rErr 2)
  else
    match s.memBad a n false with
    | some c => (s, rErr c)
    | none =>
      match s.readWords (.debug s.vendorHeld) a n with
      | (s1, l, ok) => (s1, ⟨if ok then 0 else 8, l⟩)

/-- MEM_WRITE; after an error COUNT gives the words performed, and the data of such a response is open (free values). -/
def State.dbgWrite (s : State) (a : Nat) (l : List Nat) : State × Resp :=
  if 64 < l.length then (s, rErr 2)
  else
    match s.memBad a l.length true with
    | some c => (s, rErr c)
    | none =>
      match s.writeWords (.debug s.vendorHeld) a l with
      | (s1, _, true) => (s1.wroteDebug, rOk)
      | (s1, k, false) => ((s1.usedFrees (4 * k)).wroteDebug, ⟨8, wordsOf (s1.freeBytes (4 * k))⟩)

/-! ## Channels and the complex (R580-R583) -/

/-- A thread whose message may be abandoned (R442). -/
def State.mayAbandon (s : State) (t : Nat) : Bool := decide ((s.thr t).st = .halted ∨ (s.thr t).st = .trapped)

/-- A vendor thread owns a message of the channel. -/
def State.vendorChan (s : State) (n : Nat) : Bool :=
  (match (s.chan n).owner with
   | some (t, _) => vendorThr t
   | none => false) ||
  (match (s.chan n).reader with
   | some (t, _) => vendorThr t
   | none => false)

/-- CH_ABANDON: the writer's message first, then that of the reader. -/
def State.dbgAbandon (s : State) (n : Nat) : State × Resp :=
  match (s.chan n).owner, (s.chan n).reader with
  | some (u, _), some (v, _) =>
    if s.mayAbandon u then ((if s.mayAbandon v then s.abandonRead n else s).abandonWrite n, rOk) else (s, rErr 7)
  | some (u, _), none => if s.mayAbandon u then (s.abandonWrite n, rOk) else (s, rErr 7)
  | none, some (v, _) => if s.mayAbandon v then (s.abandonRead n, rOk) else (s, rErr 7)
  | none, none => (s, rOk)

/-- SVC_RESTART. -/
def State.dbgRestart (s : State) : State × Resp :=
  if s.on R.FAULT.STATE.SVC_HELD then (s, rErr 7) else if !s.svc.vendorUp then (s, rErr 0x0B) else (s.startRestart, rOk)

/-- SVC_RELEASE: a complex that had not started before it was held starts under R432 instead. -/
def State.dbgRelease (s : State) : State × Resp :=
  let sticky := (List.range 16).any fun k => s.isSticky (240 + k)
  let latched := (List.range 320).any s.isLatched
  if !s.on R.FAULT.STATE.SVC_HELD || sticky || latched then (s, rErr 7)
  else
    let s1 := s.setB R.FAULT.STATE.SVC_HELD false
    ({ s1 with svc := { s1.svc with restarting := 0 } }.startRestart, rOk)

/-! ## Attach and detach (R566, R584, R585) -/

/-- DBG_PRES_N has gone low. -/
def State.dbgAttach (s : State) : State :=
  let s1 := { s with sup := { s.sup with dbgPresN := false } }
  if s.sup.started then (s1.setB R.DEBUG.STATUS.ATTACHED true).setB R.DEBUG.STICKY.ATTACH_SEEN true else s1

/-- DBG_PRES_N has been high for 1 ms. -/
def State.dbgDetach (s : State) : State :=
  let s1 := { s with sup := { s.sup with dbgPresN := true } }
  if s.sup.started && s.on R.DEBUG.STATUS.ATTACHED then
    let s2 := (s1.setB R.DEBUG.STATUS.ATTACHED false).bump R.DEBUG.DETACHES.COUNT
    let s3 := s2.relock.dbgClear
    { s3 with dbg := { s3.dbg with late := none } }
  else s1

end Sys2Proof.Machine
end

