-- ==== Sys2Proof/Machine/DebugCmds.lean ====
section
/-! DEFINITION. The commands of the debug port (R566-R585).  Each request carries its SEQ bit; its other operands are the fields of
ADDR and DATA that R571 gives it. -/
namespace Sys2Proof.Machine

/-- DEBUG_BAD_PACKET (R568, R569): the bytes of a request with a failed CRC, a reserved opcode or a COUNT above 64. -/
def execDebugBadPacket (bytes : List (BitVec 8)) (s : State) : Out State := fin (s.rawPacket bytes)

/-- DEBUG_STATUS. -/
def execDebugStatus (seq : Bool) (s : State) : Out State :=
  fin (s.ask seq .any fun s => (s, ⟨0, [(s.regRead (.debug true) 0x10080000).2.1]⟩))

/-- DEBUG_CHALLENGE (R125, R128). -/
def execDebugChallenge (seq : Bool) (s : State) : Out State := fin (s.ask seq .any State.challengeNew)

/-- DEBUG_RESPONSE (R126): the 108 bytes. -/
def execDebugResponse (seq : Bool) (bytes : List (BitVec 8)) (s : State) : Out State :=
  fin (s.request seq .any fun s => s.response bytes)

/-- DEBUG_ATTEST (R121): the 40 bytes. -/
def execDebugAttest (seq : Bool) (bytes : List (BitVec 8)) (s : State) : Out State :=
  fin (s.ask seq .any fun s => s.attestReq bytes)

/-- DEBUG_BUF_READ. -/
def execDebugBufRead (seq : Bool) (offset : BitVec 40) (count : Fin 65) (s : State) : Out State :=
  fin (s.ask seq .any fun s => s.bufRead offset.toNat count.val)

/-- DEBUG_RELOCK (R127, R584): it clears the SEQ record, its own response included. -/
def execDebugRelock (seq : Bool) (s : State) : Out State := fin (s.relockReq seq)

/-- DEBUG_ROOT_KEY (R129): the 97 bytes. -/
def execDebugRootKey (seq : Bool) (key : List (BitVec 8)) (s : State) : Out State :=
  fin (s.ask seq .any fun s => s.keepRoot key)

/-- DEBUG_HALT. -/
def execDebugHalt (seq : Bool) (target : BitVec 8) (s : State) : Out State :=
  fin (s.request seq (needBits 2 (vendorTarget target.toNat)) fun s =>
    s.onThreads target.toNat fun s => (s.each (targetsOf target.toNat) State.haltThr, some rOk))

/-- DEBUG_RESUME. -/
def execDebugResume (seq : Bool) (target : BitVec 8) (s : State) : Out State :=
  fin (s.request seq (needBits 2 (vendorTarget target.toNat)) fun s =>
    s.onThreads target.toNat fun s =>
      if s.canResume (targetsOf target.toNat) || target.getLsbD 7 then (s.each (targetsOf target.toNat) State.resumeOne, some rOk)
      else (s, some (rErr 6)))

/-- DEBUG_STEP. -/
def execDebugStep (seq : Bool) (target : BitVec 8) (chunk : Bool) (s : State) : Out State :=
  fin (s.request seq (needBits 2 (vendorTarget target.toNat)) fun s =>
    s.onThreads target.toNat fun s => s.stepTarget target.toNat chunk)

/-- DEBUG_STEP_PENDING. -/
def execDebugStepPending (s : State) : Out State := fin s.stepLate

/-- DEBUG_STEP_COMPLETE. -/
def execDebugStepComplete (t : Fin 64) (s : State) : Out State := fin (s.stepDone t.val)

/-- DEBUG_REG_READ: register 1-31, or 32 for the PC. -/
def execDebugRegRead (seq : Bool) (target reg : BitVec 8) (s : State) : Out State :=
  fin (s.request seq (needBits 1 (vendorTarget target.toNat)) fun s =>
    s.onThreads target.toNat fun s => s.regReadThr target.toNat reg.toNat)

/-- DEBUG_REG_WRITE. -/
def execDebugRegWrite (seq : Bool) (target reg : BitVec 8) (v : BitVec 64) (s : State) : Out State :=
  fin (s.request seq (needBits 10 (vendorTarget target.toNat)) fun s =>
    s.onThreads target.toNat fun s => s.regWriteThr target.toNat reg.toNat v.toNat)

/-- DEBUG_BREAK: the PC and word 0. -/
def execDebugBreak (seq : Bool) (pc : BitVec 40) (w : BitVec 32) (s : State) : Out State :=
  fin (s.ask seq (needBits 2 (vendorMask w.toNat)) fun s => s.setBreak pc w.toNat)

/-- DEBUG_WATCH: the address and both words. -/
def execDebugWatch (seq : Bool) (a : BitVec 40) (w x : BitVec 32) (s : State) : Out State :=
  fin (s.ask seq (needBits 2 (vendorMask w.toNat)) fun s => s.setWatch a.toNat w.toNat x.toNat)

/-- DEBUG_FREEZE. -/
def execDebugFreeze (seq : Bool) (mask : BitVec 4) (s : State) : Out State :=
  fin (s.ask seq (.bits 2) fun s => (s.setFreeze mask.toNat, rOk))

/-- DEBUG_MEM_READ. -/
def execDebugMemRead (seq : Bool) (a : BitVec 40) (count : Fin 65) (s : State) : Out State :=
  fin (s.ask seq (needBits 1 ((spanOf a.toNat count.val).any s.vendorWord)) fun s => s.dbgRead a.toNat count.val)

/-- DEBUG_MEM_WRITE. -/
def execDebugMemWrite (seq : Bool) (a : BitVec 40) (words : List (BitVec 32)) (s : State) : Out State :=
  fin (s.ask seq (needBits 8 ((spanOf a.toNat words.length).any s.vendorWord)) fun s =>
    s.dbgWrite a.toNat (words.map (·.toNat)))

/-- DEBUG_CH_STATUS. -/
def execDebugChStatus (seq : Bool) (ch : Fin 512) (s : State) : Out State :=
  fin (s.ask seq (.bits 1) fun s => (s, ⟨0, [s.chPeek ch.val]⟩))

/-- DEBUG_CH_ABANDON. -/
def execDebugChAbandon (seq : Bool) (ch : Fin 512) (s : State) : Out State :=
  fin (s.ask seq (needBits 2 (s.vendorChan ch.val)) fun s => s.dbgAbandon ch.val)

/-- DEBUG_SVC_RESTART. -/
def execDebugSvcRestart (seq : Bool) (s : State) : Out State := fin (s.ask seq (.bits 6) State.dbgRestart)

/-- DEBUG_SVC_RELEASE. -/
def execDebugSvcRelease (seq : Bool) (s : State) : Out State := fin (s.ask seq (.bits 14) State.dbgRelease)

/-- DEBUG_ATTACH. -/
def execDebugAttach (s : State) : Out State := fin s.dbgAttach

/-- DEBUG_DETACH. -/
def execDebugDetach (s : State) : Out State := fin s.dbgDetach

end Sys2Proof.Machine
end

