-- ==== Sys2Proof/Machine/ElvonCmds.lean ====
section
/-! DEFINITION. The meanings of the Elvon instructions (R455-R462): thread `t` issues one instruction, or one chunk of a long
one.  A thread that cannot issue changes nothing (R429). -/
namespace Sys2Proof.Machine

/-- ADD (R457). -/
def execAdd (t : Fin 64) (rd : Reg) (ra : Reg) (rb : Reg) (s : State) : Out State := fin (s.issue t.val (.alu .add rd ra rb))

/-- SUB (R457). -/
def execSub (t : Fin 64) (rd : Reg) (ra : Reg) (rb : Reg) (s : State) : Out State := fin (s.issue t.val (.alu .sub rd ra rb))

/-- AND (R457). -/
def execAnd (t : Fin 64) (rd : Reg) (ra : Reg) (rb : Reg) (s : State) : Out State := fin (s.issue t.val (.alu .and rd ra rb))

/-- OR (R457). -/
def execOr (t : Fin 64) (rd : Reg) (ra : Reg) (rb : Reg) (s : State) : Out State := fin (s.issue t.val (.alu .or rd ra rb))

/-- XOR (R457). -/
def execXor (t : Fin 64) (rd : Reg) (ra : Reg) (rb : Reg) (s : State) : Out State := fin (s.issue t.val (.alu .xor rd ra rb))

/-- SLL (R457). -/
def execSll (t : Fin 64) (rd : Reg) (ra : Reg) (rb : Reg) (s : State) : Out State := fin (s.issue t.val (.alu .sll rd ra rb))

/-- SRL (R457). -/
def execSrl (t : Fin 64) (rd : Reg) (ra : Reg) (rb : Reg) (s : State) : Out State := fin (s.issue t.val (.alu .srl rd ra rb))

/-- SRA (R457). -/
def execSra (t : Fin 64) (rd : Reg) (ra : Reg) (rb : Reg) (s : State) : Out State := fin (s.issue t.val (.alu .sra rd ra rb))

/-- SLT (R457). -/
def execSlt (t : Fin 64) (rd : Reg) (ra : Reg) (rb : Reg) (s : State) : Out State := fin (s.issue t.val (.alu .slt rd ra rb))

/-- SLTU (R457). -/
def execSltu (t : Fin 64) (rd : Reg) (ra : Reg) (rb : Reg) (s : State) : Out State := fin (s.issue t.val (.alu .sltu rd ra rb))

/-- MUL (R457). -/
def execMul (t : Fin 64) (rd : Reg) (ra : Reg) (rb : Reg) (s : State) : Out State := fin (s.issue t.val (.alu .mul rd ra rb))

/-- MULHU (R457). -/
def execMulhu (t : Fin 64) (rd : Reg) (ra : Reg) (rb : Reg) (s : State) : Out State := fin (s.issue t.val (.alu .mulhu rd ra rb))

/-- MIN (R457). -/
def execMin (t : Fin 64) (rd : Reg) (ra : Reg) (rb : Reg) (s : State) : Out State := fin (s.issue t.val (.alu .min rd ra rb))

/-- MINU (R457). -/
def execMinu (t : Fin 64) (rd : Reg) (ra : Reg) (rb : Reg) (s : State) : Out State := fin (s.issue t.val (.alu .minu rd ra rb))

/-- BSWAP (R457). -/
def execBswap (t : Fin 64) (rd : Reg) (ra : Reg) (s : State) : Out State := fin (s.issue t.val (.alu .bswap rd ra 0))

/-- POPC (R457). -/
def execPopc (t : Fin 64) (rd : Reg) (ra : Reg) (s : State) : Out State := fin (s.issue t.val (.alu .popc rd ra 0))

/-- ADDI (R456). -/
def execAddi (t : Fin 64) (rd : Reg) (ra : Reg) (imm : BitVec 16) (s : State) : Out State := fin (s.issue t.val (.imm .addi rd ra imm))

/-- ANDI (R456). -/
def execAndi (t : Fin 64) (rd : Reg) (ra : Reg) (imm : BitVec 16) (s : State) : Out State := fin (s.issue t.val (.imm .andi rd ra imm))

/-- ORI (R456). -/
def execOri (t : Fin 64) (rd : Reg) (ra : Reg) (imm : BitVec 16) (s : State) : Out State := fin (s.issue t.val (.imm .ori rd ra imm))

/-- XORI (R456). -/
def execXori (t : Fin 64) (rd : Reg) (ra : Reg) (imm : BitVec 16) (s : State) : Out State := fin (s.issue t.val (.imm .xori rd ra imm))

/-- LHI (R456). -/
def execLhi (t : Fin 64) (rd : Reg) (ra : Reg) (imm : BitVec 16) (s : State) : Out State := fin (s.issue t.val (.imm .lhi rd ra imm))

/-- SLTI (R456). -/
def execSlti (t : Fin 64) (rd : Reg) (ra : Reg) (imm : BitVec 16) (s : State) : Out State := fin (s.issue t.val (.imm .slti rd ra imm))

/-- SHIFTI_SLL (R456). -/
def execShiftiSll (t : Fin 64) (rd : Reg) (ra : Reg) (amount : BitVec 6) (s : State) : Out State := fin (s.issue t.val (.shifti .sll rd ra amount))

/-- SHIFTI_SRL (R456). -/
def execShiftiSrl (t : Fin 64) (rd : Reg) (ra : Reg) (amount : BitVec 6) (s : State) : Out State := fin (s.issue t.val (.shifti .srl rd ra amount))

/-- SHIFTI_SRA (R456). -/
def execShiftiSra (t : Fin 64) (rd : Reg) (ra : Reg) (amount : BitVec 6) (s : State) : Out State := fin (s.issue t.val (.shifti .sra rd ra amount))

/-- LUI (R456). -/
def execLui (t : Fin 64) (rd : Reg) (imm : BitVec 16) (s : State) : Out State := fin (s.issue t.val (.lui rd imm))

/-- LB (R456, R459). -/
def execLb (t : Fin 64) (rd : Reg) (ra : Reg) (imm : BitVec 16) (s : State) : Out State := fin (s.issue t.val (.load 1 true rd ra imm))

/-- LH (R456, R459). -/
def execLh (t : Fin 64) (rd : Reg) (ra : Reg) (imm : BitVec 16) (s : State) : Out State := fin (s.issue t.val (.load 2 true rd ra imm))

/-- LW (R456, R459). -/
def execLw (t : Fin 64) (rd : Reg) (ra : Reg) (imm : BitVec 16) (s : State) : Out State := fin (s.issue t.val (.load 4 true rd ra imm))

/-- LD (R456, R459). -/
def execLd (t : Fin 64) (rd : Reg) (ra : Reg) (imm : BitVec 16) (s : State) : Out State := fin (s.issue t.val (.load 8 true rd ra imm))

/-- LBU (R456, R459). -/
def execLbu (t : Fin 64) (rd : Reg) (ra : Reg) (imm : BitVec 16) (s : State) : Out State := fin (s.issue t.val (.load 1 false rd ra imm))

/-- LHU (R456, R459). -/
def execLhu (t : Fin 64) (rd : Reg) (ra : Reg) (imm : BitVec 16) (s : State) : Out State := fin (s.issue t.val (.load 2 false rd ra imm))

/-- LWU (R456, R459). -/
def execLwu (t : Fin 64) (rd : Reg) (ra : Reg) (imm : BitVec 16) (s : State) : Out State := fin (s.issue t.val (.load 4 false rd ra imm))

/-- SB (R456, R459). -/
def execSb (t : Fin 64) (rs : Reg) (ra : Reg) (imm : BitVec 16) (s : State) : Out State := fin (s.issue t.val (.store 1 rs ra imm))

/-- SH (R456, R459). -/
def execSh (t : Fin 64) (rs : Reg) (ra : Reg) (imm : BitVec 16) (s : State) : Out State := fin (s.issue t.val (.store 2 rs ra imm))

/-- SW (R456, R459). -/
def execSw (t : Fin 64) (rs : Reg) (ra : Reg) (imm : BitVec 16) (s : State) : Out State := fin (s.issue t.val (.store 4 rs ra imm))

/-- SD (R456, R459). -/
def execSd (t : Fin 64) (rs : Reg) (ra : Reg) (imm : BitVec 16) (s : State) : Out State := fin (s.issue t.val (.store 8 rs ra imm))

/-- BEQ (R456). -/
def execBeq (t : Fin 64) (ra : Reg) (rb : Reg) (off : BitVec 16) (s : State) : Out State := fin (s.issue t.val (.branch .eq ra rb off))

/-- BNE (R456). -/
def execBne (t : Fin 64) (ra : Reg) (rb : Reg) (off : BitVec 16) (s : State) : Out State := fin (s.issue t.val (.branch .ne ra rb off))

/-- BLT (R456). -/
def execBlt (t : Fin 64) (ra : Reg) (rb : Reg) (off : BitVec 16) (s : State) : Out State := fin (s.issue t.val (.branch .lt ra rb off))

/-- BGE (R456). -/
def execBge (t : Fin 64) (ra : Reg) (rb : Reg) (off : BitVec 16) (s : State) : Out State := fin (s.issue t.val (.branch .ge ra rb off))

/-- BLTU (R456). -/
def execBltu (t : Fin 64) (ra : Reg) (rb : Reg) (off : BitVec 16) (s : State) : Out State := fin (s.issue t.val (.branch .ltu ra rb off))

/-- BGEU (R456). -/
def execBgeu (t : Fin 64) (ra : Reg) (rb : Reg) (off : BitVec 16) (s : State) : Out State := fin (s.issue t.val (.branch .geu ra rb off))

/-- JAL (R456). -/
def execJal (t : Fin 64) (rd : Reg) (off : BitVec 21) (s : State) : Out State := fin (s.issue t.val (.jal rd off))

/-- JALR (R456). -/
def execJalr (t : Fin 64) (rd : Reg) (ra : Reg) (imm : BitVec 16) (s : State) : Out State := fin (s.issue t.val (.jalr rd ra imm))

/-- AADD (R460). -/
def execAadd (t : Fin 64) (word : Bool) (rd : Reg) (ra : Reg) (rb : Reg) (s : State) : Out State := fin (s.issue t.val (.atomic .add word rd ra rb))

/-- AAND (R460). -/
def execAand (t : Fin 64) (word : Bool) (rd : Reg) (ra : Reg) (rb : Reg) (s : State) : Out State := fin (s.issue t.val (.atomic .and word rd ra rb))

/-- AOR (R460). -/
def execAor (t : Fin 64) (word : Bool) (rd : Reg) (ra : Reg) (rb : Reg) (s : State) : Out State := fin (s.issue t.val (.atomic .or word rd ra rb))

/-- AXOR (R460). -/
def execAxor (t : Fin 64) (word : Bool) (rd : Reg) (ra : Reg) (rb : Reg) (s : State) : Out State := fin (s.issue t.val (.atomic .xor word rd ra rb))

/-- ASWAP (R460). -/
def execAswap (t : Fin 64) (word : Bool) (rd : Reg) (ra : Reg) (rb : Reg) (s : State) : Out State := fin (s.issue t.val (.atomic .swap word rd ra rb))

/-- ACAS (R460). -/
def execAcas (t : Fin 64) (word : Bool) (rd : Reg) (ra : Reg) (rb : Reg) (s : State) : Out State := fin (s.issue t.val (.atomic .cas word rd ra rb))

/-- CHIN (R439). -/
def execChin (t : Fin 64) (rd : Reg) (re : Reg) (n : CNum) (s : State) : Out State := fin (s.issue t.val (.chin rd re n))

/-- CHOUT (R437, R438). -/
def execChout (t : Fin 64) (rd : Reg) (n : CNum) (s : State) : Out State := fin (s.issue t.val (.chout rd n))

/-- CHEND (R437, R439). -/
def execChend (t : Fin 64) (n : CNum) (s : State) : Out State := fin (s.issue t.val (.chend n))

/-- EXCEPTION_PIN (R444). -/
def execExceptionPin (t : Fin 64) (rd : Reg) (re : Reg) (n : CNum) (s : State) : Out State := fin (s.issue t.val (.pin rd re n))

/-- POOL_TAKE (R539). -/
def execPoolTake (t : Fin 64) (rd : Reg) (n : CNum) (s : State) : Out State := fin (s.issue t.val (.pout rd n))

/-- POOL_TAKE_RESULT (R539). -/
def execPoolTakeResult (t : Fin 64) (rd : Reg) (re : Reg) (n : CNum) (s : State) : Out State := fin (s.issue t.val (.pin rd re n))

/-- POOL_GIVE (R540). -/
def execPoolGive (t : Fin 64) (rd : Reg) (n : CNum) (s : State) : Out State := fin (s.issue t.val (.pout rd n))

/-- TIMER_ARM (R447). -/
def execTimerArm (t : Fin 64) (rd : Reg) (n : CNum) (s : State) : Out State := fin (s.issue t.val (.pout rd n))

/-- TIMER_CANCEL (R447). -/
def execTimerCancel (t : Fin 64) (rd : Reg) (n : CNum) (s : State) : Out State := fin (s.issue t.val (.pout rd n))

/-- TIMER_PIN (R447). -/
def execTimerPin (t : Fin 64) (rd : Reg) (re : Reg) (n : CNum) (s : State) : Out State := fin (s.issue t.val (.pin rd re n))

/-- UPORT_COMPLETION_PIN (R229). -/
def execUportCompletionPin (t : Fin 64) (rd : Reg) (re : Reg) (n : CNum) (s : State) : Out State := fin (s.issue t.val (.pin rd re n))

/-- SEND_REQUEST (R446). -/
def execSendRequest (t : Fin 64) (w0 : Word64) (w1 : Word64) (w2 : Word64) (s : State) : Out State := fin (s.issue t.val (.poutAll 105 [w0, w1, w2]))

/-- BCOPY (R462). -/
def execBcopy (t : Fin 64) (ra : Reg) (rb : Reg) (rc : Reg) (rd : Reg) (s : State) : Out State := fin (s.issue t.val (.long .bcopy ra rb rc rd))

/-- BFILL (R462). -/
def execBfill (t : Fin 64) (ra : Reg) (rb : Reg) (rc : Reg) (rd : Reg) (s : State) : Out State := fin (s.issue t.val (.long .bfill ra rb rc rd))

/-- CRC32C (R462). -/
def execCrc32c (t : Fin 64) (ra : Reg) (rb : Reg) (rc : Reg) (rd : Reg) (s : State) : Out State := fin (s.issue t.val (.long .crc32c ra rb rc rd))

/-- HASH (R462). -/
def execHash (t : Fin 64) (ra : Reg) (rb : Reg) (rc : Reg) (rd : Reg) (s : State) : Out State := fin (s.issue t.val (.long .hash ra rb rc rd))

/-- TSEARCH (R462). -/
def execTsearch (t : Fin 64) (ra : Reg) (rb : Reg) (rc : Reg) (rd : Reg) (s : State) : Out State := fin (s.issue t.val (.long .tsearch ra rb rc rd))

/-- AWAIT (R448, R458). -/
def execAwait (t : Fin 64) (s : State) : Out State := fin (s.issue t.val (.await))

/-- FENCE (R458, R461). -/
def execFence (t : Fin 64) (mask : BitVec 3) (s : State) : Out State := fin (s.issue t.val (.fence mask))

/-- TRAP (R435, R458). -/
def execTrap (t : Fin 64) (imm : BitVec 12) (s : State) : Out State := fin (s.issue t.val (.trap imm))

/-- SLEEP (R447, R458). -/
def execSleep (t : Fin 64) (ra : Reg) (s : State) : Out State := fin (s.issue t.val (.sleep ra))

/-- SELF (R458). -/
def execSelf (t : Fin 64) (rd : Reg) (s : State) : Out State := fin (s.issue t.val (.self rd))

/-- RESERVED_INSTRUCTION (R455). -/
def execReservedInstruction (t : Fin 64) (w : Word32) (s : State) : Out State := fin (s.issue t.val (Elv.decode w))

end Sys2Proof.Machine
end

