-- ==== Sys2Proof/Machine/ExcCmds.lean ====
section
/-! DEFINITION. The commands of the exception path (R22, R412). -/
namespace Sys2Proof.Machine

/-- EXCEPTION_COPY (R22) of queue `q`; `rd` and `k` as in FRAME_TRANSMIT_START. -/
def execExceptionCopy (q : Fin 16) (rd : Fin 3) (k : Nat) (s : State) : Out State := fin (s.exceptionCopy q.val rd.val k)

/-- EXCEPTION_PATH_NO_BUFFER (R412). -/
def execExceptionPathNoBuffer (s : State) : Out State := fin s.exceptionStall

end Sys2Proof.Machine
end

