-- ==== Sys2Proof/Machine/FoldCmds.lean ====
section
/-! DEFINITION. The commands of the fault collector (R407-R428). -/
namespace Sys2Proof.Machine

/-- FAULT_SOURCE_DETECT (R407): `present` for a level source; `aux` as `parityEffect` and `crcEffect` take it. -/
def execFaultSourceDetect (src : Fin 320) (present : Bool) (aux : Nat) (s : State) : Out State :=
  fin (s.sourceDetect src.val present aux)

/-- COUNTDOWN_EXPIRY (R414). -/
def execCountdownExpiry (src : Fin 320) (s : State) : Out State := fin (s.countdownEnd src.val)

/-- STICKY_CLEAR (R408): a write to `STICKY_k`. -/
def execStickyClear (who : Who) (k : Fin 10) (v : BitVec 32) (s : State) : Out State :=
  fin (s.cmdWrite who none false (R.FAULT.STICKY_k.STICKY k.val).addr fun s => s.stickyWrite k.val v.toNat)

/-- FAULT_INJECT (R428): a write to `INJECT_k`. -/
def execFaultInject (who : Who) (k : Fin 10) (v : BitVec 32) (s : State) : Out State :=
  fin (s.cmdWrite who none true (R.FAULT.INJECT_k.INJECT k.val).addr fun s => s.injectWrite k.val v.toNat)

/-- FOLD_REQ (R416). -/
def execFoldReq (who : Who) (s : State) : Out State :=
  fin (s.cmdWrite who none false R.FAULT.FOLD_REQ.GO.addr State.foldReqWrite)

/-- FOLD_EXIT (R424). -/
def execFoldExit (who : Who) (s : State) : Out State :=
  fin (s.cmdWrite who none false R.FAULT.FOLD_EXIT.GO.addr State.foldExit)

/-- FOLD_EXIT_COMPLETE (R424). -/
def execFoldExitComplete (s : State) : Out State := fin s.foldExitDone

/-- FAULT_PULSE_END (R422). -/
def execFaultPulseEnd (s : State) : Out State := fin s.pulseEnd

/-- FAULT_N_MISMATCH (R422): `present` while the read-back differs. -/
def execFaultNMismatch (present : Bool) (s : State) : Out State := fin (s.level 5 present)

/-- BYPASS_MISMATCH (R423): `present` while the read-back differs. -/
def execBypassMismatch (present : Bool) (s : State) : Out State := fin (s.bypMismatch present)

/-- BYP_FORCE_WRITE (R423): a write of `FAULT.CTRL`. -/
def execBypForceWrite (who : Who) (v : BitVec 32) (s : State) : Out State :=
  fin (s.cmdWrite who none false R.FAULT.CTRL.BYP_FORCE.addr fun s => s.bypWrite v.toNat)

end Sys2Proof.Machine
end

