-- ==== Sys2Proof/Machine/IntcCmds.lean ====
section
/-! DEFINITION. The commands of the INTC block (R477-R484): claims, DONE, pending and mask bits, routes. -/
namespace Sys2Proof.Machine

/-- CLAIM_READ (R480, R483). -/
def execClaimRead (who : Who) (c : Fin 4) (s : State) : Out State := fin (s.claim who c.val)
/-- DONE_WRITE (R481). -/
def execDoneWrite (who : Who) (c : Fin 4) (v : BitVec 16) (s : State) : Out State := fin (s.done who c.val v.toNat)
/-- PEND_SET (R477). -/
def execPendSet (who : Who) (k : Fin 8) (v : BitVec 32) (s : State) : Out State := fin (s.pendSet who k.val v.toNat)
/-- PEND_CLR (R477). -/
def execPendClr (who : Who) (k : Fin 8) (v : BitVec 32) (s : State) : Out State := fin (s.pendClr who k.val v.toNat)
/-- MASK_SET (R477, R478). -/
def execMaskSet (who : Who) (k : Fin 8) (v : BitVec 32) (s : State) : Out State := fin (s.maskSet who k.val v.toNat)
/-- MASK_CLR (R477, R478). -/
def execMaskClr (who : Who) (k : Fin 8) (v : BitVec 32) (s : State) : Out State := fin (s.maskClr who k.val v.toNat)
/-- ROUTE_WRITE (R484). -/
def execRouteWrite (who : Who) (k : Fin 16) (v : BitVec 32) (s : State) : Out State := fin (s.routeWrite who k.val v.toNat)

end Sys2Proof.Machine
end

