-- ==== Sys2Proof/Machine/MacCmds.lean ====
section
/-! DEFINITION. The commands of the Ethernet ports and of the ingress pipelines (R34, R141-R160, R219-R222, R247). -/
namespace Sys2Proof.Machine

/-- HEAD_ENTER_FIFO (R142): the bytes of a frame on port `p` so far, as received with its FCS, the first bit after whose SFD
came `ago` ns ago.  A frame of 388 bytes or less is whole. -/
def execHeadEnterFifo (p : Fin 48) (ago : Nat) (bytes : List Byte) (s : State) : Out State :=
  fin (if !s.receives p.val || (s.rx p.val).isSome then s
    else if bytes.length ≤ 388 then s.rxShort p.val 0 ago bytes
    else s.rxHead p.val ago bytes)

/-- FRAME_END_RECEIVED (R141): the rest of the frame in reception, or a whole frame whose head has not entered.  `err` 1: a bad
preamble or SFD; 2: truncation. -/
def execFrameEndReceived (p : Fin 48) (err : Fin 3) (ago : Nat) (rest : List Byte) (s : State) : Out State :=
  fin (if s.receives p.val || (s.rx p.val).isSome then s.rxEnd p.val err.val ago rest else s)

/-- A link fault cuts the frame in transmission (R158) and the one in reception (R157). -/
def State.cutWire (s : State) (p : Nat) : State :=
  match (s.eport p).wire with
  | none => s
  | some w =>
    let s1 := s.modEport p fun e => { e with wire := none }
    let s2 := if w.stomp || decide (s.srcOf w.copy = 64) then s1 else s1.countAt p dStall
    if w.cut then
      match w.copy.frame with
      | some i => s2.forget i
      | none => s2
    else s2.deref w.copy

/-- LINK_FAULT_DETECT (R156-R158, R160, R161) on lane `l`: the fault starts HOLD_DOWN on a link that is up or whose port drains, and stops
a running HOLD_UP. -/
def execLinkFaultDetect (l : Fin 48) (reason : Fin 12) (s : State) : Out State :=
  fin (
    let n := s.lanePort l.val
    if reason.val < 3 then s
    else
      let s1 := ((s.setFault n reason.val).disarm (.holdUp n)).laneSeen l.val reason.val
      let s2 := if s.fault n = 0 then ((if (s.rx n).isSome then s1.rxEnd n 2 0 [] else s1).cutWire n) else s1
      let s2 := if s.linkUp n ∧ (reason.val = 3 ∨ reason.val = 4 ∨ reason.val = 11) then s2.detect (96 + l.val) else s2
      let s2 := if reason.val = 9 then s2.detect (48 + n) else s2
      if s.linkUp n || decide (s.portQuiesce n ≠ 0) then
        (if s.running (.holdDown n) then s2
         else (s2.arm (.holdDown n) (usec (s.eff (R.PORT.LINK_HOLD.HOLD_DOWN n)))).setB (R.PORT.STATUS.HOLDING n) true)
      else if s.on (R.PORT.CTRL.EN n) then s2.showDown n reason.val else s2)

/-- LINK_FAULT_CLEAR (R156): the fault ends; a link that is up goes on, and one that is down waits for HOLD_UP. -/
def execLinkFaultClear (p : Fin 48) (s : State) : Out State :=
  fin (
    let n := p.val
    if s.fault n = 0 then s
    else
      let s1 := s.setFault n 0
      if s.linkUp n || decide (s.portQuiesce n ≠ 0) then (s1.disarm (.holdDown n)).setB (R.PORT.STATUS.HOLDING n) false
      else if s.on (R.PORT.CTRL.EN n) then s1.holdUp n else s1)

/-- LINK_DOWN_DECLARE (R156, R158, R222): HOLD_DOWN has passed without a break. -/
def execLinkDownDeclare (p : Fin 48) (s : State) : Out State :=
  fin (
    let n := p.val
    if s.isDue (.holdDown n) ∧ s.fault n ≠ 0 then
      let was := s.linkUp n
      let s1 := (s.disarm (.holdDown n)).flushPort n
      let s2 := if s1.portQuiesce n = 0 then s1.showDown n (s1.fault n) else s1.setB (R.PORT.STATUS.HOLDING n) false
      let s3 := if was then ((s2.setB (R.PORT.STICKY.LINK_DOWN_SEEN n) true).bump (R.PORT.LINK_DOWNS.COUNT n)).raise (136 + n) else s2
      if s3.on R.TABLES.MAC_CFG.FLUSH_ON_DOWN then
        s3.macRemove fun r => decide (bitsOf r 54 10 = s3.ownSeat ∧ bitsOf r 48 6 = n)
      else s3
    else s)

/-- LINK_UP_DECLARE (R139, R156): a fault-free HOLD_UP has passed; `phy` is the speed that an SGMII PHY reports. -/
def execLinkUpDeclare (p : Fin 48) (phy : Fin 3) (s : State) : Out State :=
  fin (
    let n := p.val
    if s.isDue (.holdUp n) ∧ s.fault n = 0 ∧ s.portLive n ∧ ¬ s.linkUp n then
      let s1 := (((((s.disarm (.holdUp n)).setB (R.PORT.STATUS.LINK n) true).set (R.PORT.STATUS.DOWN_REASON n) 0).set
        (R.PORT.STATUS.SPEED n) (s.speedCode n phy.val)).setB (R.PORT.STATUS.HOLDING n) false)
      (s1.setB (R.PORT.STICKY.LINK_UP_SEEN n) true).raise (136 + n)
    else s)

/-- PORT_DISABLE (R159). -/
def execPortDisable (who : Who) (p : Fin 48) (s : State) : Out State :=
  fin (s.cmdWrite who (some p.val) false (R.PORT.CTRL.EN p.val).addr fun s => s.portDisable p.val)

/-- PORT_ENABLE (R160). -/
def execPortEnable (who : Who) (p : Fin 48) (s : State) : Out State :=
  fin (s.cmdWrite who (some p.val) false (R.PORT.CTRL.EN p.val).addr fun s => s.portEnable p.val)

/-- PORT_DRAIN_TIMEOUT (R159). -/
def execPortDrainTimeout (p : Fin 48) (s : State) : Out State :=
  fin (if s.isDue (.portDrain p.val) ∧ s.portQuiesce p.val ≠ 0 then
      (((s.disarm (.portDrain p.val)).flushPort p.val).setB (R.PORT.STICKY.DRAIN_TIMEOUT_SEEN p.val) true).detect (48 + p.val)
    else s)

/-- PORT_QUIESCED (R159): nothing is left to send. -/
def execPortQuiesced (p : Fin 48) (s : State) : Out State := fin (s.portQuiesced p.val)

/-- SA_INSTALL (R151). -/
def execSaInstall (who : Who) (p : Fin 48) (op : SaOp) (s : State) : Out State :=
  fin (s.cmdWrite who (some p.val) true ((R.PORT.CTRL.EN p.val).addr + 0x500) fun s => s.saWrite p.val op)

/-- PIPELINE_TAKE_HEAD (R34). -/
def execPipelineTakeHead (p : Fin 4) (s : State) : Out State := fin (s.takeHead p.val)

/-- FLOW_STAGE_EXIT (R247). -/
def execFlowStageExit (p : Fin 4) (s : State) : Out State := fin (s.stageExit p.val)

/-- MAC_LEARN (R219, R220): the learn engine handles its oldest request. -/
def execMacLearn (s : State) : Out State :=
  match s.pipe.learn with
  | [] => fin s
  | l :: t => fin ({ s with pipe := { s.pipe with learn := t } }.learnOne l)

/-- A pass of the ager is due: `TIME` / 4 has passed since the last one (R221). -/
def State.agePassDue (s : State) : Bool :=
  let t := s.eff R.TABLES.MAC_AGE.TIME
  decide (t ≠ 0) && (match s.tabs.agedAt with
    | some a => decide (a + t * 250000000 ≤ s.mono)
    | none => true)

/-- MAC_AGER_PASS (R221). -/
def execMacAgerPass (s : State) : Out State := fin (if s.agePassDue then { s.agePass with tabs := { s.agePass.tabs with agedAt := some s.mono } } else s)

end Sys2Proof.Machine
end

