-- ==== Sys2Proof/Machine/NelyanCmds.lean ====
section
/-! DEFINITION. The commands of the Nelyan links, the seat routes and the guards (R358-R389). -/
namespace Sys2Proof.Machine

/-- NELYAN_BLOCK_RECEIVE (R365): a block of 512 bytes has come from the line. -/
def execNelyanBlockReceive (n : Fin 8) (block : List Byte) (s : State) : Out State := fin (s.blockRx n.val block)

/-- NELYAN_BLOCK_SEND (R363); `rd` and `k` as in FRAME_TRANSMIT_START. -/
def execNelyanBlockSend (n : Fin 8) (rd : Fin 3) (k : Nat) (s : State) : Out State := fin (s.blockSend n.val rd.val k)

/-- NELYAN_ACK_TIMEOUT (R367). -/
def execNelyanAckTimeout (n : Fin 8) (s : State) : Out State :=
  fin (match (s.link_ n.val).unacked with
    | b :: _ => if s.linkState n.val = 3 ∧ b.sentAt + s.ackTo n.val ≤ s.now then s.rewind n.val else s
    | [] => s)

/-- NELYAN_FM_REPEAT (R366). -/
def execNelyanFmRepeat (n : Fin 8) (s : State) : Out State :=
  fin (s.modLink n.val fun l => if l.fmGap ∧ !l.fmDue ∧ l.fmAt + s.ackTo n.val ≤ s.now then { l with fmDue := true } else l)

/-- NELYAN_LOCK_ACQUIRE (R377). -/
def execNelyanLockAcquire (n : Fin 8) (s : State) : Out State := fin (s.lockUp n.val)

/-- NELYAN_STOP (R377). -/
def execNelyanStop (n : Fin 8) (lost : Bool) (s : State) : Out State := fin (s.linkStop n.val lost)

/-- NELYAN_DOWN_TIMEOUT (R379). -/
def execNelyanDownTimeout (n : Fin 8) (s : State) : Out State := fin (s.downTimeout n.val)

/-- HELLO_RETRY (R374). -/
def execHelloRetry (n : Fin 8) (s : State) : Out State :=
  let l := s.link_ n.val
  fin (if s.svcLive 9 ∧ s.linkState n.val = 2 ∧ l.peerHello = [] ∧ l.helloAt + msec 1 ≤ s.now then
    (s.setLink n.val { l with helloAt := s.now }).sendMsg n.val 1 l.hello else s)

/-- HANDSHAKE_MESSAGE (R374): the Table service takes the oldest message of link `n`; `rtt` ns is the round trip that a HELLO
exchange measured. -/
def execHandshakeMessage (n : Fin 8) (rtt : BitVec 24) (s : State) : Out State := fin (s.onMessage n.val rtt.toNat)

/-- HANDSHAKE_TIMEOUT (R374). -/
def execHandshakeTimeout (n : Fin 8) (s : State) : Out State := fin (s.handshakeLate n.val)

/-- REFUSED_RETRY (R375). -/
def execRefusedRetry (n : Fin 8) (s : State) : Out State :=
  fin (if s.linkState n.val = 5 ∧ (s.link_ n.val).stateAt + secs 10 ≤ s.now then s.startHandshake n.val else s)

/-- REKEY_START (R376). -/
def execRekeyStart (n : Fin 8) (s : State) : Out State := fin (s.rekeyStart n.val)

/-- GUARD_TIMEOUT (R383) of seat `d`. -/
def execGuardTimeout (d : Fin 1024) (s : State) : Out State := fin (s.guardTimeout d.val)

/-- RT_ENTRY_WRITE (R382) of the seat that `RT_INDEX` names. -/
def execRtEntryWrite (who : Who) (v : BitVec 32) (s : State) : Out State :=
  fin (s.cmdWrite who none true R.NLINK.RT_ENTRY.ENTRY.addr fun s => s.writeRoute (s.fld R.NLINK.RT_INDEX.SEAT) v.toNat)

/-- NLINK_DISABLE (R386). -/
def execNlinkDisable (who : Who) (n : Fin 8) (s : State) : Out State :=
  fin (s.cmdWrite who (some (104 + n.val)) false (R.NLINK.CTRL.EN n.val).addr fun s => s.nlinkOff n.val)

/-- NLINK_DISABLE_COMPLETE (R386). -/
def execNlinkDisableComplete (n : Fin 8) (s : State) : Out State := fin (s.nlinkOffDone n.val)

/-- NLINK_ENABLE (R377). -/
def execNlinkEnable (who : Who) (n : Fin 8) (s : State) : Out State :=
  fin (s.cmdWrite who (some (104 + n.val)) false (R.NLINK.CTRL.EN n.val).addr fun s => s.nlinkOn n.val)

end Sys2Proof.Machine
end

