-- ==== Sys2Proof/Machine/PowerCmds.lean ====
section
/-! DEFINITION. The commands of the supply, the pins and the power domains (R45, R61-R63, R130, R546-R565). -/
namespace Sys2Proof.Machine

/-- POWER_VALID_T0 (R45): VIN has stayed within 6-60 V for 2 ms. -/
def execPowerValidT0 (s : State) : Out State := fin s.vinValid

/-- SYS_RST_ASSERT (R61, R425). -/
def execSysRstAssert (s : State) : Out State := fin s.sysRstLow

/-- SYS_RST_RELEASE (R61). -/
def execSysRstRelease (s : State) : Out State := fin s.sysRstHigh

/-- POWER_CYCLE (R62). -/
def execPowerCycle (s : State) : Out State := fin s.powerCycle

/-- VIN_ABSENT (R547, R551). -/
def execVinAbsent (s : State) : Out State := fin s.vinAbsent

/-- VIN_PRESENT (R551). -/
def execVinPresent (s : State) : Out State := fin s.vinReturns

/-- HOLD_BELOW_12V (R551, R63). -/
def execHoldBelow12v (s : State) : Out State := fin s.holdGone

/-- HOLD_CHARGE_TIMEOUT (R550). -/
def execHoldChargeTimeout (s : State) : Out State := fin s.chargeTimeout

/-- HOLD_CHARGED (R550). -/
def execHoldCharged (s : State) : Out State := fin s.holdCharged

/-- POWER_SAMPLE (R548): VIN in mV, input current in mA and HOLD in mV. -/
def execPowerSample (vin iin hold : BitVec 16) (s : State) : Out State := fin (s.powerSample vin.toNat iin.toNat hold.toNat)

/-- JUNCTION_SAMPLE (R548, R555): the nine sensors in degrees Celsius. -/
def execJunctionSample (sensors : List Int) (s : State) : Out State := fin (s.junctionSample sensors)

/-- RAIL_OUT_OF_WINDOW (R553): `rails` the rails that lie outside, none of them to report that all are back. -/
def execRailOutOfWindow (rails : BitVec 8) (s : State) : Out State := fin (s.railsOut rails.toNat)

/-- THERM_ALERT_CHANGE (R555). -/
def execThermAlertChange (asserted : Bool) (s : State) : Out State := fin (s.thermAlert asserted)

/-- TAMPER_N_ASSERT (R130): `low` false reports that the pin has risen again. -/
def execTamperNAssert (low : Bool) (s : State) : Out State := fin (s.tamperPin low)

/-- TAMPER_MONITOR_TRIP (R130): which monitors stand tripped. -/
def execTamperMonitorTrip (supply temp : Bool) (s : State) : Out State := fin (s.tamperMonitors supply temp)

/-- PWR_ON_CLR (R559). -/
def execPwrOnClr (who : Who) (k : Fin 6) (v : BitVec 32) (s : State) : Out State :=
  fin (s.cmdWrite who none false (R.POWER.PWR_ON_CLR_k.ON k.val).addr fun s => s.pwrClr k.val v.toNat)

/-- PWR_ON_SET (R559). -/
def execPwrOnSet (who : Who) (k : Fin 6) (v : BitVec 32) (s : State) : Out State :=
  fin (s.cmdWrite who none false (R.POWER.PWR_ON_SET_k.ON k.val).addr fun s => s.pwrSet k.val v.toNat)

/-- QUIESCE_ACKNOWLEDGE (R560). -/
def execQuiesceAcknowledge (d : Fin 166) (s : State) : Out State := fin (s.quiesceAckNow d.val)

/-- QUIESCE_DRAIN_TIMEOUT (R560). -/
def execQuiesceDrainTimeout (d : Fin 166) (s : State) : Out State := fin (s.drainTimeout d.val)

/-- QUIESCE_TIMEOUT (R560). -/
def execQuiesceTimeout (d : Fin 166) (s : State) : Out State := fin (s.quiesceTimeout d.val)

/-- DOMAIN_ON_COMPLETE (R561). -/
def execDomainOnComplete (d : Fin 166) (s : State) : Out State := fin (s.domainOn d.val)

/-- DRAM_CTRL_DISABLE (R527). -/
def execDramCtrlDisable (who : Who) (c : Fin 8) (s : State) : Out State :=
  fin (s.cmdWrite who (some (158 + c.val)) false (R.DRAM.CTRL.EN c.val).addr fun s => s.dramDisable c.val)

end Sys2Proof.Machine
end

