-- ==== Sys2Proof/Machine/RegCmds.lean ====
section
/-! DEFINITION. The commands of the register range that no block has of its own, of the table ports, and of the management buses and
pins (R8, R44, R564, R591, R599-R603). -/
namespace Sys2Proof.Machine

/-- An aligned address of the register range (R586, R591). -/
def regAddr (a : BitVec 32) : Bool := inRegRange a.toNat && decide (a.toNat % 4 = 0)

/-- A write ends, or traps in the issuing thread (R10). -/
def State.busWrite (s : State) (who : Who) (a v : Nat) : State :=
  match s.regWrite who a v with
  | (s1, true) => s1.protect who a
  | (s1, false) => s1

/-- A read ends, or traps in the issuing thread (R10). -/
def State.busRead (s : State) (who : Who) (a : Nat) : State :=
  match s.regRead who a with
  | (s1, _, true) => s1.protect who a
  | (s1, _, false) => s1

/-- REGISTER_WRITE (R8-R13): each field acts by its access code. -/
def execRegisterWrite (who : Who) (a v : BitVec 32) (s : State) : Out State :=
  fin (if regAddr a then s.busWrite who a.toNat v.toNat else s)

/-- UNMAPPED_ACCESS (R591): `v` the value of a write, none for a read. -/
def execUnmappedAccess (who : Who) (a : BitVec 32) (v : Option (BitVec 32)) (s : State) : Out State :=
  fin (match s.regAcc a.toNat with
    | .unmapped => if regAddr a then (match v with
        | some x => s.busWrite who a.toNat x.toNat
        | none => s.busRead who a.toNat) else s
    | _ => s)

/-- OFF_DOMAIN_ACCESS (R564): `v` the value of a write, none for a read. -/
def execOffDomainAccess (who : Who) (a : BitVec 32) (v : Option (BitVec 32)) (s : State) : Out State :=
  fin (match s.regAcc a.toNat with
    | .off => if regAddr a then (match v with
        | some x => s.busWrite who a.toNat x.toNat
        | none => s.busRead who a.toNat) else s
    | _ => s)

/-- COUNTER_LOW_READ (R44): a read of the low word of a 64-bit counter. -/
def execCounterLowRead (who : Who) (a : BitVec 32) (s : State) : Out State :=
  fin (match s.regAcc a.toNat with
    | .reg p h => if regAddr a && captures p h && !h.high then s.busRead who a.toNat else s
    | _ => s)

/-- The address of a table port's `TP_CMD`. -/
def tpCmdAddr (p : Fin 57) : Nat := tpBase p.val + 0x800

/-- TABLE_PORT_READ (R599): of TM[port], or of PARSE where `port` is 56. -/
def execTablePortRead (who : Who) (port : Fin 57) (mem : BitVec 4) (index : BitVec 16) (s : State) : Out State :=
  fin (s.cmdWrite who none false (tpCmdAddr port) fun s => s.tpRun port.val 1 mem.toNat index.toNat)

/-- TABLE_PORT_WRITE (R599). -/
def execTablePortWrite (who : Who) (port : Fin 57) (mem : BitVec 4) (index : BitVec 16) (s : State) : Out State :=
  fin (s.cmdWrite who none false (tpCmdAddr port) fun s => s.tpRun port.val 2 mem.toNat index.toNat)

/-! ## MDIO (R601) -/

/-- The command register of an MDIO controller. -/
def mdioAddr (m : Fin 2) : Nat := (R.TOP.MDIO_CMD_m.GO m.val).addr

/-- MDIO_C22_WRITE. -/
def execMdioC22Write (who : Who) (m : Fin 2) (phy reg : BitVec 5) (data : BitVec 16) (s : State) : Out State :=
  fin (s.cmdWrite who none false (mdioAddr m) fun s => s.mdioWrite m.val (mdioWord false 1 phy.toNat reg.toNat data.toNat))

/-- MDIO_C22_READ. -/
def execMdioC22Read (who : Who) (m : Fin 2) (phy reg : BitVec 5) (s : State) : Out State :=
  fin (s.cmdWrite who none false (mdioAddr m) fun s => s.mdioWrite m.val (mdioWord false 2 phy.toNat reg.toNat 0))

/-- MDIO_C45_ADDRESS. -/
def execMdioC45Address (who : Who) (m : Fin 2) (phy reg : BitVec 5) (data : BitVec 16) (s : State) : Out State :=
  fin (s.cmdWrite who none false (mdioAddr m) fun s => s.mdioWrite m.val (mdioWord true 0 phy.toNat reg.toNat data.toNat))

/-- MDIO_C45_WRITE. -/
def execMdioC45Write (who : Who) (m : Fin 2) (phy reg : BitVec 5) (data : BitVec 16) (s : State) : Out State :=
  fin (s.cmdWrite who none false (mdioAddr m) fun s => s.mdioWrite m.val (mdioWord true 1 phy.toNat reg.toNat data.toNat))

/-- MDIO_C45_READ_INCREMENT. -/
def execMdioC45ReadIncrement (who : Who) (m : Fin 2) (phy reg : BitVec 5) (s : State) : Out State :=
  fin (s.cmdWrite who none false (mdioAddr m) fun s => s.mdioWrite m.val (mdioWord true 2 phy.toNat reg.toNat 0))

/-- MDIO_C45_READ. -/
def execMdioC45Read (who : Who) (m : Fin 2) (phy reg : BitVec 5) (s : State) : Out State :=
  fin (s.cmdWrite who none false (mdioAddr m) fun s => s.mdioWrite m.val (mdioWord true 3 phy.toNat reg.toNat 0))

/-- MDIO_FRAME_COMPLETE: `data` is what MDIO carried in a read frame. -/
def execMdioFrameComplete (m : Fin 2) (data : BitVec 16) (s : State) : Out State := fin (s.mdioDone m.val data.toNat)

/-! ## I2C (R602, R140) -/

/-- The command register of an I2C controller. -/
def i2cAddr (x : Fin 2) : Nat := (R.TOP.I2C_CMD_i.GO x.val).addr

/-- I2C_WRITE. -/
def execI2cWrite (who : Who) (x : Fin 2) (wlen : BitVec 3) (addr : BitVec 7) (s : State) : Out State :=
  fin (s.cmdWrite who none false (i2cAddr x) fun s => s.i2cWrite x.val (i2cWord 0 wlen.toNat 0 addr.toNat))

/-- I2C_READ. -/
def execI2cRead (who : Who) (x : Fin 2) (rlen : BitVec 3) (addr : BitVec 7) (s : State) : Out State :=
  fin (s.cmdWrite who none false (i2cAddr x) fun s => s.i2cWrite x.val (i2cWord 1 0 rlen.toNat addr.toNat))

/-- I2C_WRITE_READ. -/
def execI2cWriteRead (who : Who) (x : Fin 2) (wlen rlen : BitVec 3) (addr : BitVec 7) (s : State) : Out State :=
  fin (s.cmdWrite who none false (i2cAddr x) fun s => s.i2cWrite x.val (i2cWord 2 wlen.toNat rlen.toNat addr.toNat))

/-- I2C_COMPLETE: `result` 0 good, 1 address NACK, 2 data NACK, 3 bus error; `data` the bytes read, the first in [31:24]. -/
def execI2cComplete (x : Fin 2) (result : Fin 4) (data : BitVec 32) (s : State) : Out State :=
  fin (s.i2cDone x.val result.val data.toNat)

/-- I2C_STRETCH_TIMEOUT (R140): a bus error. -/
def execI2cStretchTimeout (x : Fin 2) (s : State) : Out State := fin (s.i2cDone x.val 3 0)

/-! ## GPIO (R600) -/

/-- GPIO_OUT_SET. -/
def execGpioOutSet (who : Who) (v : BitVec 16) (s : State) : Out State :=
  fin (s.cmdWrite who none false R.TOP.GPIO_OUT_SET.OUT.addr fun s => s.gpioSet v.toNat)

/-- GPIO_OUT_CLR. -/
def execGpioOutClr (who : Who) (v : BitVec 16) (s : State) : Out State :=
  fin (s.cmdWrite who none false R.TOP.GPIO_OUT_CLR.OUT.addr fun s => s.gpioClr v.toNat)

end Sys2Proof.Machine
end

