-- ==== Sys2Proof/Machine/ServIp.lean ====
section
/-! DEFINITION. The LLDP, DHCP, IPFIX and syslog services (R503-R506, R509, R510). -/
namespace Sys2Proof.Machine

/-! ## LLDP (R503) -/

/-- A TLV of LLDP. -/
def lldpTlv (t : Nat) (v : List Byte) : List Byte := beBytes 2 (t * 512 + v.length) ++ v
/-- The TLVs of an LLDP frame. -/
def lldpTlvs : Nat → List Byte → List (Nat × List Byte)
  | 0, _ => []
  | n + 1, l =>
    if l.length < 2 ∨ beAt l 0 2 = 0 then []
    else (beAt l 0 2 / 512, slice l 2 (beAt l 0 2 % 512)) :: lldpTlvs n (l.drop (2 + beAt l 0 2 % 512))

/-- Two decimal digits. -/
def dig2 (n : Nat) : List Byte := [BitVec.ofNat 8 (48 + n / 10 % 10), BitVec.ofNat 8 (48 + n % 10)]

/-- A text parameter, or its default. -/
def State.paramText (s : State) (svc p : Nat) (dflt : String) : List Byte :=
  match s.param svc p with
  | some b => b
  | none => ascii dflt

/-- The frame that the LLDP service sends on port `n`. -/
def State.lldpFrame (s : State) (n : Nat) : SvcFrame :=
  let ttl := min 65535 (s.paramNat 4 4 30 * s.paramNat 4 5 4 + 1)
  let mgmt := match s.param 10 0x102 with
    | some a => lldpTlv 8 ([5, 1] ++ a ++ [2] ++ beBytes 4 (Config.lldpIfNumber n) ++ [0])
    | none => []
  let body := lldpTlv 1 (4 :: s.macAddr 0) ++ lldpTlv 2 (7 :: ascii "p" ++ dig2 n) ++ lldpTlv 3 (beBytes 2 ttl) ++
    lldpTlv 5 (s.paramText 4 1 "aqyen") ++ lldpTlv 6 (s.paramText 4 2 "AN-4860") ++ lldpTlv 4 (Config.lldpPortDesc n) ++ mgmt ++ [0, 0]
  { svc := 4, hop := none, port := n, unc := false, since := s.now, bytes := ethOut (beBytes 6 0x0180C200000E) (s.macAddr n) 0 0x88CC body }

/-- An LLDP frame has arrived on a port: its neighbour is kept, renewed or forgotten; a fifth of a port is not kept. -/
def State.lldpIn (s : State) (p : Nat) (f : List Byte) : State :=
  let l := lldpTlvs 512 (ethIn f).2
  let v (k : Nat) : Nat × List Byte := l.getD k (0, [])
  if (ethIn f).1 ≠ 0x88CC ∨ f.take 6 ≠ beBytes 6 0x0180C200000E ∨ (v 0).1 ≠ 1 ∨ (v 1).1 ≠ 2 ∨ (v 2).1 ≠ 3 ∨ (v 2).2.length < 2 then s.svcDrop 4
  else
    let id := (v 0).2 ++ (v 1).2
    let ttl := beAt (v 2).2 0 2
    let rest := s.serv.lldp.filter fun e => !(decide (e.port = p) && decide (e.ident = id))
    let keep := decide (ttl ≠ 0) && decide ((rest.filter fun e => decide (e.port = p)).length < 4)
    { s with serv := { s.serv with lldp := if keep then rest ++ [{ port := p, ident := id, gone := s.now + secs ttl }] else rest } }

/-- The LLDP service takes every frame that waits in X0. -/
def State.lldpTake (s : State) : Nat → State
  | 0 => s
  | n + 1 => match s.svcTake 4 0 with
    | some (d, x, s1) => (s1.lldpIn (descPort d) x).lldpTake n
    | none => s

/-- TX_INTERVAL has passed: a frame on each enabled port whose link is up. -/
def State.lldpSend (s : State) : State :=
  if !s.svcLive 4 then s
  else
    let s1 := s.lldpTake (s.descs 0).length
    let ports := s1.paramNat 4 3 (2 ^ 48 - 1)
    s1.each ((List.range 48).filter fun n => ports.testBit n && s1.portExists n && s1.linkUp n) fun s n => s.svcSend (s.lldpFrame n)

/-- Neighbours whose TTL has run out go. -/
def State.lldpAge (s : State) : State :=
  if !s.svcLive 4 then s
  else
    let s1 := s.lldpTake (s.descs 0).length
    { s1 with serv := { s1.serv with lldp := s1.serv.lldp.filter fun e => decide (s1.now < e.gone) } }

/-! ## DHCP by position (R504) -/

/-- Options of DHCP, and sub-options of option 82. -/
def dhcpOpts : Nat → List Byte → List (Nat × List Byte)
  | 0, _ => []
  | n + 1, l => match l with
    | [] => []
    | c :: r =>
      if c = 0 then dhcpOpts n r
      else if c = 0xFF then []
      else (c.toNat, slice r 1 (beAt r 0 1)) :: dhcpOpts n (r.drop (1 + beAt r 0 1))
/-- An option's value. -/
def optOf (l : List (Nat × List Byte)) (k : Nat) : Option (List Byte) := (l.find? fun e => decide (e.1 = k)).map (·.2)
/-- An option as it is sent. -/
def optOut (k : Nat) (v : List Byte) : List Byte := beBytes 1 k ++ beBytes 1 v.length ++ v

/-- POSITION_k of the image, by k. -/
def State.dhcpPosition (s : State) (k : Nat) : Option (List Byte) :=
  let p := 0x10 + k
  s.param 5 (if 0x100 ≤ p ∧ p ≤ 0x107 then p + 0x1000 else p)
/-- The position of a request: the circuit ID where a relay gave one, else the ingress port. -/
def State.dhcpAt (s : State) (port : Nat) (cid : Option (List Byte)) : Option (Nat × List Byte) :=
  ((List.range 256).filterMap fun k => (s.dhcpPosition k).map fun v => (k, v)).find? fun e =>
    match cid with
    | some c => decide (beAt e.2 0 1 = 0xFF) && decide (slice e.2 4 (beAt e.2 1 1) = c)
    | none => decide (beAt e.2 0 1 = port)

/-- A DHCP message: the server's reply of type `typ` with address `yi` to request `b`. -/
def State.dhcpOut (s : State) (b : List Byte) (opts : List (Nat × List Byte)) (typ yi : Nat) : State :=
  let lease := optOut 51 (beBytes 4 (s.paramNat 5 3 86400)) ++ optOut 1 (beBytes 4 (2 ^ 32 - 2 ^ (32 - s.svcPrefix 5))) ++
    (if s.paramNat 5 1 0 = 0 then [] else optOut 3 (beBytes 4 (s.paramNat 5 1 0))) ++
    (let dns := [s.paramNat 5 2 0 / 2 ^ 32, s.paramNat 5 2 0 % 2 ^ 32].filter fun x => decide (x ≠ 0)
     if dns.isEmpty then [] else optOut 6 (dns.flatMap (beBytes 4)))
  let echo := match optOf opts 82 with
    | some v => optOut 82 v
    | none => []
  let m := [2, 1, 6, 0] ++ slice b 4 4 ++ [0, 0] ++ slice b 10 2 ++ (if typ = 6 then beBytes 4 0 else slice b 12 4) ++ beBytes 4 yi ++
    beBytes 4 0 ++ slice b 24 4 ++ slice b 28 16 ++ List.replicate 192 0 ++ beBytes 4 0x63825363 ++ optOut 53 (beBytes 1 typ) ++
    optOut 54 (beBytes 4 (s.svcAddr 5)) ++ (if typ = 6 then [] else lease) ++ echo ++ [0xFF]
  let gi := beAt b 24 4
  let ci := beAt b 12 4
  if gi ≠ 0 then s.udpSend 5 gi 67 67 m
  else if typ ≠ 6 ∧ ci ≠ 0 then s.udpSend 5 ci 67 68 m
  else if typ = 6 ∨ 2 ^ 15 ≤ beAt b 10 2 then s.udpSend 5 (2 ^ 32 - 1) 67 68 m
  else s.usedFree.usedFree.svcSend (s.udpFrame 5 (beAt b 28 6) yi 67 68 m)

/-- Leases that have not expired. -/
def State.liveLeases (s : State) : List Lease := s.serv.leases.filter fun e => decide (s.now < e.gone)

/-- A DISCOVER (1) or a REQUEST (3) from a position. -/
def State.dhcpAnswer (s : State) (b : List Byte) (opts : List (Nat × List Byte)) (typ k : Nat) (v : List Byte) : State :=
  let mac := beAt b 28 6
  let a := beAt v 36 4
  let asked := match optOf opts 50 with
    | some x => ofBe x
    | none => beAt b 12 4
  if s.liveLeases.any fun e => decide (e.pos = k ∧ e.mac ≠ mac) then (s.bumpSvcStat 5 0x24 4).dhcpOut b opts 6 0
  else if typ = 1 then s.dhcpOut b opts 2 a
  else if (optOf opts 54).any fun x => decide (ofBe x ≠ s.svcAddr 5) then s
  else if asked ≠ 0 ∧ asked ≠ a then s.dhcpOut b opts 6 0
  else
    let l := (s.liveLeases.filter fun e => decide (e.pos ≠ k)) ++ [{ pos := k, mac := mac, gone := s.now + secs (s.paramNat 5 3 86400) }]
    (({ s with serv := { s.serv with leases := l } }).setSvcStat 5 0x20 4 l.length).dhcpOut b opts 5 a

/-- The DHCP service takes the next frame of X4. -/
def State.dhcpTake (s : State) : State :=
  if !s.svcLive 5 then s
  else match s.svcTake 5 4 with
    | none => s
    | some (d, x, s1) => match udpIn x with
      | none => s1.svcDrop 5
      | some u =>
        let b := u.data
        let opts := dhcpOpts b.length (b.drop 240)
        let typ := match optOf opts 53 with
          | some t => ofBe t
          | none => 0
        let cid := (optOf opts 82).bind fun o => optOf (dhcpOpts o.length o) 1
        if u.dport ≠ 67 ∨ b.length < 240 ∨ beAt b 0 1 ≠ 1 ∨ beAt b 236 4 ≠ 0x63825363 ∨ (typ ≠ 1 ∧ typ ≠ 3) then s1.svcDrop 5
        else match s1.dhcpAt (descPort d) cid with
          | some (k, v) => s1.dhcpAnswer b opts typ k v
          | none => s1.svcDrop 5

/-! ## IPFIX (R505, R506) -/

/-- UTC seconds of a time of the gate-time instance. -/
def utcOf (sec : Nat) : Nat := sec - Config.utcOffset
/-- An NTP timestamp of a record's time. -/
def ntpOf (w : Nat) : List Byte :=
  beBytes 4 (utcOf (w / 2 ^ 32) + 2208988800) ++ beBytes 4 (w % 2 ^ 32 * 2 ^ 32 / 1000000000)

/-- The exported key fields of profile `p`: IE, offset in the key, and length. -/
def State.ipfixKey (s : State) (p : Nat) : List (Nat × Nat × Nat) :=
  let w := s.prof p
  let ies := (s.param 6 (0x10 + p)).getD []
  let base := (if bitOf w 509 then 1 else 0) + (if bitOf w 508 then 2 else 0)
  let len (k : Nat) : Nat := if bitOf (profExt w k) 31 then bitsOf (profExt w k) 10 5 else 0
  (List.range 8).filterMap fun k =>
    let ie := beAt ies (2 * k) 2
    if len k = 0 ∨ ie = 0 then none else some (ie, (List.range k).foldl (fun a j => a + len j) base, len k)

/-- The template record of profile `p`, sampled or not. -/
def State.ipfixTemplate (s : State) (p : Nat) (sampled : Bool) : List Byte :=
  let fs := ((s.ipfixKey p).map fun e => (e.1, e.2.2)) ++ [(1, 8), (2, 8), (156, 8), (157, 8), (6, 2), (136, 1)] ++ (if sampled then [(305, 4)] else [])
  beBytes 2 ((if sampled then 272 else 256) + p) ++ beBytes 2 fs.length ++ fs.flatMap fun e => beBytes 2 e.1 ++ beBytes 2 e.2

/-- The data record of an entry of a batch (R258, R243), with its template. -/
def State.ipfixRecord (s : State) (e : List Byte) : Nat × List Byte :=
  let p := beAt e 0 1
  let le (o n : Nat) : Nat := ofLe (slice e o n)
  let sampled := bitOf (le 0x7B 1) 1
  let why := match le 0x84 1 with
    | 1 => 1
    | 2 => 3
    | _ => 4
  ((if sampled then 272 else 256) + p,
   (s.ipfixKey p).flatMap (fun f => slice (slice e 2 46) f.2.1 f.2.2) ++ beBytes 8 (le 0x58 8) ++ beBytes 8 (le 0x50 8) ++
     ntpOf (le 0x60 8) ++ ntpOf (le 0x68 8) ++ beBytes 2 (le 0x70 1) ++ beBytes 1 why ++ (if sampled then beBytes 4 (le 0x71 1) else []))

/-- Data records in sets: those of one template that follow one another share a set. -/
def ipfixSets : List (Nat × List Byte) → List (Nat × List Byte)
  | [] => []
  | (i, x) :: t => match ipfixSets t with
    | (j, y) :: u => if i = j then (i, x ++ y) :: u else (i, x) :: (j, y) :: u
    | [] => [(i, x)]
/-- The size of a message of these records. -/
def ipfixSize (l : List (Nat × List Byte)) : Nat := (ipfixSets l).foldl (fun a e => a + 4 + e.2.length) 16
/-- Packs records into messages of up to 20 records and 1,400 bytes, in order. -/
def ipfixPack : List (Nat × List Byte) → List (Nat × List Byte) → List (List (Nat × List Byte))
  | [], [] => []
  | cur, [] => [cur]
  | cur, r :: t =>
    if cur.length < 20 ∧ ipfixSize (cur ++ [r]) ≤ 1400 then ipfixPack (cur ++ [r]) t
    else if cur = [] then [r] :: ipfixPack [] t
    else cur :: ipfixPack [r] t

/-- One message goes to PEER: its sets, and how many data records it carries. -/
def State.ipfixSend (s : State) (sets : List (Nat × List Byte)) (n : Nat) : State :=
  match s.param 6 0x105 with
  | none => s.svcDrop 6
  | some peer =>
    let body := sets.flatMap fun e => beBytes 2 e.1 ++ beBytes 2 (4 + e.2.length) ++ e.2
    let h := beBytes 2 10 ++ beBytes 2 (16 + body.length) ++ beBytes 4 (utcOf (s.clk s.gateInst).sec) ++ beBytes 4 s.serv.ipfixSeq ++
      beBytes 4 (s.fld R.NLINK.SEAT.SEAT)
    let s1 := s.usedFree.udpSend 6 (ofBe peer) (s.freeNow % 65536) (s.paramNat 6 0x106 4739) (h ++ body)
    ({ s1 with serv := { s1.serv with ipfixSeq := (s1.serv.ipfixSeq + n) % 2 ^ 32 } }).bumpSvcStat 6 0x20 8

/-- Templates are sent at start and every 600 s: a message for each profile that exports. -/
def State.ipfixTemplates (s : State) : State :=
  if s.serv.tplAt.any fun t => decide (s.now < t + secs 600) then s
  else
    let ps := (List.range 16).filter fun p => bitOf (s.prof p) 511 && profExport (s.prof p)
    let s1 := s.each ps fun s p => s.ipfixSend [(2, s.ipfixTemplate p false ++ s.ipfixTemplate p true)] 0
    ({ s1 with serv := { s1.serv with tplAt := some s1.now } }).bumpSvcStat 6 0x34 4

/-- The exporter takes the next batch of ch16, sends it, and gives its buffer back. -/
def State.ipfixBatch (s : State) : State :=
  let c := s.chan 16
  if !s.svcLive 6 ∨ s.eff R.FLOW.EXPORT.CHANNEL ≠ 16 ∨ c.reader.isSome then s
  else match c.msgs with
    | [] => s
    | m :: t =>
      let a := (m.words.getD 0 0).toNat
      let n := (m.words.getD 1 0).toNat % 65536
      let s1 := ((s.setChan 16 { c with msgs := t }).bumpSvcStat 6 8 8).ipfixTemplates
      let r := s1.memRead a (144 * n)
      let s2 :=
        if r.2 then
          let recs := (List.range n).map fun i => r.1.ipfixRecord (r.1.bytesAt (a + 144 * i) 144)
          let s3 := r.1.each (ipfixPack [] recs) fun s l => s.ipfixSend (ipfixSets l) l.length
          (s3.setSvcStat 6 0x28 8 (s3.svcStat 6 0x28 8 + n)).bumpSvcStat 6 0x30 4
        else r.1.svcDrop 6
      match s2.bufStart a with
      | some (k, i) => s2.giveBuf k i
      | none => s2

/-! ## Syslog (R509, R510) -/

/-- Year, month and day of a day number since 1970-01-01. -/
def civil (d : Nat) : Nat × Nat × Nat :=
  let z := d + 719468
  let e := z % 146097
  let y := (e - e / 1460 + e / 36524 - e / 146096) / 365
  let doy := e - (365 * y + y / 4 - y / 100)
  let mp := (5 * doy + 2) / 153
  let m := if mp < 10 then mp + 3 else mp - 9
  (y + z / 146097 * 400 + (if m ≤ 2 then 1 else 0), m, doy - (153 * mp + 2) / 5 + 1)

/-- TIMESTAMP of RFC 5424. -/
def State.logTime (s : State) : List Byte :=
  if !s.on (R.TIME.INST_i.STATUS.SYNC s.gateInst) then ascii "-"
  else
    let t := utcOf (s.clk s.gateInst).sec
    let c := civil (t / 86400)
    dig2 (c.1 / 100) ++ dig2 c.1 ++ ascii "-" ++ dig2 c.2.1 ++ ascii "-" ++ dig2 c.2.2 ++ ascii "T" ++ dig2 (t / 3600 % 24) ++ ascii ":" ++
      dig2 (t / 60 % 60) ++ ascii ":" ++ dig2 (t % 60) ++ ascii "Z"

/-- MSGID and severity of a report. -/
def logMsgId (kind : Nat) : List Byte :=
  match kind with
  | 0 => ascii "FAULT"
  | 1 => ascii "LINK"
  | 2 => ascii "DECK"
  | 3 => ascii "TTDP"
  | _ => Config.logId kind
def State.logSev (s : State) (kind n : Nat) : Nat :=
  if kind = 0 then (if classFold ≤ s.classOf n then 2 else if s.classOf n = classHandled then 3 else 5) else Config.logSeverity kind % 8

/-- A message leaves to PEER. -/
def State.logOut (s : State) (kind n : Nat) : State :=
  match s.param 8 0x105 with
  | none => s.svcDrop 8
  | some peer =>
    let m := ascii ("<" ++ toString (8 * s.paramNat 8 1 23 + s.logSev kind n) ++ ">1 ") ++ s.logTime ++ ascii " " ++ s.paramText 4 1 "aqyen" ++
      ascii " aqyen - " ++ logMsgId kind ++ ascii " - " ++ Config.logText kind n
    s.usedFree.udpSend 8 (ofBe peer) (s.freeNow % 65536) (s.paramNat 8 0x106 514) m

/-- A report: it leaves under the limit of 20 messages a second with a burst of 40, or is counted. -/
def State.log (s : State) (kind n : Nat) : State :=
  if 50000000 ≤ s.serv.logTokens then
    ({ s with serv := { s.serv with logTokens := s.serv.logTokens - 50000000 } }).logOut kind n
  else { s with serv := { s.serv with logOver := s.serv.logOver + 1 } }

/-- The links that are up: ports 0 to 47, and Nelyan links from bit 48. -/
def State.linksNow (s : State) : Nat :=
  (List.range 56).foldl (fun a n => a + (if (if n < 48 then s.linkUp n else decide (s.linkState (n - 48) = 3)) then 2 ^ n else 0)) 0
/-- The state of the Deck that is reported. -/
def State.deckNow (s : State) : Nat := s.fld R.DEAL.UPDATE.RESULT * 64 +
  ([R.DEAL.DECK_STATE.PRESENT, R.DEAL.DECK_STATE.DEALT, R.DEAL.DECK_STATE.FOREIGN, R.DEAL.DECK_STATE.JOURNAL_PAUSED,
    R.DEAL.DECK_STATE.UPDATE_BUSY].foldl (fun a f => 2 * a + s.fld f) 0)

/-- The service takes every frame of a drained queue. -/
def State.drainTake (s : State) (q : Nat) : Nat → State
  | 0 => s
  | n + 1 => match s.svcTake 8 q with
    | some (_, _, s1) => s1.drainTake q n
    | none => s
/-- A drained queue: its frames are counted, and reported at most every 10 s. -/
def State.drain (s : State) (q : Nat) : State :=
  let n := (s.descs q).length
  let v := s.serv.drained.get 0 q
  let total := v / 2 ^ 48 + n
  let last := v % 2 ^ 48
  let s1 := s.drainTake q n
  if total ≠ 0 ∧ (last = 0 ∨ last - 1 + secs 10 ≤ s.now) then
    ({ s1 with serv := { s1.serv with drained := s1.serv.drained.put 0 q (s.now + 1) } }).log 4 (q * 2 ^ 32 + total)
  else { s1 with serv := { s1.serv with drained := s1.serv.drained.put 0 q (total * 2 ^ 48 + last) } }

/-- The messages beyond the limit are summarised in one message each second. -/
def State.logSummary (s : State) : State :=
  if decide (s.serv.logOver ≠ 0) && decide (s.serv.logSumAt + secs 1 ≤ s.now) then
    ({ s with serv := { s.serv with logOver := 0, logSumAt := s.now } }).logOut 5 s.serv.logOver
  else s

/-- A poll, every 100 ms. -/
def State.syslogPoll (s : State) : State :=
  if !s.svcLive 8 then s
  else
    let v := s.serv
    let s0 := { s with serv := { v with logTokens := min 2000000000 (v.logTokens + 20 * (s.now - v.logAt)), logAt := s.now } }
    let bits := ofLe s.stickyMap
    let links := s.linksNow
    let inaug := s.svcStat 1 0x24 4
    let s1 := s0.each ((List.range 320).filter fun n => bits.testBit n && !v.seen.testBit n) fun s n => s.log 0 n
    let s2 := s1.each ((List.range 56).filter fun n => links.testBit n != v.seenLinks.testBit n) fun s n =>
      s.log 1 (2 * n + (if links.testBit n then 1 else 0))
    let s3 := if s.deckNow ≠ v.seenDeck then s2.log 2 s.deckNow else s2
    let s4 := if inaug ≠ v.seenInaug then s3.log 3 inaug else s3
    let s5 := s4.each ((List.range 16).filter fun q => (s.paramNat 8 2 0xF000).testBit q && decide (8 ≤ q)) State.drain
    ({ s5 with serv := { s5.serv with seen := bits, seenLinks := links, seenDeck := s.deckNow, seenInaug := inaug } }).logSummary

end Sys2Proof.Machine
end

