-- ==== Sys2Proof/Machine/Snmp.lean ====
section
/-! DEFINITION. The SNMPv3 agent (R507, R508): BER, the user-based security model of RFC 3414 with HMAC-SHA-96 and AES-128 (RFC 3826),
the objects served, and the answers. -/
namespace Sys2Proof.Machine

/-! ## SHA-1, HMAC-SHA-96 and CFB -/

def sha1Sched : Nat → List Word32 → List Word32
  | 0, w => w
  | n + 1, w => sha1Sched n ((w.getD 2 0 ^^^ w.getD 7 0 ^^^ w.getD 13 0 ^^^ w.getD 15 0).rotateLeft 1 :: w)
def sha1Round (h : List Word32) (e : Nat × Word32) : List Word32 :=
  match h with
  | [a, b, c, d, k] =>
    let f := if e.1 < 20 then (b &&& c) ||| (~~~b &&& d) else if e.1 < 40 ∨ 60 ≤ e.1 then b ^^^ c ^^^ d
      else (b &&& c) ||| (b &&& d) ||| (c &&& d)
    let t := if e.1 < 20 then 0x5A827999 else if e.1 < 40 then 0x6ED9EBA1 else if e.1 < 60 then 0x8F1BBCDC else 0xCA62C1D6
    [a.rotateLeft 5 + f + k + t + e.2, a, b.rotateLeft 30, c, d]
  | _ => h
def sha1Block (h : List Word32) (b : List Byte) : List Word32 :=
  let w := (sha1Sched 64 ((pieces 4 16 b).map fun p => BitVec.ofNat 32 (ofBe p)).reverse).reverse
  (h.zip (((List.range 80).zip w).foldl sha1Round h)).map fun e => e.1 + e.2
/-- SHA-1. -/
def sha1 (m : List Byte) : List Byte :=
  let p := m ++ [0x80] ++ List.replicate ((128 - (m.length + 9) % 64) % 64) 0 ++ beBytes 8 (8 * m.length)
  ((pieces 64 (p.length / 64) p).foldl sha1Block [0x67452301, 0xEFCDAB89, 0x98BADCFE, 0x10325476, 0xC3D2E1F0]).flatMap fun w => beBytes 4 w.toNat
/-- HMAC-SHA-96 under a localised key of 20 bytes. -/
def hmacSha96 (key m : List Byte) : List Byte :=
  let k := key ++ List.replicate (64 - key.length) 0
  (sha1 (k.map (· ^^^ 0x5c) ++ sha1 (k.map (· ^^^ 0x36) ++ m))).take 12
/-- AES-128 in CFB mode with whole blocks of feedback. -/
def cfb (ks : List (List Byte)) (dec : Bool) : Nat → List Byte → List Byte → List Byte
  | 0, _, _ => []
  | n + 1, iv, l =>
    if l.isEmpty then []
    else
      let x := l.take 16
      let y := xorBytes x (aesBlock ks iv)
      y ++ cfb ks dec n (if dec then x else y) (l.drop 16)

/-! ## BER -/

def ber (tag : Nat) (v : List Byte) : List Byte :=
  let n := v.length
  beBytes 1 tag ++ (if n < 128 then beBytes 1 n else if n < 256 then 0x81 :: beBytes 1 n else 0x82 :: beBytes 2 n) ++ v
/-- A non-negative integer in the fewest bytes. -/
def berNat (tag n : Nat) : List Byte := ber tag (beBytes (((List.range 8).find? fun k => decide (n < 2 ^ (8 * k + 7))).getD 8 + 1) n)
/-- The first element of a byte string: its tag, its content, and what follows. -/
def berGet (l : List Byte) : Option (Nat × List Byte × List Byte) :=
  match l with
  | t :: n :: r =>
    let h := if n.toNat < 128 then 0 else n.toNat - 128
    let len := if n.toNat < 128 then n.toNat else beAt r 0 h
    if n ≠ 0x80 ∧ h ≤ 4 ∧ h + len ≤ r.length then some (t.toNat, slice r h len, r.drop (h + len)) else none
  | _ => none
/-- The elements of a byte string. -/
def berAll : Nat → List Byte → List (Nat × List Byte)
  | 0, _ => []
  | n + 1, l => match berGet l with
    | some (t, v, r) => (t, v) :: berAll n r
    | none => []

def oidArcs : Nat → List Byte → List Nat
  | _, [] => []
  | a, b :: t => if b.toNat < 128 then (a * 128 + b.toNat) :: oidArcs 0 t else oidArcs (a * 128 + b.toNat % 128) t
/-- An object identifier from its BER content, and back. -/
def oidOf (l : List Byte) : List Nat :=
  match oidArcs 0 l with
  | x :: t => min (x / 40) 2 :: (x - 40 * min (x / 40) 2) :: t
  | [] => []
def arcBytes (n : Nat) : List Byte :=
  ((List.range 5).reverse.dropWhile fun k => decide (k ≠ 0 ∧ n < 128 ^ k)).map fun k =>
    BitVec.ofNat 8 (n / 128 ^ k % 128 + if k = 0 then 0 else 128)
def oidBytes : List Nat → List Byte
  | a :: b :: t => ((40 * a + b) :: t).flatMap arcBytes
  | _ => []
/-- The order of object identifiers. -/
def oidLt : List Nat → List Nat → Bool
  | [], [] => false
  | [], _ => true
  | _, [] => false
  | a :: s, b :: t => if a = b then oidLt s t else decide (a < b)

/-! ## The objects (R507) -/

/-- An object: its identifier, and its BER value; none where only its RFC gives it (open). -/
abbrev MibObj := List Nat × Option (List Byte)

/-- ifIndex of a port or, from 48, of a link. -/
def State.ifIndexes (s : State) : List (Nat × Nat) :=
  ((List.range 48).filter s.portExists).map (fun p => (p + 1, p)) ++ (List.range 8).map fun n => (49 + n, 48 + n)

/-- ifTable and ifXTable. -/
def State.mibIf (s : State) : List MibObj :=
  let ifs := s.ifIndexes
  let up (p : Nat) : Bool := if p < 48 then s.linkUp p else decide (s.fld (R.NLINK.STATE.STATE (p - 48)) = 3)
  let en (p : Nat) : Bool := if p < 48 then s.on (R.PORT.CTRL.EN p) else s.on (R.NLINK.CTRL.EN (p - 48))
  let octets (p : Nat) (tx : Bool) : Nat := s.fld (if tx then R.PORT.TX_BYTES.COUNT p else R.PORT.RX_BYTES.COUNT p)
  let col (c i p : Nat) : Option (List Byte) :=
    match c with
    | 1 => some (berNat 2 i)
    | 6 => if p < 48 then some (ber 4 (s.macAddr p)) else none
    | 7 => some (berNat 2 (if en p then 1 else 2))
    | 8 => some (berNat 2 (if up p then 1 else 2))
    | 10 => if p < 48 then some (berNat 0x41 (octets p false % 2 ^ 32)) else none
    | 16 => if p < 48 then some (berNat 0x41 (octets p true % 2 ^ 32)) else none
    | _ => none
  let xcol (c p : Nat) : Option (List Byte) :=
    if p < 48 ∧ c = 6 then some (berNat 0x46 (octets p false)) else if p < 48 ∧ c = 10 then some (berNat 0x46 (octets p true)) else none
  ((List.range 22).flatMap fun c => ifs.map fun e => ([1, 3, 6, 1, 2, 1, 2, 2, 1, c + 1, e.1], col (c + 1) e.1 e.2)) ++
    (List.range 19).flatMap fun c => ifs.map fun e => ([1, 3, 6, 1, 2, 1, 31, 1, 1, 1, c + 1, e.1], xcol (c + 1) e.2)

/-- The module's own objects under ENTERPRISE_ARC. -/
def State.mibOwn (s : State) : List MibObj :=
  match s.param 7 2 with
  | none => []
  | some a =>
    let arc := oidOf a
    let life := [R.DEAL.DECK_LIFE.SLOT_A, R.DEAL.DECK_LIFE.SLOT_B, R.DEAL.DECK_LIFE.JOURNAL, R.DEAL.DECK_LIFE.LIFE]
    let disc (c p : Nat) : Nat := s.fld (if p < 48 then R.PORT.DISC_c.COUNT p c else R.NLINK.DISC_c.COUNT (p - 48) c)
    ((List.range 4).map fun k => (arc ++ [1, k + 1, 0], some (berNat 0x42 (s.fld (life.getD k R.DEAL.DECK_LIFE.LIFE))))) ++
      ((List.range 4).map fun k => (arc ++ [2, k + 1, 0], some (berNat 0x42 (s.fld (R.CADENCE.LIVE_Pn.CAPACITY k))))) ++
      ((List.range 10).map fun k => (arc ++ [3, k + 1, 0], some (berNat 0x42 (s.fld (R.FAULT.STICKY_k.STICKY k))))) ++
      (List.range 18).flatMap fun c => s.ifIndexes.map fun e => (arc ++ [4, c + 1, e.1], some (berNat 0x46 (disc c e.2)))

/-- Every object served, in the order of the identifiers. -/
def State.mib (s : State) : List MibObj :=
  let sys := (List.range 7).map fun k =>
    ([1, 3, 6, 1, 2, 1, 1, k + 1, 0], if k = 2 then some (berNat 0x43 ((s.now - s.serv.snmpAt) / 500000 % 2 ^ 32)) else none)
  let own := s.mibOwn
  let std := sys ++ s.mibIf
  (own.filter fun e => oidLt e.1 [1, 3, 6, 1, 2, 1]) ++ std ++ own.filter fun e => !oidLt e.1 [1, 3, 6, 1, 2, 1]

/-- The variable bindings of an answer: each with the identifier and its value; `n` counts the open values read. -/
def mibBind (e : MibObj) (n : Nat) : List Byte :=
  ber 0x30 (ber 6 (oidBytes e.1) ++ match e.2 with
    | some v => v
    | none => Config.mibValue e.1 n)

/-- Get of one object: an exception where it is not served. -/
def mibGet (m : List MibObj) (o : List Nat) : MibObj :=
  match m.find? fun e => decide (e.1 = o) with
  | some e => e
  | none => (o, some (if m.any fun e => decide (e.1.take (o.length - 1) = o.take (o.length - 1)) then [0x81, 0] else [0x80, 0]))
/-- GetNext of one object. -/
def mibNext (m : List MibObj) (o : List Nat) : MibObj :=
  match m.find? fun e => oidLt o e.1 with
  | some e => e
  | none => (o, some [0x82, 0])
/-- The repetitions of GetBulk. -/
def mibBulk (m : List MibObj) : Nat → List (List Nat) → List MibObj
  | 0, _ => []
  | n + 1, os => let r := os.map (mibNext m)
    r ++ mibBulk m n (r.map (·.1))

/-! ## Messages (RFC 3412, RFC 3414) -/

/-- A message as parsed: the bytes before and after its authentication parameters stand for the whole. -/
structure SnmpMsg where
  id : List Byte
  maxSize : Nat
  flags : Nat
  engine : List Byte
  boots : Nat
  time : Nat
  user : List Byte
  auth : List Byte
  salt : List Byte
  tag : Nat
  data : List Byte
  zeroed : List Byte
  deriving DecidableEq, Repr

/-- Parses a message. -/
def snmpParse (x : List Byte) : Option SnmpMsg :=
  match berGet x with
  | some (0x30, top, []) =>
    match berAll 4 top with
    | [(2, [3]), (0x30, g), (4, p), (dt, d)] =>
      match berAll 4 g, berGet p with
      | [(2, id), (2, mx), (4, [fl]), (2, [3])], some (0x30, q, []) =>
        match berAll 6 q with
        | [(4, eng), (2, bo), (2, ti), (4, us), (4, au), (4, sa)] =>
          let tail := (ber dt d).length + (ber 4 sa).length
          let at_ := x.length - tail - au.length
          some { id := id, maxSize := ofBe mx, flags := fl.toNat, engine := eng, boots := ofBe bo, time := ofBe ti, user := us, auth := au,
                 salt := sa, tag := dt, data := d, zeroed := x.take at_ ++ List.replicate au.length 0 ++ x.drop (at_ + au.length) }
        | _ => none
      | _, _ => none
    | _ => none
  | _ => none

/-- snmpEngineTime: seconds since the agent started to answer. -/
def State.engineTime (s : State) : Nat := (s.now - s.serv.snmpAt) / 50000000
def State.engineId (s : State) : List Byte := (s.param 7 1).getD []
def State.engineBoots (s : State) : Nat := s.serv.boots.getD 0

/-- The user of a name: its record. -/
def State.snmpUser (s : State) (name : List Byte) : Option (List Byte) :=
  ((List.range 4).filterMap fun u => s.param 7 (0x10 + u)).find? fun v => decide (slice v 4 (beAt v 0 1) = name ∧ name ≠ [])

/-- A message of the agent under a security level: 0 none, 1 authenticated, 2 with privacy too. -/
def State.snmpOut (s : State) (id : List Byte) (level : Nat) (name user pdu : List Byte) : State × List Byte :=
  let sPdu := ber 0x30 (ber 4 s.engineId ++ ber 4 [] ++ pdu)
  let salt := if level = 2 then s.freeBytes 8 else []
  let s1 := if level = 2 then s.usedFrees 8 else s
  let iv := beBytes 4 s.engineBoots ++ beBytes 4 s.engineTime ++ salt
  let data := if level = 2 then ber 4 (cfb (aesKeys ((slice user 56 16))) false (sPdu.length / 16 + 1) iv sPdu) else sPdu
  let build (au : List Byte) : List Byte :=
    ber 0x30 (ber 2 [3] ++ ber 0x30 (ber 2 id ++ berNat 2 9212 ++ ber 4 [BitVec.ofNat 8 (if level = 0 then 0 else if level = 1 then 1 else 3)] ++ ber 2 [3]) ++
      ber 4 (ber 0x30 (ber 4 s.engineId ++ berNat 2 s.engineBoots ++ berNat 2 s.engineTime ++ ber 4 name ++ ber 4 au ++ ber 4 salt)) ++ data)
  (s1, if level = 0 then build [] else build (hmacSha96 (slice user 36 20) (build (List.replicate 12 0))))

/-- A report of a USM counter (1 unsupportedSecLevels ... 6 decryptionErrors). -/
def State.snmpReport (s : State) (m : SnmpMsg) (k : Nat) (user : List Byte) : State × Option (List Byte) :=
  let n := s.serv.usm.get 0 k + 1
  let s1 := { s with serv := { s.serv with usm := s.serv.usm.put 0 k n } }
  if m.flags / 4 % 2 = 0 then (s1, none)
  else
    let pdu := ber 0xA8 (ber 2 [0] ++ ber 2 [0] ++ ber 2 [0] ++
      ber 0x30 (ber 0x30 (ber 6 (oidBytes [1, 3, 6, 1, 6, 3, 15, 1, 1, k, 0]) ++ berNat 0x41 (n % 2 ^ 32))))
    let r := s1.snmpOut m.id (if k = 2 then 1 else 0) m.user user pdu
    (r.1, some r.2)

/-- The bindings of a request whose answer fits. -/
def mibFit (limit : Nat) : Nat → List MibObj → Nat → List Byte → List Byte
  | 0, _, _, acc => acc
  | _, [], _, acc => acc
  | fuel + 1, e :: t, n, acc =>
    let b := mibBind e n
    if limit < acc.length + b.length then acc else mibFit limit fuel t (n + 1) (acc ++ b)

/-- The answer to a PDU (tag and content): none where it is no request that the agent serves. -/
def State.snmpAnswer (s : State) (limit tag : Nat) (c : List Byte) : Option (List Byte) :=
  match berAll 4 c with
  | [(2, id), (2, a), (2, b), (0x30, vbs)] =>
    let binds := berAll 256 vbs
    let os := binds.map fun e => match berAll 2 e.2 with
      | (6, o) :: _ => oidOf o
      | _ => []
    let m := s.mib
    let answer (err idx : Nat) (body : List Byte) : List Byte := ber 0xA2 (ber 2 id ++ berNat 2 err ++ berNat 2 idx ++ ber 0x30 body)
    let all (l : List MibObj) : List Byte :=
      let body := (List.range l.length).zip l |>.flatMap fun e => mibBind e.2 (s.free + e.1)
      if limit < body.length then answer 1 0 [] else answer 0 0 body
    match tag with
    | 0xA0 => some (all (os.map (mibGet m)))
    | 0xA1 => some (all (os.map (mibNext m)))
    | 0xA3 => some (answer 17 1 vbs)
    | 0xA5 =>
      let n := min (ofBe a) os.length
      let l := ((os.take n).map (mibNext m)) ++ mibBulk m (min (ofBe b) 256) (os.drop n)
      some (answer 0 0 (mibFit limit l.length l s.free []))
    | _ => none
  | _ => none

/-- What a parsed message is answered with (RFC 3414): none where nothing goes back. -/
def State.snmpHandle (s : State) (m : SnmpMsg) : State × Option (List Byte) :=
  if m.engine ≠ s.engineId then s.snmpReport m 4 []
  else match s.snmpUser m.user with
    | none => s.snmpReport m 3 []
    | some u =>
      let level := if beAt u 1 1 = 2 then 3 else 1
      if m.flags % 4 ≠ level then s.snmpReport m 1 []
      else if m.auth.length ≠ 12 ∨ hmacSha96 (slice u 36 20) m.zeroed ≠ m.auth then s.snmpReport m 5 []
      else if m.boots ≠ s.engineBoots ∨ s.engineTime + 150 < m.time ∨ m.time + 150 < s.engineTime then s.snmpReport m 2 u
      else
        let plain := if level = 3 then
            cfb (aesKeys (slice u 56 16)) true (m.data.length / 16 + 1) (beBytes 4 m.boots ++ beBytes 4 m.time ++ m.salt) m.data
          else m.data
        let sPdu : Option (List Byte) := if level = 3 then (match berGet plain with
            | some (0x30, q, _) => if m.tag = 4 ∧ m.salt.length = 8 then some q else none
            | _ => none) else if m.tag = 0x30 then some plain else none
        match sPdu with
        | none => if level = 3 then s.snmpReport m 6 [] else (s, none)
        | some q => match berAll 3 q with
          | [(4, _), (4, _), (t, c)] =>
            (match s.snmpAnswer (min m.maxSize 1472 - 200) t c with
             | some pdu =>
               let r := s.usedFree.snmpOut m.id (if level = 3 then 2 else 1) m.user u pdu
               (r.1, some r.2)
             | none => (s, none))
          | _ => (s, none)

/-- The agent starts to answer (R508): the gate-time instance has SYNC, and the boots value exceeds that of the previous start. -/
def State.snmpStart (s : State) : State :=
  let i := s.gateInst
  let b := (s.clk i).sec / 64
  let newer : Bool := match s.serv.boots with
    | some x => decide (x < b)
    | none => true
  if s.svcLive 7 && !s.serv.snmpUp && s.on (R.TIME.INST_i.STATUS.SYNC i) && newer then
    { s with serv := { s.serv with snmpUp := true, boots := some b, snmpAt := s.now } }
  else s

/-- The agent takes the next frame of X6. -/
def State.snmpTake (s : State) : State :=
  let s0 := s.snmpStart
  if !s0.svcLive 7 then s0
  else match s0.svcTake 7 6 with
    | none => s0
    | some (_, x, s1) =>
      match udpIn x with
      | none => s1.svcDrop 7
      | some u =>
        if !s1.serv.snmpUp ∨ u.dst ≠ s1.svcAddr 7 ∨ u.dport ≠ s1.paramNat 7 0x106 161 then s1.svcDrop 7
        else match snmpParse u.data with
          | none => s1.svcDrop 7
          | some m => match s1.snmpHandle m with
            | (s2, some y) => s2.udpSend 7 u.src (s2.paramNat 7 0x106 161) u.sport y
            | (s2, none) => s2.svcDrop 7

end Sys2Proof.Machine
end

