-- ==== Sys2Proof/Machine/ServCmds.lean ====
section
/-! DEFINITION. The commands of the built-in services (R498-R517) and of the attestation responder (R123). -/
namespace Sys2Proof.Machine

/-- INAUGURATION_END (R498): the maps' TRAIN and LEN, the new topology counter, and the consists of the train. -/
def execInaugurationEnd (maps : List (BitVec 32 × Fin 33)) (counter : BitVec 32) (consists : Nat) (s : State) : Out State :=
  fin (s.inaugEnd maps counter.toNat consists)

/-- SERVO_UPDATE (R500): the offset from the master in ns, none for a grandmaster instance. -/
def execServoUpdate (inst : Fin 4) (offset : Option Int) (s : State) : Out State :=
  fin (if s.ptpOn inst.val then
      (match offset with
       | some v => s.servo inst.val v
       | none => s.servoMaster inst.val)
    else s)

/-- ANNOUNCE_RECEIPT_TIMEOUT (R500). -/
def execAnnounceReceiptTimeout (inst : Fin 4) (s : State) : Out State :=
  fin (if s.ptpOn inst.val then (s.setSync inst.val false).setServo inst.val 0 0 else s)

/-- TS_ENTRY_DISPATCH (R501): `mine` where the entry's (port, tag) is one that the time service issued. -/
def execTsEntryDispatch (mine : Bool) (s : State) : Out State := fin (s.tsDispatch mine)

/-- MKA_SAK_DISTRIBUTE (R502). -/
def execMkaSakDistribute (port : Fin 48) (ssci : BitVec 32) (peers : List (BitVec 64 × BitVec 32)) (s : State) : Out State :=
  fin (s.sakNew port.val ssci.toNat peers)

/-- LLDP_TRANSMIT (R503). -/
def execLldpTransmit (s : State) : Out State := fin s.lldpSend

/-- LLDP_NEIGHBOUR_AGEOUT (R503). -/
def execLldpNeighbourAgeout (s : State) : Out State := fin s.lldpAge

/-- DHCP_REQUEST (R504). -/
def execDhcpRequest (s : State) : Out State := fin s.dhcpTake

/-- IPFIX_BATCH_EXPORT (R505, R506). -/
def execIpfixBatchExport (s : State) : Out State := fin s.ipfixBatch

/-- SNMP_REQUEST (R507, R508). -/
def execSnmpRequest (s : State) : Out State := fin s.snmpTake

/-- SYSLOG_POLL (R509, R510). -/
def execSyslogPoll (s : State) : Out State := fin s.syslogPoll

/-- ARP_RESOLVE_TIMEOUT (R497). -/
def execArpResolveTimeout (s : State) : Out State := fin s.arpTimeout

/-- LSA_FLOOD (R511). -/
def execLsaFlood (s : State) : Out State := fin s.lsaFlood

/-- LINK_STATE_AGEOUT (R511). -/
def execLinkStateAgeout (s : State) : Out State := fin s.lsaAge

/-- ROUTE_COMPUTE (R512). -/
def execRouteCompute (s : State) : Out State := fin s.routeCompute

/-- ROUTE_HOLD_EXPIRY (R512). -/
def execRouteHoldExpiry (link : Fin 8) (s : State) : Out State := fin (s.routeHoldEnd link.val)

/-- The endpoint takes the next message, where `p` names it, and `f` is what it does. -/
def State.epRun (s : State) (p : EpMsg → Bool) (f : State → EpMsg → State) : State :=
  match s.epTake p with
  | (s1, some m) => f s1 m
  | (s1, none) => s1

/-- A COMMAND message of an operation. -/
def isCmd (op : Nat) (m : EpMsg) : Bool := decide (m.typ = 2) && decide (cmdOp m.body = op)

/-- ENDPOINT_NONCE (R514). -/
def execEndpointNonce (s : State) : Out State := fin (s.epRun (fun m => decide (m.typ = 1)) State.epNonce)

/-- ENDPOINT_ATTEST (R517). -/
def execEndpointAttest (s : State) : Out State := fin (s.epRun (fun m => decide (m.typ = 3)) State.epAttest)

/-- ENDPOINT_DATA (R516). -/
def execEndpointData (s : State) : Out State := fin (s.epRun (fun m => decide (m.typ = 4)) State.epData)

/-- ENDPOINT_STATUS (R513). -/
def execEndpointStatus (s : State) : Out State := fin (s.epRun (fun m => decide (m.typ = 5)) State.epStatus)

/-- CMD_RULESET_SWAP (R515). -/
def execCmdRulesetSwap (s : State) : Out State := fin (s.epRun (isCmd 1) State.cmdSwap)

/-- CMD_FLOOR_ADVANCE (R515, R118): `good` floor bits read back before one does not. -/
def execCmdFloorAdvance (good : Nat) (s : State) : Out State := fin (s.epRun (isCmd 2) fun s m => s.cmdFloor m good)

/-- CMD_UPDATE_BEGIN (R516). -/
def execCmdUpdateBegin (s : State) : Out State := fin (s.epRun (isCmd 3) State.cmdUpdate)

/-- CMD_RESTART_SERVICES (R515). -/
def execCmdRestartServices (s : State) : Out State := fin (s.epRun (isCmd 4) State.cmdRestart)

/-- STAGING_TIMEOUT (R516). -/
def execStagingTimeout (s : State) : Out State := fin s.stagingTimeout

/-- ATTEST_SIGN (R123). -/
def execAttestSign (s : State) : Out State := fin s.attestSign

end Sys2Proof.Machine
end

