-- ==== Sys2Proof/Machine/SvcCmds.lean ====
section
/-! DEFINITION. The commands of the service complex: starts, releases of waiting threads, timers, deadlock, restart, thread
commands, sleep and wake (R431, R432, R447-R452, R485-R487). -/
namespace Sys2Proof.Machine

/-- VENDOR_THREADS_START (R49, R432): after commit, with the complex not held; start-up ends (R52). -/
def execVendorThreadsStart (s : State) : Out State :=
  if !s.on R.DEAL.STATUS.FWD || s.svc.vendorUp || s.on R.FAULT.STATE.SVC_HELD then fin s
  else
    let s1 := { s with svc := { s.svc with vendorUp := true } }
    let s2 := (s1.setB R.DEAL.STATUS.SVC true).set R.DEAL.T_SVC.T_SVC s.upUs
    fin (s2.startVendors.shakeAll.closeWin 0)

/-- OWNER_THREADS_START (R432, R451): every vendor thread has reached its first wait; a restart ends with it. -/
def execOwnerThreadsStart (s : State) : Out State :=
  if !s.svcRuns || s.svc.ownerUp || decide (s.svc.restarting = 1) || !s.vendorsWaited then fin s
  else
    let s1 := { s with svc := { s.svc with ownerUp := true, restarting := 0 } }
    let s2 := (s1.each s1.servicesOn fun s k => s.setSvcStat k 0 1 2).startOwners
    if s.svc.restarting = 2 then
      let back := s.col.escalated.filter fun n => s.isSticky n && !s.isRunning n
      fin ((s2.closeWin 3).each back State.startCountdown)
    else fin s2

/-- SERVICE_RESTART (R450): a write of `RESTART.GO`. -/
def execServiceRestart (who : Who) (s : State) : Out State :=
  fin (s.cmdWrite who (some 154) true 0x10300800 State.startRestart)

/-- The patch RAM and the match registers are reloaded from the DRAM copy, or stay off where its hash check fails (R472). -/
def State.reloadPatch (s : State) (ok : Bool) : State :=
  match s.deal.patch with
  | none => s
  | some _ =>
    if ok then
      s.each (List.range 4) fun s c =>
        let back (s : State) (f : Fld) : State := s.set f (s.dealtFld f)
        ((back (s.setB (R.SVC.MC_STATUS.PATCH_OFF c) false) (R.SVC.MC_STATUS.MATCH_COUNT c)).each (List.range 32) fun s k =>
          back s (R.SVC.MC_MATCH_k.VALID c k)).bump (R.SVC.PATCH_RELOADS.COUNT c)
    else
      (s.each (List.range 4) fun s c =>
        ((s.setB (R.SVC.MC_STATUS.PATCH_OFF c) true).set (R.SVC.MC_STATUS.MATCH_COUNT c) 0).each (List.range 32) fun s k =>
          s.setB (R.SVC.MC_MATCH_k.VALID c k) false).detect 243

/-- RESTART_SERVICES_START (R451 step 5): `patchOk` is the hash check of the patch copy (R472). -/
def execRestartServicesStart (patchOk : Bool) (s : State) : Out State :=
  if s.svc.restarting = 1 then
    let s1 := ((s.reloadPatch patchOk).detect 248).bump R.FAULT.RESTARTS.COUNT
    let s2 := { s1 with svc := { s1.svc with restarting := 2, ownerUp := false } }
    fin s2.startVendors.shakeAll
  else fin s

/-- THREAD_RELEASE (R431): the waiting thread's blocked instruction executes, once what it waits for has come and no thread
waits before it. -/
def execThreadRelease (t : Fin 64) (s : State) : Out State :=
  let c := t.val / 16
  let s0 := s.wake c 3
  if s.svcRuns && (s.thr t.val).waits && !(s.thr t.val).stepping && s.domOn (154 + c) then
    match s0.retry t.val with
    | some s1 => fin s1
    | none => fin s
  else fin s

/-- TIMER_EXPIRY (R447): a due timer counts, raises its event, and is armed again where periodic, without drift. -/
def execTimerExpiry (i : Fin 64) (s : State) : Out State :=
  let k := i.val
  let tm := s.svc.timers.get ETimer.init k
  match s.dueAt (.etimer k) with
  | some d =>
    if tm.armed ∧ d ≤ s.time.elapsed then
      let tm1 : ETimer := { tm with count := tm.count + 1, armed := tm.periodic }
      let s1 := { s with svc := { s.svc with timers := s.svc.timers.put ETimer.init k tm1 } }
      let s2 := if tm.periodic then s1.armAt (.etimer k) (d + elapsedUs tm.interval) else s1.disarm (.etimer k)
      fin (if tm.event then s2.raise (32 + k) else s2)
    else fin s
  | none => fin s

/-- DEADLOCK_DETECT (R449): the condition has held for 10 us. -/
def execDeadlockDetect (s : State) : Out State :=
  if s.deadlockNow then fin ((s.bump R.SVC.DEADLOCKS.COUNT).detect 240) else fin s

/-- The address of `THREAD_t.CMD`. -/
def threadCmdAddr (t : Nat) : Nat := (R.SVC.THREAD_t.CMD.CMD (t / 16) (t % 16)).addr

/-- THREAD_RESTART_CMD (R435): CMD 1. -/
def execThreadRestartCmd (who : Who) (t : Fin 64) (s : State) : Out State :=
  fin (s.cmdWrite who (some (154 + t.val / 16)) (vendorThr t.val) (threadCmdAddr t.val) fun s =>
    (s.touchCore (t.val / 16) 4).threadCmd t.val 1)

/-- THREAD_STOP_CMD (R452): CMD 2. -/
def execThreadStopCmd (who : Who) (t : Fin 64) (s : State) : Out State :=
  fin (s.cmdWrite who (some (154 + t.val / 16)) (vendorThr t.val) (threadCmdAddr t.val) fun s =>
    (s.touchCore (t.val / 16) 4).threadCmd t.val 2)

/-- A core may sleep (R485): every assigned thread waits, no timer of the core is armed, nothing is in service and the line
is not asserted. -/
def State.maySleep (s : State) (c : Nat) : Bool :=
  s.bit R.INTC.SLEEP_CFG.EN c && !s.asleep c && s.domOn (154 + c) &&
  ((List.range 16).all fun j => !s.assigned (16 * c + j) || (s.thr (16 * c + j)).waits) &&
  (s.svc.timers.all fun e => !(e.2.armed && decide (e.2.thread / 16 = c))) &&
  ((List.range 16).all fun j => !s.running (.sleep (16 * c + j))) &&
  (s.serving c).isNone && !s.line c

/-- CORE_SLEEP (R485): the conditions have held for 10 us. -/
def execCoreSleep (c : Fin 4) (s : State) : Out State :=
  if s.maySleep c.val then fin (s.setB (R.INTC.LINE_c.SLEEPING c.val) true) else fin s

/-- A pending, unmasked source that is routed to a core and wakes it (R486). -/
def State.wakeSource (s : State) (c : Nat) (always : Bool) : Bool :=
  (List.range 256).any fun n => s.qualifies c n && (if always then decide (n < 16) else decide (16 ≤ n) && s.inWake n)

/-- CORE_WAKE (R486): the sentry wakes a core for cause 1, 2 or 3, whose condition holds; the causes 4 to 6 act within the
accesses and the restart that they name. -/
def execCoreWake (c : Fin 4) (cause : Fin 7) (s : State) : Out State :=
  let k := c.val
  let ok :=
    if cause.val = 1 then s.wakeSource k false
    else if cause.val = 2 then s.wakeSource k true
    else if cause.val = 3 then (List.range 16).any fun j => (s.thr (16 * k + j)).waits && (s.retry (16 * k + j)).isSome
    else false
  if s.asleep k && ok then fin (s.wake k cause.val) else fin s

end Sys2Proof.Machine
end

