-- ==== Sys2Proof/Machine/TimeCmds.lean ====
section
/-! DEFINITION. The commands of the time unit (R165-R184). -/
namespace Sys2Proof.Machine

/-- REF_LOCK (R166): the edges have lain within 2 ppm for 1 s. -/
def execRefLock (s : State) : Out State :=
  if s.fld R.TIME.OSC.SRC = 1 ∧ ¬ s.on R.TIME.OSC.REF_LOCK then fin (({ s with time := { s.time with refAt := s.now } }.setB R.TIME.OSC.REF_LOCK true).raise 19) else fin s

/-- REF_LOCK_LOSS (R166): the trim holds its last disciplined value. -/
def execRefLockLoss (trim : BitVec 24) (s : State) : Out State :=
  if s.on R.TIME.OSC.REF_LOCK then
    fin ((((s.setB R.TIME.OSC.REF_LOCK false).set R.TIME.OSC_TRIM.TRIM trim.toNat).detect 257).raise 19)
  else fin s

/-- TCXO_FAILURE (R167). -/
def execTcxoFailure (s : State) : Out State := fin ((s.setB R.TIME.OSC.TCXO_OK false).level 256 true)

/-- OSC_TRIM_WRITE (R165, R624): while the reference disciplines the trim, the write changes nothing. -/
def execOscTrimWrite (who : Who) (v : BitVec 24) (s : State) : Out State :=
  fin (s.cmdWrite who none true 0x10070004 fun s =>
    if s.eff R.TIME.OSC.SRC = 1 then s else s.set R.TIME.OSC_TRIM.TRIM v.toNat)

/-- RATE_WRITE (R169). -/
def execRateWrite (who : Who) (i : Fin 4) (v : BitVec 32) (s : State) : Out State :=
  fin (s.cmdWrite who none true (R.TIME.INST_i.RATE.RATE i.val).addr fun s => s.writeRate i.val v.toNat)

/-- INST_SET (R170): CMD 1. -/
def execInstSet (who : Who) (i : Fin 4) (s : State) : Out State :=
  fin (s.cmdWrite who none true (R.TIME.INST_i.CMD.CMD i.val).addr fun s => s.instCmd i.val 1)

/-- INST_ADD_OFFSET (R170): CMD 2. -/
def execInstAddOffset (who : Who) (i : Fin 4) (s : State) : Out State :=
  fin (s.cmdWrite who none true (R.TIME.INST_i.CMD.CMD i.val).addr fun s => s.instCmd i.val 2)

/-- CAPTURE_GO (R172). -/
def execCaptureGo (who : Who) (s : State) : Out State :=
  fin (s.cmdWrite who none false R.TIME.CAPTURE.GO.addr State.captureGo)

/-- ETS_POP (R175). -/
def execEtsPop (who : Who) (s : State) : Out State :=
  fin (s.cmdWrite who none false R.TIME.ETS_POP.POP.addr State.etsPop)

/-- PPS_OUT_EDGE (R178): a shifted whole second has been reached that no step skips; low until commit. -/
def execPpsOutEdge (s : State) : Out State :=
  let e := s.ppsEdge
  if s.on R.TIME.PPS_OUT.EN ∧ s.on R.DEAL.STATUS.FWD ∧ (s.time.ppsLast : Int) < e ∧ (s.time.ppsAfter : Int) ≤ e ∧ ¬ s.time.ppsHigh then
    fin ({ s with time := { s.time with ppsHigh := true, ppsAt := s.now, ppsLast := e.toNat } }.raise 28)
  else fin s

/-- PPS_OUT_PULSE_END (R178). -/
def execPpsOutPulseEnd (s : State) : Out State :=
  if s.time.ppsHigh ∧ s.time.ppsAt + msec (s.eff R.TIME.PPS_OUT.WIDTH) ≤ s.now then
    fin { s with time := { s.time with ppsHigh := false } }
  else fin s

/-- PPS_IN_EDGE (R179): captured in all instances, or ignored within 500 ms of the last captured edge. -/
def execPpsInEdge (s : State) : Out State :=
  if !s.on R.TIME.PPS_IN.EN then fin s
  else
    let near := match s.time.ppsIn with
      | some a => decide (s.now < a + msec 500)
      | none => false
    if near then fin (s.bump R.TIME.PPS_IN_IGNORED.COUNT)
    else
      let s1 := s.each (List.range 4) fun s i => s.latch (s.clk i) (R.TIME.PPS_IN_i.SEC_LO.SEC_LO i)
        (R.TIME.PPS_IN_i.SEC_HI.SEC_HI i) (R.TIME.PPS_IN_i.NS.NS i) (R.TIME.PPS_IN_i.FRAC.FRAC i)
      fin (((({ s1 with time := { s1.time with ppsIn := some s.now, ppsGap := false } }).bump R.TIME.PPS_IN_SEQ.COUNT).level 258 false).raise 16)

/-- PPS_IN_GAP (R179): once for each gap of 1.5 s. -/
def execPpsInGap (s : State) : Out State :=
  match s.time.ppsIn with
  | some a =>
    if s.on R.TIME.PPS_IN.EN ∧ a + msec 1500 ≤ s.now ∧ ¬ s.time.ppsGap then
      fin ({ s with time := { s.time with ppsGap := true } }.level 258 true)
    else fin s
  | none => fin s

end Sys2Proof.Machine
end

