-- ==== Sys2Proof/Machine/UPortCmds.lean ====
section
/-! DEFINITION. The commands of the table-update ports and of the rule banks (R228-R235, R625). -/
namespace Sys2Proof.Machine

/-- A thread issues the POUTs of one whole command of operation `op` on Uu (R228, R443). -/
def State.uportCmd (s : State) (op : Nat) (t : Fin 64) (u : Fin 8) (words : List Word64) : State :=
  match words with
  | [] => s
  | h :: _ => if upOp h = op ∧ words.length = uportLen h then s.issue t.val (.poutAll (96 + u.val) words) else s

/-- UPORT_WRITE (R625). -/
def execUportWrite (t : Fin 64) (u : Fin 8) (words : List Word64) (s : State) : Out State := fin (s.uportCmd 1 t u words)
/-- UPORT_CLEAR (R228). -/
def execUportClear (t : Fin 64) (u : Fin 8) (words : List Word64) (s : State) : Out State := fin (s.uportCmd 2 t u words)
/-- UPORT_INSERT (R224, R625). -/
def execUportInsert (t : Fin 64) (u : Fin 8) (words : List Word64) (s : State) : Out State := fin (s.uportCmd 3 t u words)
/-- UPORT_DELETE (R228). -/
def execUportDelete (t : Fin 64) (u : Fin 8) (words : List Word64) (s : State) : Out State := fin (s.uportCmd 4 t u words)
/-- UPORT_READ (R228). -/
def execUportRead (t : Fin 64) (u : Fin 8) (words : List Word64) (s : State) : Out State := fin (s.uportCmd 5 t u words)
/-- UPORT_SWAP (R232). -/
def execUportSwap (t : Fin 64) (u : Fin 8) (words : List Word64) (s : State) : Out State := fin (s.uportCmd 6 t u words)
/-- UPORT_FLUSH (R228). -/
def execUportFlush (t : Fin 64) (u : Fin 8) (words : List Word64) (s : State) : Out State := fin (s.uportCmd 7 t u words)
/-- UPORT_BANK_CLEAR (R228). -/
def execUportBankClear (t : Fin 64) (u : Fin 8) (words : List Word64) (s : State) : Out State :=
  fin (s.uportCmd 8 t u words)

/-- UPORT_COMPLETION_READY (R230). -/
def execUportCompletionReady (u : Fin 8) (s : State) : Out State := fin (s.uportReady u.val)

/-- RULESET_ACTIVE_WRITE (R232). -/
def execRulesetActiveWrite (who : Who) (bank : Fin 4) (s : State) : Out State :=
  fin (s.cmdWrite who none false R.TABLES.RULESET_ACTIVE.BANK.addr fun s => s.swapWrite bank.val)

/-- A bank has been DRAINING for longer than `DRAIN_LIMIT` (R233). -/
def State.drainLimit (s : State) (k : Nat) : State :=
  let since := s.tabs.drainAt.get 0 k
  if s.ruleBank k = 2 ∧ since ≠ 0 ∧ since - 1 + usec (s.eff R.TABLES.DRAIN_LIMIT.LIMIT) < s.now then
    let s1 := (s.setBit R.TABLES.STICKY.DRAIN_LIMIT_SEEN k true).detect 193
    let s2 := { s1 with tabs := { s1.tabs with drainAt := s1.tabs.drainAt.del k } }
    s2.raise 123
  else s

/-- BANK_DRAIN_LIMIT (R233). -/
def execBankDrainLimit (k : Fin 4) (s : State) : Out State := fin (s.drainLimit k.val)

end Sys2Proof.Machine
end

