-- ==== Sys2Proof/Machine/Dispatch.lean ====
section
/-! DEFINITION. What each command does: one arm per constructor, one direct call of its meaning. -/
namespace Sys2Proof.Machine
/-- The effect of a command on everything but the queue. -/
def exec (i : Instr) (s : State) : Host.Outcome State Fault Refusal :=
  match i with
  | .registerWrite who a v => Sys2Proof.Machine.execRegisterWrite who a v s
  | .unmappedAccess who a v => Sys2Proof.Machine.execUnmappedAccess who a v s
  | .offDomainAccess who a v => Sys2Proof.Machine.execOffDomainAccess who a v s
  | .counterLowRead who a => Sys2Proof.Machine.execCounterLowRead who a s
  | .powerSample vin iin hold => Sys2Proof.Machine.execPowerSample vin iin hold s
  | .junctionSample sensors => Sys2Proof.Machine.execJunctionSample sensors s
  | .railOutOfWindow rails => Sys2Proof.Machine.execRailOutOfWindow rails s
  | .thermAlertChange asserted => Sys2Proof.Machine.execThermAlertChange asserted s
  | .tamperNAssert low => Sys2Proof.Machine.execTamperNAssert low s
  | .dealerStart romOk otpOk idOk selfTestOk keysOk deckPresent junction bandOk => Sys2Proof.Machine.execDealerStart romOk otpOk idOk selfTestOk keysOk deckPresent junction bandOk s
  | .deckReadFrame page data crc => Sys2Proof.Machine.execDeckReadFrame page data crc s
  | .dramInitComplete ok => Sys2Proof.Machine.execDramInitComplete ok s
  | .memtestComplete ok => Sys2Proof.Machine.execMemtestComplete ok s
  | .bucketClearComplete ok => Sys2Proof.Machine.execBucketClearComplete ok s
  | .signatureCheckComplete fuseFail => Sys2Proof.Machine.execSignatureCheckComplete fuseFail s
  | .deckProgramComplete err => Sys2Proof.Machine.execDeckProgramComplete err s
  | .deckEraseComplete err => Sys2Proof.Machine.execDeckEraseComplete err s
  | .headEnterFifo p ago bytes => Sys2Proof.Machine.execHeadEnterFifo p ago bytes s
  | .frameEndReceived p err ago rest => Sys2Proof.Machine.execFrameEndReceived p err ago rest s
  | .linkFaultDetect p reason => Sys2Proof.Machine.execLinkFaultDetect p reason s
  | .linkDownDeclare p => Sys2Proof.Machine.execLinkDownDeclare p s
  | .linkUpDeclare p phy => Sys2Proof.Machine.execLinkUpDeclare p phy s
  | .portDisable who p => Sys2Proof.Machine.execPortDisable who p s
  | .portEnable who p => Sys2Proof.Machine.execPortEnable who p s
  | .portDrainTimeout p => Sys2Proof.Machine.execPortDrainTimeout p s
  | .portQuiesced p => Sys2Proof.Machine.execPortQuiesced p s
  | .pipelineTakeHead p => Sys2Proof.Machine.execPipelineTakeHead p s
  | .flowDramReadComplete x => Sys2Proof.Machine.execFlowDramReadComplete x s
  | .flowLookupRetry x => Sys2Proof.Machine.execFlowLookupRetry x s
  | .flowDeadline x => Sys2Proof.Machine.execFlowDeadline x s
  | .flowStageExit p => Sys2Proof.Machine.execFlowStageExit p s
  | .exceptionCopy q rd k => Sys2Proof.Machine.execExceptionCopy q rd k s
  | .flowPlace x => Sys2Proof.Machine.execFlowPlace x s
  | .freeIndexRefill x => Sys2Proof.Machine.execFreeIndexRefill x s
  | .flowCacheWriteback x set way => Sys2Proof.Machine.execFlowCacheWriteback x set way s
  | .flowCacheHalfDisable who h => Sys2Proof.Machine.execFlowCacheHalfDisable who h s
  | .flowSliceDisable who x => Sys2Proof.Machine.execFlowSliceDisable who x s
  | .flowSliceEnable who x => Sys2Proof.Machine.execFlowSliceEnable who x s
  | .sweeperVisit x flush => Sys2Proof.Machine.execSweeperVisit x flush s
  | .flowExpiry r => Sys2Proof.Machine.execFlowExpiry r s
  | .flowKill who r => Sys2Proof.Machine.execFlowKill who r s
  | .flowFlush who all p => Sys2Proof.Machine.execFlowFlush who all p s
  | .flowPeekRead who => Sys2Proof.Machine.execFlowPeekRead who s
  | .tmSelect p => Sys2Proof.Machine.execTmSelect p s
  | .frameTransmitStart p sfd rd k => Sys2Proof.Machine.execFrameTransmitStart p sfd rd k s
  | .frameTransmitEnd p => Sys2Proof.Machine.execFrameTransmitEnd p s
  | .headAgeTest p => Sys2Proof.Machine.execHeadAgeTest p s
  | .recircServe n rd k => Sys2Proof.Machine.execRecircServe n rd k s
  | .gateEntryChange p => Sys2Proof.Machine.execGateEntryChange p s
  | .gateListSwap p => Sys2Proof.Machine.execGateListSwap p s
  | .gateRestart p => Sys2Proof.Machine.execGateRestart p s
  | .gateArm who p => Sys2Proof.Machine.execGateArm who p s
  | .gateCancel who p => Sys2Proof.Machine.execGateCancel who p s
  | .gateArmCancel who p => Sys2Proof.Machine.execGateArmCancel who p s
  | .streamGateEntry l => Sys2Proof.Machine.execStreamGateEntry l s
  | .sfUnblock who n => Sys2Proof.Machine.execSfUnblock who n s
  | .meterClearRed who n => Sys2Proof.Machine.execMeterClearRed who n s
  | .frerReset who n => Sys2Proof.Machine.execFrerReset who n s
  | .metronomeUpdate pred svc => Sys2Proof.Machine.execMetronomeUpdate pred svc s
  | .vcoreRangeFault mv => Sys2Proof.Machine.execVcoreRangeFault mv s
  | .refLockLoss trim => Sys2Proof.Machine.execRefLockLoss trim s
  | .oscTrimWrite who v => Sys2Proof.Machine.execOscTrimWrite who v s
  | .rateWrite who x v => Sys2Proof.Machine.execRateWrite who x v s
  | .instSet who x => Sys2Proof.Machine.execInstSet who x s
  | .instAddOffset who x => Sys2Proof.Machine.execInstAddOffset who x s
  | .captureGo who => Sys2Proof.Machine.execCaptureGo who s
  | .etsPop who => Sys2Proof.Machine.execEtsPop who s
  | .uportWrite t u words => Sys2Proof.Machine.execUportWrite t u words s
  | .uportClear t u words => Sys2Proof.Machine.execUportClear t u words s
  | .uportInsert t u words => Sys2Proof.Machine.execUportInsert t u words s
  | .uportDelete t u words => Sys2Proof.Machine.execUportDelete t u words s
  | .uportRead t u words => Sys2Proof.Machine.execUportRead t u words s
  | .uportSwap t u words => Sys2Proof.Machine.execUportSwap t u words s
  | .uportFlush t u words => Sys2Proof.Machine.execUportFlush t u words s
  | .uportBankClear t u words => Sys2Proof.Machine.execUportBankClear t u words s
  | .uportCompletionReady u => Sys2Proof.Machine.execUportCompletionReady u s
  | .rulesetActiveWrite who bank => Sys2Proof.Machine.execRulesetActiveWrite who bank s
  | .bankDrainLimit k => Sys2Proof.Machine.execBankDrainLimit k s
  | .bankTestRequest who b => Sys2Proof.Machine.execBankTestRequest who b s
  | .wholeBufferTest who => Sys2Proof.Machine.execWholeBufferTest who s
  | .nelyanBlockReceive n block => Sys2Proof.Machine.execNelyanBlockReceive n block s
  | .nelyanBlockSend n rd k => Sys2Proof.Machine.execNelyanBlockSend n rd k s
  | .nelyanAckTimeout n => Sys2Proof.Machine.execNelyanAckTimeout n s
  | .nelyanLockAcquire n => Sys2Proof.Machine.execNelyanLockAcquire n s
  | .nelyanStop n lost => Sys2Proof.Machine.execNelyanStop n lost s
  | .nelyanDownTimeout n => Sys2Proof.Machine.execNelyanDownTimeout n s
  | .helloRetry n => Sys2Proof.Machine.execHelloRetry n s
  | .handshakeMessage n rtt => Sys2Proof.Machine.execHandshakeMessage n rtt s
  | .handshakeTimeout n => Sys2Proof.Machine.execHandshakeTimeout n s
  | .refusedRetry n => Sys2Proof.Machine.execRefusedRetry n s
  | .rekeyStart n => Sys2Proof.Machine.execRekeyStart n s
  | .guardTimeout d => Sys2Proof.Machine.execGuardTimeout d s
  | .rtEntryWrite who v => Sys2Proof.Machine.execRtEntryWrite who v s
  | .nlinkDisable who n => Sys2Proof.Machine.execNlinkDisable who n s
  | .nlinkDisableComplete n => Sys2Proof.Machine.execNlinkDisableComplete n s
  | .nlinkEnable who n => Sys2Proof.Machine.execNlinkEnable who n s
  | .faultSourceDetect src present aux => Sys2Proof.Machine.execFaultSourceDetect src present aux s
  | .countdownExpiry src => Sys2Proof.Machine.execCountdownExpiry src s
  | .stickyClear who k v => Sys2Proof.Machine.execStickyClear who k v s
  | .faultInject who k v => Sys2Proof.Machine.execFaultInject who k v s
  | .foldReq who => Sys2Proof.Machine.execFoldReq who s
  | .foldExit who => Sys2Proof.Machine.execFoldExit who s
  | .faultNMismatch present => Sys2Proof.Machine.execFaultNMismatch present s
  | .bypassMismatch present => Sys2Proof.Machine.execBypassMismatch present s
  | .bypForceWrite who v => Sys2Proof.Machine.execBypForceWrite who v s
  | .add t rd ra rb => Sys2Proof.Machine.execAdd t rd ra rb s
  | .sub t rd ra rb => Sys2Proof.Machine.execSub t rd ra rb s
  | .and t rd ra rb => Sys2Proof.Machine.execAnd t rd ra rb s
  | .or t rd ra rb => Sys2Proof.Machine.execOr t rd ra rb s
  | .xor t rd ra rb => Sys2Proof.Machine.execXor t rd ra rb s
  | .sll t rd ra rb => Sys2Proof.Machine.execSll t rd ra rb s
  | .srl t rd ra rb => Sys2Proof.Machine.execSrl t rd ra rb s
  | .sra t rd ra rb => Sys2Proof.Machine.execSra t rd ra rb s
  | .slt t rd ra rb => Sys2Proof.Machine.execSlt t rd ra rb s
  | .sltu t rd ra rb => Sys2Proof.Machine.execSltu t rd ra rb s
  | .mul t rd ra rb => Sys2Proof.Machine.execMul t rd ra rb s
  | .mulhu t rd ra rb => Sys2Proof.Machine.execMulhu t rd ra rb s
  | .min t rd ra rb => Sys2Proof.Machine.execMin t rd ra rb s
  | .minu t rd ra rb => Sys2Proof.Machine.execMinu t rd ra rb s
  | .bswap t rd ra => Sys2Proof.Machine.execBswap t rd ra s
  | .popc t rd ra => Sys2Proof.Machine.execPopc t rd ra s
  | .addi t rd ra imm => Sys2Proof.Machine.execAddi t rd ra imm s
  | .andi t rd ra imm => Sys2Proof.Machine.execAndi t rd ra imm s
  | .ori t rd ra imm => Sys2Proof.Machine.execOri t rd ra imm s
  | .xori t rd ra imm => Sys2Proof.Machine.execXori t rd ra imm s
  | .shiftiSll t rd ra amount => Sys2Proof.Machine.execShiftiSll t rd ra amount s
  | .shiftiSrl t rd ra amount => Sys2Proof.Machine.execShiftiSrl t rd ra amount s
  | .shiftiSra t rd ra amount => Sys2Proof.Machine.execShiftiSra t rd ra amount s
  | .lui t rd imm => Sys2Proof.Machine.execLui t rd imm s
  | .lhi t rd ra imm => Sys2Proof.Machine.execLhi t rd ra imm s
  | .slti t rd ra imm => Sys2Proof.Machine.execSlti t rd ra imm s
  | .lb t rd ra imm => Sys2Proof.Machine.execLb t rd ra imm s
  | .lh t rd ra imm => Sys2Proof.Machine.execLh t rd ra imm s
  | .lw t rd ra imm => Sys2Proof.Machine.execLw t rd ra imm s
  | .ld t rd ra imm => Sys2Proof.Machine.execLd t rd ra imm s
  | .lbu t rd ra imm => Sys2Proof.Machine.execLbu t rd ra imm s
  | .lhu t rd ra imm => Sys2Proof.Machine.execLhu t rd ra imm s
  | .lwu t rd ra imm => Sys2Proof.Machine.execLwu t rd ra imm s
  | .sb t rs ra imm => Sys2Proof.Machine.execSb t rs ra imm s
  | .sh t rs ra imm => Sys2Proof.Machine.execSh t rs ra imm s
  | .sw t rs ra imm => Sys2Proof.Machine.execSw t rs ra imm s
  | .sd t rs ra imm => Sys2Proof.Machine.execSd t rs ra imm s
  | .beq t ra rb off => Sys2Proof.Machine.execBeq t ra rb off s
  | .bne t ra rb off => Sys2Proof.Machine.execBne t ra rb off s
  | .blt t ra rb off => Sys2Proof.Machine.execBlt t ra rb off s
  | .bge t ra rb off => Sys2Proof.Machine.execBge t ra rb off s
  | .bltu t ra rb off => Sys2Proof.Machine.execBltu t ra rb off s
  | .bgeu t ra rb off => Sys2Proof.Machine.execBgeu t ra rb off s
  | .jal t rd off => Sys2Proof.Machine.execJal t rd off s
  | .jalr t rd ra imm => Sys2Proof.Machine.execJalr t rd ra imm s
  | .aadd t word rd ra rb => Sys2Proof.Machine.execAadd t word rd ra rb s
  | .aand t word rd ra rb => Sys2Proof.Machine.execAand t word rd ra rb s
  | .aor t word rd ra rb => Sys2Proof.Machine.execAor t word rd ra rb s
  | .axor t word rd ra rb => Sys2Proof.Machine.execAxor t word rd ra rb s
  | .aswap t word rd ra rb => Sys2Proof.Machine.execAswap t word rd ra rb s
  | .acas t word rd ra rb => Sys2Proof.Machine.execAcas t word rd ra rb s
  | .chin t rd re n => Sys2Proof.Machine.execChin t rd re n s
  | .chout t rd n => Sys2Proof.Machine.execChout t rd n s
  | .chend t n => Sys2Proof.Machine.execChend t n s
  | .exceptionPin t rd re n => Sys2Proof.Machine.execExceptionPin t rd re n s
  | .poolTake t rd n => Sys2Proof.Machine.execPoolTake t rd n s
  | .poolTakeResult t rd re n => Sys2Proof.Machine.execPoolTakeResult t rd re n s
  | .poolGive t rd n => Sys2Proof.Machine.execPoolGive t rd n s
  | .timerArm t rd n => Sys2Proof.Machine.execTimerArm t rd n s
  | .timerCancel t rd n => Sys2Proof.Machine.execTimerCancel t rd n s
  | .timerPin t rd re n => Sys2Proof.Machine.execTimerPin t rd re n s
  | .uportCompletionPin t rd re n => Sys2Proof.Machine.execUportCompletionPin t rd re n s
  | .sendRequest t w0 w1 w2 => Sys2Proof.Machine.execSendRequest t w0 w1 w2 s
  | .bcopy t ra rb rc rd => Sys2Proof.Machine.execBcopy t ra rb rc rd s
  | .bfill t ra rb rc rd => Sys2Proof.Machine.execBfill t ra rb rc rd s
  | .crc32c t ra rb rc rd => Sys2Proof.Machine.execCrc32c t ra rb rc rd s
  | .hash t ra rb rc rd => Sys2Proof.Machine.execHash t ra rb rc rd s
  | .tsearch t ra rb rc rd => Sys2Proof.Machine.execTsearch t ra rb rc rd s
  | .await t => Sys2Proof.Machine.execAwait t s
  | .fence t mask => Sys2Proof.Machine.execFence t mask s
  | .trap t imm => Sys2Proof.Machine.execTrap t imm s
  | .sleep t ra => Sys2Proof.Machine.execSleep t ra s
  | .self t rd => Sys2Proof.Machine.execSelf t rd s
  | .reservedInstruction t w => Sys2Proof.Machine.execReservedInstruction t w s
  | .threadRelease t => Sys2Proof.Machine.execThreadRelease t s
  | .timerExpiry x => Sys2Proof.Machine.execTimerExpiry x s
  | .serviceRestart who => Sys2Proof.Machine.execServiceRestart who s
  | .restartServicesStart patchOk => Sys2Proof.Machine.execRestartServicesStart patchOk s
  | .threadRestartCmd who t => Sys2Proof.Machine.execThreadRestartCmd who t s
  | .threadStopCmd who t => Sys2Proof.Machine.execThreadStopCmd who t s
  | .claimRead who c => Sys2Proof.Machine.execClaimRead who c s
  | .doneWrite who c v => Sys2Proof.Machine.execDoneWrite who c v s
  | .pendSet who k v => Sys2Proof.Machine.execPendSet who k v s
  | .pendClr who k v => Sys2Proof.Machine.execPendClr who k v s
  | .maskSet who k v => Sys2Proof.Machine.execMaskSet who k v s
  | .maskClr who k v => Sys2Proof.Machine.execMaskClr who k v s
  | .routeWrite who k v => Sys2Proof.Machine.execRouteWrite who k v s
  | .coreSleep c => Sys2Proof.Machine.execCoreSleep c s
  | .coreWake c cause => Sys2Proof.Machine.execCoreWake c cause s
  | .dramRequestComplete port addr outcome => Sys2Proof.Machine.execDramRequestComplete port addr outcome s
  | .refreshDue c recordOk => Sys2Proof.Machine.execRefreshDue c recordOk s
  | .bandTaskTick tj => Sys2Proof.Machine.execBandTaskTick tj s
  | .scrubBlock found => Sys2Proof.Machine.execScrubBlock found s
  | .dramCtrlDisable who c => Sys2Proof.Machine.execDramCtrlDisable who c s
  | .pwrOnClr who k v => Sys2Proof.Machine.execPwrOnClr who k v s
  | .pwrOnSet who k v => Sys2Proof.Machine.execPwrOnSet who k v s
  | .quiesceAcknowledge d => Sys2Proof.Machine.execQuiesceAcknowledge d s
  | .quiesceTimeout d => Sys2Proof.Machine.execQuiesceTimeout d s
  | .domainOnComplete d => Sys2Proof.Machine.execDomainOnComplete d s
  | .debugBadPacket bytes => Sys2Proof.Machine.execDebugBadPacket bytes s
  | .debugStatus seq => Sys2Proof.Machine.execDebugStatus seq s
  | .debugChallenge seq => Sys2Proof.Machine.execDebugChallenge seq s
  | .debugResponse seq bytes => Sys2Proof.Machine.execDebugResponse seq bytes s
  | .debugAttest seq bytes => Sys2Proof.Machine.execDebugAttest seq bytes s
  | .debugBufRead seq offset count => Sys2Proof.Machine.execDebugBufRead seq offset count s
  | .debugRelock seq => Sys2Proof.Machine.execDebugRelock seq s
  | .debugRootKey seq key => Sys2Proof.Machine.execDebugRootKey seq key s
  | .debugHalt seq target => Sys2Proof.Machine.execDebugHalt seq target s
  | .debugResume seq target => Sys2Proof.Machine.execDebugResume seq target s
  | .debugStep seq target chunk => Sys2Proof.Machine.execDebugStep seq target chunk s
  | .debugStepComplete t => Sys2Proof.Machine.execDebugStepComplete t s
  | .debugRegRead seq target reg => Sys2Proof.Machine.execDebugRegRead seq target reg s
  | .debugRegWrite seq target reg v => Sys2Proof.Machine.execDebugRegWrite seq target reg v s
  | .debugBreak seq pc w => Sys2Proof.Machine.execDebugBreak seq pc w s
  | .debugWatch seq a w x => Sys2Proof.Machine.execDebugWatch seq a w x s
  | .debugFreeze seq mask => Sys2Proof.Machine.execDebugFreeze seq mask s
  | .debugMemRead seq a count => Sys2Proof.Machine.execDebugMemRead seq a count s
  | .debugMemWrite seq a words => Sys2Proof.Machine.execDebugMemWrite seq a words s
  | .debugChStatus seq ch => Sys2Proof.Machine.execDebugChStatus seq ch s
  | .debugChAbandon seq ch => Sys2Proof.Machine.execDebugChAbandon seq ch s
  | .debugSvcRestart seq => Sys2Proof.Machine.execDebugSvcRestart seq s
  | .debugSvcRelease seq => Sys2Proof.Machine.execDebugSvcRelease seq s
  | .tablePortRead who port mem index => Sys2Proof.Machine.execTablePortRead who port mem index s
  | .tablePortWrite who port mem index => Sys2Proof.Machine.execTablePortWrite who port mem index s
  | .mdioC22Write who m phy reg data => Sys2Proof.Machine.execMdioC22Write who m phy reg data s
  | .mdioC22Read who m phy reg => Sys2Proof.Machine.execMdioC22Read who m phy reg s
  | .mdioC45Address who m phy reg data => Sys2Proof.Machine.execMdioC45Address who m phy reg data s
  | .mdioC45Write who m phy reg data => Sys2Proof.Machine.execMdioC45Write who m phy reg data s
  | .mdioC45ReadIncrement who m phy reg => Sys2Proof.Machine.execMdioC45ReadIncrement who m phy reg s
  | .mdioC45Read who m phy reg => Sys2Proof.Machine.execMdioC45Read who m phy reg s
  | .mdioFrameComplete m data => Sys2Proof.Machine.execMdioFrameComplete m data s
  | .i2cWrite who x wlen addr => Sys2Proof.Machine.execI2cWrite who x wlen addr s
  | .i2cRead who x rlen addr => Sys2Proof.Machine.execI2cRead who x rlen addr s
  | .i2cWriteRead who x wlen rlen addr => Sys2Proof.Machine.execI2cWriteRead who x wlen rlen addr s
  | .i2cComplete x result data => Sys2Proof.Machine.execI2cComplete x result data s
  | .i2cStretchTimeout x => Sys2Proof.Machine.execI2cStretchTimeout x s
  | .gpioOutSet who v => Sys2Proof.Machine.execGpioOutSet who v s
  | .gpioOutClr who v => Sys2Proof.Machine.execGpioOutClr who v s
  | .linkFaultClear p => Sys2Proof.Machine.execLinkFaultClear p s
  | .quiesceDrainTimeout d => Sys2Proof.Machine.execQuiesceDrainTimeout d s
  | .powerValidT0 => Sys2Proof.Machine.execPowerValidT0 s
  | .sysRstAssert => Sys2Proof.Machine.execSysRstAssert s
  | .sysRstRelease => Sys2Proof.Machine.execSysRstRelease s
  | .vinAbsent => Sys2Proof.Machine.execVinAbsent s
  | .vinPresent => Sys2Proof.Machine.execVinPresent s
  | .holdBelow12v => Sys2Proof.Machine.execHoldBelow12v s
  | .holdChargeTimeout => Sys2Proof.Machine.execHoldChargeTimeout s
  | .imageStaged => Sys2Proof.Machine.execImageStaged s
  | .dealApply => Sys2Proof.Machine.execDealApply s
  | .dealCommit => Sys2Proof.Machine.execDealCommit s
  | .dealWatchdog => Sys2Proof.Machine.execDealWatchdog s
  | .vendorThreadsStart => Sys2Proof.Machine.execVendorThreadsStart s
  | .ownerThreadsStart => Sys2Proof.Machine.execOwnerThreadsStart s
  | .deckOvercurrent => Sys2Proof.Machine.execDeckOvercurrent s
  | .deckRemoved => Sys2Proof.Machine.execDeckRemoved s
  | .deckPowerReturn => Sys2Proof.Machine.execDeckPowerReturn s
  | .journalAppend => Sys2Proof.Machine.execJournalAppend s
  | .journalBudgetTick => Sys2Proof.Machine.execJournalBudgetTick s
  | .attestSign => Sys2Proof.Machine.execAttestSign s
  | .challengeExpiry => Sys2Proof.Machine.execChallengeExpiry s
  | .unlockExpiry => Sys2Proof.Machine.execUnlockExpiry s
  | .unlockBackoffEnd => Sys2Proof.Machine.execUnlockBackoffEnd s
  | .macLearn => Sys2Proof.Machine.execMacLearn s
  | .twinInsert => Sys2Proof.Machine.execTwinInsert s
  | .exportBatchSend => Sys2Proof.Machine.execExportBatchSend s
  | .exportFlushTimer => Sys2Proof.Machine.execExportFlushTimer s
  | .exportStall => Sys2Proof.Machine.execExportStall s
  | .governorLoop => Sys2Proof.Machine.execGovernorLoop s
  | .ceilingAdjust => Sys2Proof.Machine.execCeilingAdjust s
  | .boostEnd => Sys2Proof.Machine.execBoostEnd s
  | .metroSpreadFault => Sys2Proof.Machine.execMetroSpreadFault s
  | .refLock => Sys2Proof.Machine.execRefLock s
  | .tcxoFailure => Sys2Proof.Machine.execTcxoFailure s
  | .ppsOutEdge => Sys2Proof.Machine.execPpsOutEdge s
  | .ppsOutPulseEnd => Sys2Proof.Machine.execPpsOutPulseEnd s
  | .ppsInEdge => Sys2Proof.Machine.execPpsInEdge s
  | .ppsInGap => Sys2Proof.Machine.execPpsInGap s
  | .macAgerPass => Sys2Proof.Machine.execMacAgerPass s
  | .bankRotationTimer => Sys2Proof.Machine.execBankRotationTimer s
  | .bankDrainComplete => Sys2Proof.Machine.execBankDrainComplete s
  | .bankDrainTimeout => Sys2Proof.Machine.execBankDrainTimeout s
  | .faultPulseEnd => Sys2Proof.Machine.execFaultPulseEnd s
  | .deadlockDetect => Sys2Proof.Machine.execDeadlockDetect s
  | .ceRateCheck => Sys2Proof.Machine.execCeRateCheck s
  | .debugStepPending => Sys2Proof.Machine.execDebugStepPending s
  | .debugDetach => Sys2Proof.Machine.execDebugDetach s
  | .lldpTransmit => Sys2Proof.Machine.execLldpTransmit s
  | .dhcpRequest => Sys2Proof.Machine.execDhcpRequest s
  | .ipfixBatchExport => Sys2Proof.Machine.execIpfixBatchExport s
  | .snmpRequest => Sys2Proof.Machine.execSnmpRequest s
  | .syslogPoll => Sys2Proof.Machine.execSyslogPoll s
  | .arpResolveTimeout => Sys2Proof.Machine.execArpResolveTimeout s
  | .lsaFlood => Sys2Proof.Machine.execLsaFlood s
  | .routeCompute => Sys2Proof.Machine.execRouteCompute s
  | .endpointNonce => Sys2Proof.Machine.execEndpointNonce s
  | .cmdRulesetSwap => Sys2Proof.Machine.execCmdRulesetSwap s
  | .cmdUpdateBegin => Sys2Proof.Machine.execCmdUpdateBegin s
  | .cmdRestartServices => Sys2Proof.Machine.execCmdRestartServices s
  | .endpointAttest => Sys2Proof.Machine.execEndpointAttest s
  | .endpointData => Sys2Proof.Machine.execEndpointData s
  | .endpointStatus => Sys2Proof.Machine.execEndpointStatus s
  | .stagingTimeout => Sys2Proof.Machine.execStagingTimeout s
  | .deckLost => Sys2Proof.Machine.execDeckLost s
  | .exceptionPathNoBuffer => Sys2Proof.Machine.execExceptionPathNoBuffer s
  | .foldExitComplete => Sys2Proof.Machine.execFoldExitComplete s
  | .holdCharged => Sys2Proof.Machine.execHoldCharged s
  | .powerCycle => Sys2Proof.Machine.execPowerCycle s
  | .debugAttach => Sys2Proof.Machine.execDebugAttach s
  | .linkStateAgeout => Sys2Proof.Machine.execLinkStateAgeout s
  | .lldpNeighbourAgeout => Sys2Proof.Machine.execLldpNeighbourAgeout s
  | .tamperMonitorTrip supply temp => Sys2Proof.Machine.execTamperMonitorTrip supply temp s
  | .deckIdentityCheck page => Sys2Proof.Machine.execDeckIdentityCheck page s
  | .floorAdvanceTimed good => Sys2Proof.Machine.execFloorAdvanceTimed good s
  | .saInstall who p op => Sys2Proof.Machine.execSaInstall who p op s
  | .flowSliceRebuildDone x => Sys2Proof.Machine.execFlowSliceRebuildDone x s
  | .sampleStepTimer x => Sys2Proof.Machine.execSampleStepTimer x s
  | .sampleRelaxTimer x => Sys2Proof.Machine.execSampleRelaxTimer x s
  | .insertDeferStart x => Sys2Proof.Machine.execInsertDeferStart x s
  | .frerTakeAnyTimeout n => Sys2Proof.Machine.execFrerTakeAnyTimeout n s
  | .marchTestComplete pass => Sys2Proof.Machine.execMarchTestComplete pass s
  | .nelyanFmRepeat n => Sys2Proof.Machine.execNelyanFmRepeat n s
  | .mr4Read ch rate => Sys2Proof.Machine.execMr4Read ch rate s
  | .zqCalibration c ok => Sys2Proof.Machine.execZqCalibration c ok s
  | .inaugurationEnd maps counter consists => Sys2Proof.Machine.execInaugurationEnd maps counter consists s
  | .servoUpdate inst offset => Sys2Proof.Machine.execServoUpdate inst offset s
  | .tsEntryDispatch mine => Sys2Proof.Machine.execTsEntryDispatch mine s
  | .mkaSakDistribute port ssci peers => Sys2Proof.Machine.execMkaSakDistribute port ssci peers s
  | .cmdFloorAdvance good => Sys2Proof.Machine.execCmdFloorAdvance good s
  | .wholeBufferTestComplete bad => Sys2Proof.Machine.execWholeBufferTestComplete bad s
  | .announceReceiptTimeout inst => Sys2Proof.Machine.execAnnounceReceiptTimeout inst s
  | .routeHoldExpiry link => Sys2Proof.Machine.execRouteHoldExpiry link s
end Sys2Proof.Machine
end

