-- ==== Sys2Proof/Machine/Tick.lean ====
section
/-! DEFINITION. One period of 20 ns in which no command waits: the clocks count, and what the spec lets happen at a time of its own,
without a row of the command table, happens (log entry 2). -/
namespace Sys2Proof.Machine

/-- One period: the uptime, the clock instances and the elapsed time from the power-up of the always-on domain on (R168, R169, R182), the gap after a FAULT_N pulse (R422) and the
switches of acknowledged domains (R560), and the waits of the services (R498, R508, R515). -/
def State.tick (s : State) : State :=
  let s1 := { s with now := s.now + 1 }
  let s2 := if s1.sup.live then (s1.each (List.range 4) State.tickClk).tickElapsed else s1
  (s2.gapEnd.switchesDue.servTick.snmpStart).settle

end Sys2Proof.Machine
end

