-- ==== Sys2Proof/Safety.lean ====
section
/-! DEFINITION. What the claims call a sound state of the module, the conditions on a thread and its operands under which an instruction
completes, and the frames of the claims. -/
namespace Sys2Proof.Machine

/-! ## Sound states -/

/-- No Fold entry and no restart of the service complex stands decided and not carried out (R414, R416). -/
def State.Settled (s : State) : Prop := s.col.foldReq = false ∧ s.col.restartReq = false

/-- Memory is in its canonical form. -/
def State.MemOk (s : State) : Prop := Memory.wf s.mem = true

/-! ## Service threads -/

/-- No error lies in the blocks of `n` bytes at `a` (R521). -/
def State.CleanAt (s : State) (a n : Nat) : Prop := ∀ b ∈ blocksOf a n, b ∉ s.dram.hard ∧ b ∉ s.dram.soft

/-- Thread `t` issues its next instruction: it may issue, no breakpoint fires at its PC, and the fetch is allowed and meets no error
(R429, R434, R459, R576, R578). -/
def State.Issues (s : State) (t : Nat) : Prop :=
  s.canIssue t = true ∧ ((s.thr t).skipBp = true ∨ (s.thr t).midLong = true ∨ s.breakAt t = none) ∧
    s.refuses t (s.thr t).pc.toNat 4 .fetch true = none ∧ s.CleanAt (s.thr t).pc.toNat 4

/-- An access of `n` bytes at `a` by thread `t` to memory that is no register: allowed, and without an error. -/
def State.Reaches (s : State) (t a n : Nat) (k : AccKind) (aligned : Bool) : Prop :=
  s.refuses t a n k aligned = none ∧ s.zone a ≠ .regs ∧ s.CleanAt a n

/-- No watchpoint of the debug port is set. -/
def State.NoWatch (s : State) : Prop := s.dbg.wtcs = []

/-- `u` differs from `s` in nothing but thread `t` and the issue counter of its core. -/
def State.OnlyThread (s u : State) (t : Nat) : Prop :=
  (∀ f : Fld, f.key ≠ (R.SVC.ISSUED.COUNT (t / 16)).key → u.fld f = s.fld f) ∧ (∀ k, k ≠ t → u.thr k = s.thr k) ∧
    u = { s with regs := u.regs, svc := { s.svc with threads := u.svc.threads } }

/-- The thread stays READY, its PC moves to `pc`, and its general registers but `rd` keep their values; `rd` reads `v`, or 0 where it is
g0 (R454). -/
def State.Result (s u : State) (t : Nat) (rd : Reg) (v : Word64) (pc : Addr) : Prop :=
  (u.thr t).st = .ready ∧ (u.thr t).pc = pc ∧ u.reg t rd = (if rd.val = 0 then 0 else v) ∧ ∀ r, r ≠ rd → u.reg t r = s.reg t r

/-- `u` is `s` after an instruction of thread `t` whose one result `v` goes to `rd`, and whose next PC is `pc`; nothing else changes. -/
def State.Computes (s u : State) (t : Nat) (rd : Reg) (v : Word64) (pc : Addr) : Prop :=
  s.Result u t rd v pc ∧ s.OnlyThread u t

/-- The PC after an instruction that does not branch. -/
def State.nextPc (s : State) (t : Nat) : Addr := (s.thr t).pc + 4

/-- Command `c`, an instruction of thread `t`, completes with result `v` in `rd` and next PC `pc`, and changes nothing else. -/
def State.Gives (s : State) (c : Instr) (t : Nat) (rd : Reg) (v : Word64) (pc : Addr) : Prop :=
  ∃ u, exec c s = .next u ∧ s.Computes u t rd v pc

/-- `u` differs from `s` in nothing but thread `t`, the issue counter of its core, and memory. -/
def State.OnlyThreadMem (s u : State) (t : Nat) : Prop :=
  (∀ f : Fld, f.key ≠ (R.SVC.ISSUED.COUNT (t / 16)).key → u.fld f = s.fld f) ∧ (∀ k, k ≠ t → u.thr k = s.thr k) ∧
    u = { s with regs := u.regs, svc := { s.svc with threads := u.svc.threads }, mem := u.mem }

/-- The bytes `l` stand from address `a` on, and every other byte of memory is as it was. -/
def State.Holds (s u : State) (a : Nat) (l : List Byte) : Prop :=
  ∀ x, u.byteAt x = if a ≤ x ∧ x < a + l.length then l.getD (x - a) 0 else s.byteAt x

/-- Command `c` of thread `t` completes: the bytes `l` stand at `a`, `rd` reads `v`, and nothing else changes but the PC, which moves to
`pc`. -/
def State.Puts (s : State) (c : Instr) (t : Nat) (rd : Reg) (v : Word64) (pc : Addr) (a : Nat) (l : List Byte) : Prop :=
  ∃ u, exec c s = .next u ∧ s.Result u t rd v pc ∧ s.Holds u a l ∧ s.OnlyThreadMem u t

/-- Command `c` of thread `t` completes with two results, `v` in `rd` and `w` in `re`, and the PC after it; `u` is the state after. -/
def State.Pair (s : State) (c : Instr) (t : Nat) (rd re : Reg) (v w : Word64) (u : State) : Prop :=
  exec c s = .next u ∧ (u.thr t).st = .ready ∧ (u.thr t).pc = s.nextPc t ∧ u.reg t rd = (if rd.val = 0 then 0 else v) ∧
    u.reg t re = (if re.val = 0 then 0 else w) ∧ (∀ r, r ≠ rd → r ≠ re → u.reg t r = s.reg t r) ∧ (∀ k, k ≠ t → u.thr k = s.thr k) ∧
    u.mem = s.mem

/-- After a chunk of a long instruction of thread `t`: READY, with its PC at `pc`, the listed registers at the listed values and every
other as it was; nothing else changes but memory. -/
def State.LongStep (s u : State) (t : Nat) (pc : Addr) (l : List (Reg × Word64)) : Prop :=
  (u.thr t).st = .ready ∧ (u.thr t).pc = pc ∧ (∀ e ∈ l, u.reg t e.1 = e.2) ∧ (∀ r, r ∉ l.map (·.1) → u.reg t r = s.reg t r) ∧
    s.OnlyThreadMem u t

/-- `u` differs from `s` in nothing but thread `t`, channel `c`, and the issue counter of the thread's core. -/
def State.OnlyChan (s u : State) (t c : Nat) : Prop :=
  (∀ f : Fld, f.key ≠ (R.SVC.ISSUED.COUNT (t / 16)).key → u.fld f = s.fld f) ∧ (∀ k, k ≠ t → u.thr k = s.thr k) ∧
    (∀ n, n ≠ c → u.chan n = s.chan n) ∧
    u = { s with regs := u.regs, svc := { s.svc with threads := u.svc.threads, chans := u.svc.chans } }

/-- After a channel instruction of thread `t` on channel `c` with no result: READY, at the next instruction, its registers as they were,
and nothing changed but the thread, the channel and the issue counter. -/
def State.ChanStep (s u : State) (t c : Nat) : Prop :=
  (u.thr t).st = .ready ∧ (u.thr t).pc = s.nextPc t ∧ (∀ r, u.reg t r = s.reg t r) ∧ s.OnlyChan u t c

/-- Thread `t` blocks on channel `c` with instruction `e`, which has not yet executed (R431, R465): its registers and its PC stand, and
nothing changes but the thread and the order of waiting. -/
def State.WaitsOn (s u : State) (t c : Nat) (e : Elv) : Prop :=
  (u.thr t).st = .waitChannel ∧ (u.thr t).wait = c ∧ (u.thr t).blocked = some e ∧ (u.thr t).pc = (s.thr t).pc ∧
    (∀ r, u.reg t r = s.reg t r) ∧ (∀ k, k ≠ t → u.thr k = s.thr k) ∧
    u = { s with svc := { s.svc with threads := u.svc.threads, seq := s.svc.seq + 1 } }

/-- The thread has trapped on the instruction at its PC with a cause and an address (R435): its registers stand. -/
def State.Trapped (s u : State) (t cause addr : Nat) : Prop :=
  (u.thr t).st = .trapped ∧ (u.thr t).pc = (s.thr t).pc ∧ (u.thr t).trapCause = cause ∧ (u.thr t).faultAddr = addr ∧
    ∀ r, u.reg t r = s.reg t r

/-- After a port instruction of thread `t` with no result: READY, at the next instruction, its registers as they were, and no other
thread and no byte of memory changed. -/
def State.PortStep (s u : State) (t : Nat) : Prop :=
  (u.thr t).st = .ready ∧ (u.thr t).pc = s.nextPc t ∧ (∀ r, u.reg t r = s.reg t r) ∧ (∀ k, k ≠ t → u.thr k = s.thr k) ∧ u.mem = s.mem

/-! ## Commands in general -/

/-- Command `c` completes, with nothing left to carry out, and `P` holds of the state after it. -/
def State.Runs (s : State) (c : Instr) (P : State → Prop) : Prop := ∃ u, exec c s = .next u ∧ P u

/-- Command `c` completes; `P` holds of the state in which its own effect leaves the module, and the next state is that state once what
its faults have decided, a Fold or a restart, has been carried out (R414, R416). -/
def State.RunsTo (s : State) (c : Instr) (P : State → Prop) : Prop := ∃ u, exec c s = .next u.settle ∧ P u

/-- No register field but the listed ones changes. -/
def State.RegsBut (s u : State) (l : List Fld) : Prop := ∀ f : Fld, f.key ∉ l.map Fld.key → u.fld f = s.fld f

/-- Nothing changes but the listed register fields. -/
def State.OnlyRegs (s u : State) (l : List Fld) : Prop := s.RegsBut u l ∧ u = { s with regs := u.regs }

/-- A counter has gone up by `n`; it wraps at its width. -/
def State.Counts (s u : State) (f : Fld) (n : Nat) : Prop := u.fld f = (s.fld f + n) % 2 ^ f.width

/-- Command `c` completes, and with it a built-in service sends frame `f`; `P` holds of the frame and of the state in which it is sent. -/
def State.Sends (s : State) (c : Instr) (P : State → SvcFrame → Prop) : Prop := ∃ w f, exec c s = .next (w.svcSend f).settle ∧ P w f

/-- Command `c` completes, and with it the management endpoint replies to peer `p` under TYPE `typ`; `P` holds of the reply's body and of
the state in which it is sent (R513). -/
def State.Replies (s : State) (c : Instr) (p : NetPeer) (typ : Nat) (P : State → List Byte → Prop) : Prop :=
  ∃ w b, exec c s = .next (w.epReply p typ b).settle ∧ P w b

/-- The debug port takes a request of SEQ `q` as a new one: it answers, no response is late, and the last request had the other SEQ (R569). -/
def State.Fresh (s : State) (q : Bool) : Prop := s.portUp = true ∧ s.dbg.late = none ∧ ∀ e, s.dbg.seq = some e → e.1 ≠ q

/-- The debug port executes request `c` and answers `r` at once, which stands stored with its SEQ (R569); `P` holds of the state its effect
leaves. -/
def State.Answers (s : State) (c : Instr) (q : Bool) (r : Resp) (P : State → Prop) : Prop :=
  ∃ u, exec c s = .next u.settle ∧ u.dbg.out = r ∧ u.dbg.seq = some (q, r) ∧ s.Counts u R.DEBUG.PACKETS.COUNT 1 ∧ P u

/-- A whole multi-word command reaches port `p` of thread `t` at once: no other thread is partly through one, and none waits (R443). -/
def State.PortFree (s : State) (t p : Nat) : Prop := s.portOwned t p = false ∧ s.othersWait t .waitPort p false = false

/-- The completion that a committed command of an update port leaves (R229): STATUS OK, its OP and TAG, the index, and the sequence number. -/
def upWords (h : Word64) (i seq : Nat) (row : List Word64) : List Word64 :=
  BitVec.ofNat 64 (upOp h * 2 ^ 48 + upTag h * 2 ^ 32 + i) :: BitVec.ofNat 64 seq :: row

end Sys2Proof.Machine
end

