-- ==== Sys2Proof/Certificates/Slice0/Obligations.lean ====
section
/-! DEFINITION. The statements for the provers. -/
section
open Sys2Proof Sys2Proof.Machine

/-! ## The service threads' instructions -/

/-- R457: each ALU instruction of a thread that issues completes with the result of its function, which wraps modulo 2^64, and shift
amounts use the low 6 bits of rb (R454); the thread's other registers, the other threads and everything else stay as they are. -/
def Obligations.AluInstructionsComplete : Prop :=
  ∀ (t : Fin 64) (rd ra rb : Reg) (s : State), s.Settled → s.Issues t.val →
    let a := s.reg t ra
    let b := s.reg t rb
    let pc := s.nextPc t
    s.Gives (.add t rd ra rb) t rd (a + b) pc ∧ s.Gives (.sub t rd ra rb) t rd (a - b) pc ∧
    s.Gives (.and t rd ra rb) t rd (a &&& b) pc ∧ s.Gives (.or t rd ra rb) t rd (a ||| b) pc ∧
    s.Gives (.xor t rd ra rb) t rd (a ^^^ b) pc ∧ s.Gives (.sll t rd ra rb) t rd (a <<< (b.toNat % 64)) pc ∧
    s.Gives (.srl t rd ra rb) t rd (a >>> (b.toNat % 64)) pc ∧ s.Gives (.sra t rd ra rb) t rd (a.sshiftRight (b.toNat % 64)) pc ∧
    s.Gives (.slt t rd ra rb) t rd (if a.toInt < b.toInt then 1 else 0) pc ∧
    s.Gives (.sltu t rd ra rb) t rd (if a.toNat < b.toNat then 1 else 0) pc ∧
    s.Gives (.mul t rd ra rb) t rd (BitVec.ofNat 64 (a.toNat * b.toNat)) pc ∧
    s.Gives (.mulhu t rd ra rb) t rd (BitVec.ofNat 64 (a.toNat * b.toNat / 2 ^ 64)) pc ∧
    s.Gives (.min t rd ra rb) t rd (if a.toInt ≤ b.toInt then a else b) pc ∧
    s.Gives (.minu t rd ra rb) t rd (if a.toNat ≤ b.toNat then a else b) pc ∧
    (∃ v : Word64, (∀ k, k < 8 → v.extractLsb' (8 * k) 8 = a.extractLsb' (8 * (7 - k)) 8) ∧ s.Gives (.bswap t rd ra) t rd v pc) ∧
    s.Gives (.popc t rd ra) t rd (BitVec.ofNat 64 (((List.range 64).filter fun i => a.getLsbD i).length)) pc

/-- R456, R458: each immediate, SELF and FENCE completes with its result; FENCE has none, and in a model of accesses in program order
it only goes on to the next instruction. -/
def Obligations.ImmediateInstructionsComplete : Prop :=
  ∀ (t : Fin 64) (rd ra : Reg) (imm : BitVec 16) (n : BitVec 6) (m : BitVec 3) (s : State), s.Settled → s.Issues t.val →
    let a := s.reg t ra
    let i : Word64 := imm.signExtend 64
    let z : Word64 := imm.zeroExtend 64
    let pc := s.nextPc t
    s.Gives (.addi t rd ra imm) t rd (a + i) pc ∧ s.Gives (.andi t rd ra imm) t rd (a &&& z) pc ∧
    s.Gives (.ori t rd ra imm) t rd (a ||| z) pc ∧ s.Gives (.xori t rd ra imm) t rd (a ^^^ z) pc ∧
    s.Gives (.lhi t rd ra imm) t rd ((a &&& 0xFFFFFFFF) ||| (z <<< 32)) pc ∧
    s.Gives (.slti t rd ra imm) t rd (if a.toInt < imm.toInt then 1 else 0) pc ∧
    s.Gives (.shiftiSll t rd ra n) t rd (a <<< n.toNat) pc ∧ s.Gives (.shiftiSrl t rd ra n) t rd (a >>> n.toNat) pc ∧
    s.Gives (.shiftiSra t rd ra n) t rd (a.sshiftRight n.toNat) pc ∧
    s.Gives (.lui t rd imm) t rd (BitVec.ofInt 64 (imm.toInt * 2 ^ 16)) pc ∧
    s.Gives (.self t rd) t rd (BitVec.ofNat 64 ((if t.val % 16 < 4 then 1 else 0) * 256 + t.val)) pc ∧
    s.Gives (.fence t m) t 0 0 pc

/-- R456: a branch goes to PC + 4 x OFF16 when its comparison holds and to the next instruction otherwise; JAL and JALR leave PC + 4
in rd, and JALR goes to ra + IMM16 when that is a multiple of 4 (of 40 bits, as a PC has). -/
def Obligations.BranchesAndJumpsComplete : Prop :=
  ∀ (t : Fin 64) (rd ra rb : Reg) (off imm : BitVec 16) (far : BitVec 21) (s : State), s.Settled → s.Issues t.val →
    let a := s.reg t ra
    let b := s.reg t rb
    let pc := (s.thr t).pc
    let go (c : Prop) [Decidable c] : Addr := if c then pc + BitVec.ofInt 40 (4 * off.toInt) else pc + 4
    let link : Word64 := BitVec.ofNat 64 ((pc + 4).toNat)
    s.Gives (.beq t ra rb off) t 0 0 (go (a = b)) ∧ s.Gives (.bne t ra rb off) t 0 0 (go (a ≠ b)) ∧
    s.Gives (.blt t ra rb off) t 0 0 (go (a.toInt < b.toInt)) ∧ s.Gives (.bge t ra rb off) t 0 0 (go (b.toInt ≤ a.toInt)) ∧
    s.Gives (.bltu t ra rb off) t 0 0 (go (a.toNat < b.toNat)) ∧ s.Gives (.bgeu t ra rb off) t 0 0 (go (b.toNat ≤ a.toNat)) ∧
    s.Gives (.jal t rd far) t rd link (pc + BitVec.ofInt 40 (4 * far.toInt)) ∧
    ((a.toInt + imm.toInt) % 4 = 0 → s.Gives (.jalr t rd ra imm) t rd link (BitVec.ofInt 40 (a.toInt + imm.toInt)))

/-- R456, R459: an aligned load that its checks allow returns the bytes at ra + IMM16, least significant first, sign-extended, or
zero-extended where it is marked U; an aligned store puts the low bytes of rs there, and changes no other byte of memory. -/
def Obligations.LoadsAndStoresComplete : Prop :=
  ∀ (t : Fin 64) (rd ra : Reg) (imm : BitVec 16) (s : State), s.Settled → s.Issues t.val → s.NoWatch →
    let a := (s.reg t ra + imm.signExtend 64).toNat
    let x (n : Nat) : Nat := ofLe (s.bytesAt a n)
    let v := (s.reg t rd).toNat
    let pc := s.nextPc t
    (s.Reaches t a 1 .load true →
      s.Gives (.lb t rd ra imm) t rd ((BitVec.ofNat 8 (x 1)).signExtend 64) pc ∧ s.Gives (.lbu t rd ra imm) t rd (BitVec.ofNat 64 (x 1)) pc) ∧
    (s.Reaches t a 2 .load true →
      s.Gives (.lh t rd ra imm) t rd ((BitVec.ofNat 16 (x 2)).signExtend 64) pc ∧ s.Gives (.lhu t rd ra imm) t rd (BitVec.ofNat 64 (x 2)) pc) ∧
    (s.Reaches t a 4 .load true →
      s.Gives (.lw t rd ra imm) t rd ((BitVec.ofNat 32 (x 4)).signExtend 64) pc ∧ s.Gives (.lwu t rd ra imm) t rd (BitVec.ofNat 64 (x 4)) pc) ∧
    (s.Reaches t a 8 .load true → s.Gives (.ld t rd ra imm) t rd (BitVec.ofNat 64 (x 8)) pc) ∧
    (s.Reaches t a 1 .store true → s.Puts (.sb t rd ra imm) t 0 0 pc a (leBytes 1 v)) ∧
    (s.Reaches t a 2 .store true → s.Puts (.sh t rd ra imm) t 0 0 pc a (leBytes 2 v)) ∧
    (s.Reaches t a 4 .store true → s.Puts (.sw t rd ra imm) t 0 0 pc a (leBytes 4 v)) ∧
    (s.Reaches t a 8 .store true → s.Puts (.sd t rd ra imm) t 0 0 pc a (leBytes 8 v))

/-- R460: an atomic returns the old value in rd, zero-extended, and leaves in memory what its row says; of 32 bits where `w` is set, else
of 64. -/
def Obligations.AtomicsComplete : Prop :=
  ∀ (t : Fin 64) (w : Bool) (rd ra rb : Reg) (s : State), s.Settled → s.Issues t.val → s.NoWatch →
    let n := if w then 4 else 8
    let a := (s.reg t ra).toNat
    s.Reaches t a n .atomic true →
    let old := ofLe (s.bytesAt a n)
    let b := (s.reg t rb).toNat % 2 ^ (8 * n)
    let d := (s.reg t rd).toNat % 2 ^ (8 * n)
    let v := BitVec.ofNat 64 old
    let pc := s.nextPc t
    s.Puts (.aadd t w rd ra rb) t rd v pc a (leBytes n (old + b)) ∧ s.Puts (.aand t w rd ra rb) t rd v pc a (leBytes n (old &&& b)) ∧
    s.Puts (.aor t w rd ra rb) t rd v pc a (leBytes n (old ||| b)) ∧ s.Puts (.axor t w rd ra rb) t rd v pc a (leBytes n (old ^^^ b)) ∧
    s.Puts (.aswap t w rd ra rb) t rd v pc a (leBytes n b) ∧
    s.Puts (.acas t w rd ra rb) t rd v pc a (leBytes n (if old = d then b else old))

/-- R462: one chunk of each long instruction.  A chunk of BCOPY or BFILL ends at a 64-byte boundary of the destination, one of CRC32C or
HASH at one of the data; BCOPY reads all its bytes before it writes any; TSEARCH looks at up to four entries and stops at the first
whose key is rb.  The PC stays on the instruction until the count has reached 0, or the search has hit. -/
def Obligations.LongInstructionChunks : Prop :=
  ∀ (t : Fin 64) (ra rb rc rd : Reg) (s : State), s.Settled → s.Issues t.val → s.NoWatch →
    let x := s.reg t ra
    let y := s.reg t rb
    let n := s.reg t rc
    let k := min n.toNat (64 - x.toNat % 64)
    let kk : Word64 := BitVec.ofNat 64 k
    let pc (m : Nat) : Addr := if n.toNat = m then s.nextPc t else (s.thr t).pc
    n ≠ 0 →
    (longOk .bcopy ra rb rc rd = true → s.Reaches t y.toNat k .load false → s.Reaches t x.toNat k .store false →
      ∃ u, exec (.bcopy t ra rb rc rd) s = .next u ∧ s.LongStep u t (pc k) [(ra, x + kk), (rb, y + kk), (rc, n - kk)] ∧
        s.Holds u x.toNat (s.bytesAt y.toNat k)) ∧
    (longOk .bfill ra rb rc rd = true → s.Reaches t x.toNat k .store false →
      ∃ u, exec (.bfill t ra rb rc rd) s = .next u ∧ s.LongStep u t (pc k) [(ra, x + kk), (rc, n - kk)] ∧
        s.Holds u x.toNat ((List.range k).map fun i => y.extractLsb' (8 * ((x.toNat + i) % 8)) 8)) ∧
    (longOk .crc32c ra rb rc rd = true → s.Reaches t x.toNat k .load false →
      (∃ u, exec (.crc32c t ra rb rc rd) s = .next u ∧ u.mem = s.mem ∧ s.LongStep u t (pc k) [(ra, x + kk), (rc, n - kk),
        (rd, BitVec.ofNat 64 (crcBytes 0x82F63B78 ((s.reg t rd).toNat % 2 ^ 32) (s.bytesAt x.toNat k)))]) ∧
      ∃ u, exec (.hash t ra rb rc rd) s = .next u ∧ u.mem = s.mem ∧ s.LongStep u t (pc k) [(ra, x + kk), (rc, n - kk),
        (rd, BitVec.ofNat 64 (crcBytes 0xEDB88320 ((s.reg t rd).toNat % 2 ^ 32) (s.bytesAt x.toNat k)))]) ∧
    (longOk .tsearch ra rb rc rd = true → x.toNat % 8 = 0 → s.Reaches t x.toNat (16 * min n.toNat 4) .load false →
      let m := min n.toNat 4
      let key (i : Nat) : Nat := ofLe (s.bytesAt (x.toNat + 16 * i) 8)
      (∀ i, i < m → key i = y.toNat → (∀ j, j < i → key j ≠ y.toNat) →
        ∃ u, exec (.tsearch t ra rb rc rd) s = .next u ∧ u.mem = s.mem ∧ s.LongStep u t (s.nextPc t) [(ra, x + BitVec.ofNat 64 (16 * i)),
          (rc, n - BitVec.ofNat 64 i), (rd, BitVec.ofNat 64 (ofLe (s.bytesAt (x.toNat + 16 * i + 8) 8)))]) ∧
      ((∀ j, j < m → key j ≠ y.toNat) →
        ∃ u, exec (.tsearch t ra rb rc rd) s = .next u ∧ u.mem = s.mem ∧ s.LongStep u t (pc m) [(ra, x + BitVec.ofNat 64 (16 * m)),
          (rc, n - BitVec.ofNat 64 m)]))

/-- R437-R439, R455, R492: CHOUT begins or goes on with the thread's message, waits for a free channel or for room, and traps at the 17th
word, which abandons the message; CHEND completes it, or releases the message being read, or has no effect; CHIN returns the next word with
the number of words still unread, and blocks while no complete message is its own to read.  Where rd and re are one register the spec does
not say which result stands: it is one of the two.  A number above 511, or below 32 in owner mode, traps.  Nothing else changes. -/
def Obligations.ChannelInstructionsComplete : Prop :=
  ∀ (t : Fin 64) (rd re : Reg) (n : CNum) (s : State), s.Settled → s.Issues t.val →
    let c := s.cnum t n
    let ch := s.chan c
    let pc := (s.thr t).pc
    let src := if t.val % 16 < 4 then 241 else 242
    let traps (cause : Nat) : Prop := s.writing t = [] → ∀ i ∈ [Instr.chin t rd re n, .chout t rd n, .chend t n],
      s.RunsTo i fun u => s.Trapped u t cause pc.toNat ∧ u.isSticky src = true
    (511 < c → traps 0x05) ∧ (c < 32 → vendorThr t = false → traps 0x02) ∧
    (c ≤ 511 → (32 ≤ c ∨ vendorThr t = true) →
      (ch.writes t = true → ch.words < 16 → s.Runs (.chout t rd n) fun u => s.ChanStep u t c ∧
        u.chan c = { ch with part := ch.part ++ [s.reg t rd] }) ∧
      (ch.owner = none → ch.words < 16 → s.othersWait t .waitChannel c false = false → s.Runs (.chout t rd n) fun u =>
        s.ChanStep u t c ∧ u.chan c = { ch with owner := some (t.val, pc), part := [s.reg t rd] }) ∧
      (ch.writes t = true → ch.part.length < 16 → 16 ≤ ch.words → s.Runs (.chout t rd n) fun u => s.WaitsOn u t c (.chout rd n)) ∧
      (ch.writes t = false → ch.owner ≠ none ∨ 16 ≤ ch.words ∨ s.othersWait t .waitChannel c false = true →
        s.Runs (.chout t rd n) fun u => s.WaitsOn u t c (.chout rd n)) ∧
      (∀ start, ch.owner = some (t.val, start) → 16 ≤ ch.part.length → s.writing t = [c] → (c ∈ s.reading t → ch.reads t = true) →
        s.RunsTo (.chout t rd n) fun u =>
        (u.thr t).st = .trapped ∧ (u.thr t).trapCause = 0x06 ∧ (u.thr t).faultAddr = pc.toNat ∧ (u.thr t).pc = start ∧
        u.chan c = { ch with owner := none, part := [], reader := if ch.reads t = true then none else ch.reader } ∧ u.isSticky src = true) ∧
      (ch.writes t = true → s.Runs (.chend t n) fun u => s.ChanStep u t c ∧
        u.chan c = { ch with owner := none, part := [], msgs := ch.msgs ++ [{ words := ch.part, hw := false }] }) ∧
      (ch.writes t = false → ch.reads t = true → s.Runs (.chend t n) fun u => s.ChanStep u t c ∧ u.chan c = { ch with reader := none }) ∧
      (ch.writes t = false → ch.reads t = false → s.Runs (.chend t n) fun u => s.ChanStep u t c ∧ u.chan c = ch) ∧
      (∀ w ws ms, ch.reader = some (t.val, w :: ws) ∧ ms = ch.msgs ∨
          ch.reader = none ∧ s.othersWait t .waitChannel c true = false ∧ ∃ m, ch.msgs = m :: ms ∧ m.words = w :: ws →
        let left : Word64 := BitVec.ofNat 64 ws.length
        let rest : Chan := { ch with msgs := ms, reader := if ws = [] then none else some (t.val, ws) }
        (rd ≠ re ∨ rd.val = 0 → ∃ u, s.Pair (.chin t rd re n) t rd re w left u ∧ s.OnlyChan u t c ∧ u.chan c = rest) ∧
        (rd = re → rd.val ≠ 0 → s.Runs (.chin t rd re n) fun u => (u.thr t).st = .ready ∧ (u.thr t).pc = s.nextPc t ∧
          (u.reg t rd = w ∨ u.reg t rd = left) ∧ (∀ r, r ≠ rd → u.reg t r = s.reg t r) ∧ u.chan c = rest ∧
          s.OnlyChan { u with free := s.free } t c)) ∧
      ((∃ k l, ch.reader = some (k, l) ∧ k ≠ t.val) ∨ ch.reader = none ∧ (ch.msgs = [] ∨ s.othersWait t .waitChannel c true = true) →
        s.Runs (.chin t rd re n) fun u => s.WaitsOn u t c (.chin rd re n)))

/-- R435, R447, R448, R455, R458: TRAP and a reserved word trap the thread, with F241 for a vendor thread and F242 for an owner thread (the
thread owns no partly written message, whose abandon would move its PC, R442); AWAIT takes the free event port of a core whose line is
asserted, and blocks where the line is not; SLEEP of 0 us completes at once, and a longer one blocks on the thread's private timer. -/
def Obligations.TrapsAndWaitsComplete : Prop :=
  ∀ (t : Fin 64) (imm : BitVec 12) (w : Word32) (ra : Reg) (s : State), s.Issues t.val →
    let src := if t.val % 16 < 4 then 241 else 242
    let c := t.val / 16
    let us := (s.reg t ra).toNat % 2 ^ 32
    (s.writing t = [] →
      (s.RunsTo (.trap t imm) fun u => s.Trapped u t 0x01 imm.toNat ∧ u.isSticky src = true) ∧
      (∀ x, Elv.decode w = .reserved x → s.RunsTo (.reservedInstruction t w) fun u =>
        s.Trapped u t 0x05 (s.thr t).pc.toNat ∧ u.isSticky src = true)) ∧
    (s.Settled →
      (s.holder c = none → s.line c = true → s.othersWait t .waitEvent 104 true = false → s.othersWait t .waitEvent 104 false = false →
        s.Runs (.await t) fun u => u.holder c = some t.val ∧ (u.thr t).st = .ready ∧ (u.thr t).pc = s.nextPc t) ∧
      (s.holder c = none → s.line c = false → s.Runs (.await t) fun u =>
        u.holder c = none ∧ (u.thr t).st = .waitEvent ∧ (u.thr t).pc = (s.thr t).pc) ∧
      (us = 0 → s.Gives (.sleep t ra) t 0 0 (s.nextPc t)) ∧
      (us ≠ 0 → s.Runs (.sleep t ra) fun u => (u.thr t).st = .waitPort ∧ (u.thr t).pc = (s.thr t).pc ∧
        u.dueAt (.sleep t) = some (s.time.elapsed + elapsedUs us)))

/-- R443-R447, R229, R539, R540: the one-word ports of a thread: timers are armed, cancelled and read; buffers are taken, the result
read, and given; exception descriptors and completions are read, first word first, with the number of words still unread. -/
def Obligations.PortInstructionsComplete : Prop :=
  ∀ (t : Fin 64) (rd re : Reg) (n : CNum) (s : State), s.Settled → s.Issues t.val →
    let p := s.cnum t n
    let w := s.reg t rd
    let tm (u : State) (i : Nat) : ETimer := u.svc.timers.get ETimer.init i
    let i := p - 32
    (32 ≤ p → p < 96 → s.timerOk t i = true →
      (w.getLsbD 63 = false → w.toNat % 2 ^ 32 ≠ 0 → s.Runs (.timerArm t rd n) fun u => s.PortStep u t ∧
        tm u i = { armed := true, thread := t.val, periodic := w.getLsbD 62, event := w.getLsbD 61, interval := w.toNat % 2 ^ 32, count := 0 } ∧
        u.dueAt (.etimer i) = some (s.time.elapsed + elapsedUs (w.toNat % 2 ^ 32)) ∧ ∀ j, j ≠ i → tm u j = tm s j) ∧
      (w.getLsbD 63 = true → s.Runs (.timerCancel t rd n) fun u => s.PortStep u t ∧ tm u i = { tm s i with armed := false } ∧
        u.dueAt (.etimer i) = none ∧ ∀ j, j ≠ i → tm u j = tm s j) ∧
      ((tm s i).count ≠ 0 → (s.thr t).pin = none → rd ≠ re → s.othersWait t .waitPort p true = false →
        ∃ u, s.Pair (.timerPin t rd re n) t rd re (BitVec.ofNat 64 (tm s i).count) 0 u ∧ tm u i = { tm s i with count := 0 })) ∧
    (p = 16 → (s.thr t).take = none → (s.thr t).takeWaits = false → bitsOf w.toNat 24 32 = 0 → bitsOf w.toNat 59 3 = 0 →
      ∀ k b, 1 ≤ k → k ≤ 6 → (w.getLsbD 62 = true → bitsOf w.toNat 56 3 = k) →
      (w.getLsbD 62 = false → w.toNat % 2 ^ 24 ≠ 0 ∧ w.toNat % 2 ^ 24 ≤ poolSize k ∧ ∀ j, j < k → poolSize j < w.toNat % 2 ^ 24) →
      s.unmet k < s.freeIn k → b < s.poolCount k → s.holderOf k b = none → (∀ j, j < b → s.holderOf k j ≠ none) →
      s.Runs (.poolTake t rd n) fun u => (u.thr t).st = .ready ∧ (u.thr t).pc = s.nextPc t ∧ (∀ r, u.reg t r = s.reg t r) ∧ u.mem = s.mem ∧
        u.holderOf k b = some (poolOwner t) ∧ (u.thr t).take = some (BitVec.ofNat 64 (s.bufAddr k b * 2 ^ 24 + k * 2 ^ 21)) ∧
        ∀ k' b', bufKey k' b' ≠ bufKey k b → u.holderOf k' b' = s.holderOf k' b') ∧
    (p = 16 → rd ≠ re → (s.thr t).pin = none → ∀ x, (s.thr t).take = some x →
      ∃ u, s.Pair (.poolTakeResult t rd re n) t rd re x 0 u ∧ (u.thr t).take = none) ∧
    (p = 17 → s.pools.waiting = [] → ∀ k b o, s.bufStart (w.toNat / 2 ^ 24) = some (k, b) → s.holderOf k b = some o →
      (vendorThr t = true ∨ o = poolOwner t ∨ o = 1) →
      s.Runs (.poolGive t rd n) fun u => s.PortStep u t ∧ u.holderOf k b = none ∧
        ∀ k' b', bufKey k' b' ≠ bufKey k b → u.holderOf k' b' = s.holderOf k' b') ∧
    (p < 16 → (s.thr t).pin = none → rd ≠ re → s.othersWait t .waitPort p true = false → ∀ x xs rest, s.descs p = (x :: xs) :: rest →
      ∃ u, s.Pair (.exceptionPin t rd re n) t rd re x (BitVec.ofNat 64 xs.length) u ∧ u.descs p = rest ∧
        (u.thr t).pin = (if xs = [] then none else some (p, xs)) ∧
        ∀ k b, s.bufStart (x.toNat / 2 ^ 24) = some (k, b) → u.holderOf k b = some (poolOwner t)) ∧
    (96 ≤ p → p < 104 → s.uportOk t (p - 96) = true → (s.thr t).pin = none → rd ≠ re → s.othersWait t .waitPort p true = false →
      (s.uport (p - 96)).cmds = [] → ∀ x xs k rest, (s.uport (p - 96)).comps = { words := x :: xs, ready := true, commit := k } :: rest →
      ∃ u, s.Pair (.uportCompletionPin t rd re n) t rd re x (BitVec.ofNat 64 xs.length) u ∧ (u.uport (p - 96)).comps = rest ∧
        (u.thr t).pin = (if xs = [] then none else some (p, xs)))

/-- R446: a send request that is malformed traps with cause 0x08; a well-formed one is accepted whole, and counts once: its copy joins
the egress queue it names and counts in INJECTED where admission passes, else it counts in INJECT_REFUSED, as always in Fold.  Either way
the buffer is given back where FREE asks so (no take waits for it).  REMOTE takes the route of its seat.  The frame before admission is
the one that `State.inject` builds, in `v`. -/
def Obligations.SendRequestCompletes : Prop :=
  ∀ (t : Fin 64) (w0 w1 w2 : Word64) (s : State), s.Settled → s.Issues t.val → s.PortFree t 105 →
    let cmd := Instr.sendRequest t w0 w1 w2
    let a := w0.toNat / 2 ^ 24
    let n := bitsOf w0.toNat 10 14
    let q := bitsOf w1.toNat 28 4
    let back (u : State) : Prop := w0.getLsbD 9 = true → ∀ k b, s.bufStart a = some (k, b) → u.holderOf k b = none
    let y := s.usedFree.newFrame { s.sentFrame q with len := some (n + 4) }
    let v := y.1.append y.2 (s.bytesAt a n)
    let injected (u : State) : Prop := s.Counts u R.SVC.INJECTED.COUNT 1 ∧ u.fld R.SVC.INJECT_REFUSED.COUNT = s.fld R.SVC.INJECT_REFUSED.COUNT
    let refused (u : State) : Prop := s.Counts u R.SVC.INJECT_REFUSED.COUNT 1 ∧ u.fld R.SVC.INJECTED.COUNT = s.fld R.SVC.INJECTED.COUNT
    (s.sendBad t w0 w1 = true → s.writing t = [] → s.RunsTo cmd fun u => s.Trapped u t 0x08 (s.thr t).pc.toNat) ∧
    (s.sendBad t w0 w1 = false → s.CleanAt a n → (w0.getLsbD 9 = true → s.pools.waiting = []) →
      (s.RunsTo cmd fun u => s.PortStep u t ∧ back u ∧ (injected u ∨ refused u)) ∧
      (s.on R.FAULT.STATE.FOLD = true → s.RunsTo cmd fun u => s.PortStep u t ∧ back u ∧ refused u ∧ u.buf = s.buf ∧ u.tm = s.tm ∧
        u.pipe = s.pipe) ∧
      ∀ f c, s.on R.FAULT.STATE.FOLD = false → v.frame y.2 = some f → f.crcBad = false → v.sentCopy y.2 f w0 w1 = some c →
        (w0.getLsbD 6 = false → c.port = bitsOf w1.toNat 32 6) ∧ c.q = q ∧
        (v.portTakes c.port c.uncontrolled = true → v.admits f f.cells.length = true → (v.admitCopy c.port q f.cells.length 0).isSome = true →
          s.RunsTo cmd fun u => s.PortStep u t ∧ back u ∧ injected u ∧ u.queue c.port q = s.queue c.port q ++ [{ c with since := s.mono }]) ∧
        (v.portTakes c.port c.uncontrolled = false → s.RunsTo cmd fun u => s.PortStep u t ∧ back u ∧ refused u ∧ u.tm.queues = s.tm.queues))

/-- R228-R232, R625: a command of an update port that meets its checks is carried out, and leaves its completion, with STATUS OK, its OP
and TAG, the index and (for a change) the new sequence number, behind those that are unread; no other row changes. -/
def Obligations.UportCommandsComplete : Prop :=
  ∀ (t : Fin 64) (u : Fin 8) (h : Word64) (d : List Word64) (s : State), s.Settled → s.Issues t.val → s.PortFree t (96 + u.val) →
    s.uportOk t u = true → (s.uport u).cmds = [] → (s.uport u).comps.length < 32 →
    let T := upTable h
    let i := upIndex h
    let r := cleanRow T (wordsToRow d)
    let left (v : State) (l : List Word64) : Prop :=
      s.PortStep v t ∧ v.uport u = { cmds := [], comps := (s.uport u).comps ++
        [{ words := l, ready := false, commit := if v.tabs.nWrites = s.tabs.nWrites then 0 else v.tabs.nWrites }] }
    let seq (v : State) : Nat := v.fld R.TABLES.SEQ_LO.COUNT
    let other (v : State) (j : Nat) : Prop := ∀ T' i', i' < 2 ^ 32 → (T' ≠ T ∨ i' ≠ j) → v.row T' i' = s.row T' i'
    (upOp h = 5 → d = [] → ∀ b m, s.tableShape T = some (b, m) → i < m → s.rowOff T i = false →
      s.Runs (.uportRead t u [h]) fun v => left v (upWords h i 0 (rowToWords (b / 8) (s.readRow T i))) ∧ v.tabs.rows = s.tabs.rows) ∧
    (T ∈ [0x10, 0x11, 0x12, 0x13, 0x20, 0x21, 0x30, 0x32] → s.upCheck T i = 0 →
      (upOp h = 1 → d.length = rowBytes T / 8 → rowOk T i r = true →
        s.Runs (.uportWrite t u (h :: d)) fun v => left v (upWords h i (seq v) []) ∧ s.Counts v R.TABLES.SEQ_LO.COUNT 1 ∧
          v.row T i = r ∧ other v i) ∧
      (upOp h = 2 → s.Runs (.uportClear t u [h]) fun v => left v (upWords h i (seq v) []) ∧ s.Counts v R.TABLES.SEQ_LO.COUNT 1 ∧
          v.row T i = 0 ∧ other v i)) ∧
    (T = 1 → s.macOn = true → d.length = 2 → ∀ j,
      (upOp h = 3 → bitOf r 127 = true → rowOk 1 0 r = true → s.macFind (bitsOf r 112 12) (bitsOf r 64 48) = none →
        s.macFree (macSet (bitsOf r 112 12) (bitsOf r 64 48)) = some j →
        s.Runs (.uportInsert t u (h :: d)) fun v => left v (upWords h j (seq v) []) ∧ s.Counts v R.TABLES.SEQ_LO.COUNT 1 ∧
          v.row 1 j = r ∧ other v j) ∧
      (upOp h = 4 → s.macFind (bitsOf (wordsToRow d) 112 12) (bitsOf (wordsToRow d) 64 48) = some j →
        s.Runs (.uportDelete t u (h :: d)) fun v => left v (upWords h j (seq v) []) ∧ s.Counts v R.TABLES.SEQ_LO.COUNT 1 ∧
          v.row 1 j = 0 ∧ other v j)) ∧
    (T = 0x10 → i < 4 → s.ruleSize i ≠ 0 → s.bankOff i = false →
      (upOp h = 6 → s.Runs (.uportSwap t u [h]) fun v => left v (upWords h i (seq v) []) ∧ s.Counts v R.TABLES.SEQ_LO.COUNT 1 ∧
          v.fld R.TABLES.RULESET_ACTIVE.BANK = i ∧ (s.fld R.TABLES.RULESET_ACTIVE.BANK ≠ i → v.ruleBank i = 1) ∧ v.isPend 121 = true ∧
          v.tabs.rows = s.tabs.rows) ∧
      (upOp h = 8 → s.ruleBank i ≠ 2 → s.Runs (.uportBankClear t u [h]) fun v => left v (upWords h i (seq v) []) ∧
          s.Counts v R.TABLES.SEQ_LO.COUNT 1 ∧ ∀ T' i', i' < 2 ^ 32 → v.row T' i' = if T' = 0x10 + i then 0 else s.row T' i')) ∧
    (T = 1 → s.macOn = true → upOp h = 7 → ∀ w, d = [w] →
      let hit (e : Nat) : Bool := bitOf e 127 && !bitOf e 126 && (!w.getLsbD 47 || decide (bitsOf e 112 12 = bitsOf w.toNat 32 12)) &&
        (!w.getLsbD 46 || decide (bitsOf e 48 6 = bitsOf w.toNat 16 6)) && (!w.getLsbD 45 || decide (bitsOf e 54 10 = bitsOf w.toNat 22 10))
      s.Runs (.uportFlush t u (h :: d)) fun v => left v (upWords h i (seq v) []) ∧ s.Counts v R.TABLES.SEQ_LO.COUNT 1 ∧
        ∀ j, j < 2 ^ 32 → (hit (s.row 1 j) = true → v.row 1 j = 0) ∧
          ((∀ e ∈ s.rowsOf 1, e.1 = j → hit e.2 = false) → v.row 1 j = s.row 1 j))

/-! ## Event sources -/

/-- R480, R481, R448: a claim returns the lowest qualifying source, which loses its pending bit and comes into service; DONE of the source
in service ends it, with the event port of its holder, and any other value sets BAD_DONE. -/
def Obligations.ClaimAndDone : Prop :=
  ∀ (t : Fin 64) (c : Fin 4) (n : Nat) (v : BitVec 16) (s : State), s.Settled →
    let may (m : Nat) : Prop := s.qualifies c m = true ∧ (vendorThr t = true ∨ lockedSource m = false)
    (s.serving c = none → n < 256 → may n → (∀ m, m < n → ¬ may m) → s.Runs (.claimRead (.thread t) c) fun u =>
      u.serving c = some n ∧ u.isPend n = false ∧ (∀ m, m < 256 → m ≠ n → u.isPend m = s.isPend m) ∧
      u.on (R.INTC.LINE_c.IN_SERVICE c) = true ∧ u.fld (R.INTC.LINE_c.SOURCE c) = n ∧ s.Counts u (R.INTC.CLAIMS_c.COUNT c) 1 ∧
      s.RegsBut u [R.INTC.PEND_SET_k.PEND (n / 32), R.INTC.LINE_c.IN_SERVICE c, R.INTC.LINE_c.SOURCE c, R.INTC.CLAIMS_c.COUNT c] ∧
      u = { s with regs := u.regs, svc := { s.svc with service := u.svc.service } }) ∧
    (s.serving c = some v.toNat → s.Runs (.doneWrite (.thread t) c v) fun u =>
      u.serving c = none ∧ u.on (R.INTC.LINE_c.IN_SERVICE c) = false ∧
      u.holder c = (if s.holder c = some t.val then none else s.holder c) ∧
      u = { s with regs := u.regs, svc := { s.svc with service := u.svc.service, holder := u.svc.holder } }) ∧
    (s.serving c ≠ some v.toNat → s.Runs (.doneWrite (.thread t) c v) fun u =>
      u.bit R.INTC.STICKY.BAD_DONE c = true ∧ s.OnlyRegs u [R.INTC.STICKY.BAD_DONE])

/-- R477, R478, R484: the named sources are raised, cleared, masked, unmasked or routed; in owner mode only the software sources are
raised or cleared and locked sources keep their masks and routes; no other source changes. -/
def Obligations.EventBitsComplete : Prop :=
  ∀ (who : Who) (k : Fin 8) (j : Fin 16) (v : BitVec 32) (s : State), s.Settled →
    let named (n : Nat) : Prop := n / 32 = k.val ∧ v.getLsbD (n % 32) = true
    let soft (n : Nat) : Prop := who.vendor = true ∨ 216 ≤ n
    let own (n : Nat) : Prop := who.vendor = true ∨ lockedSource n = false
    (s.Runs (.pendSet who k v) fun u => u = { s with regs := u.regs } ∧
      ∀ n, n < 256 → u.isPend n = (s.isPend n || decide (named n ∧ soft n)) ∧ u.isMasked n = s.isMasked n ∧ u.coreOf n = s.coreOf n) ∧
    (s.Runs (.pendClr who k v) fun u => u = { s with regs := u.regs } ∧
      ∀ n, n < 256 → u.isPend n = (s.isPend n && !decide (named n ∧ soft n)) ∧ u.isMasked n = s.isMasked n ∧ u.coreOf n = s.coreOf n) ∧
    (s.Runs (.maskSet who k v) fun u => u = { s with regs := u.regs } ∧
      ∀ n, n < 256 → u.isMasked n = (s.isMasked n || decide (named n ∧ own n)) ∧ u.isPend n = s.isPend n ∧ u.coreOf n = s.coreOf n) ∧
    (s.Runs (.maskClr who k v) fun u => u = { s with regs := u.regs } ∧
      ∀ n, n < 256 → u.isMasked n = (s.isMasked n && !decide (named n ∧ own n)) ∧ u.isPend n = s.isPend n ∧ u.coreOf n = s.coreOf n) ∧
    (s.Runs (.routeWrite who j v) fun u => u = { s with regs := u.regs } ∧
      ∀ n, n < 256 → u.coreOf n = (if n / 16 = j.val ∧ own n then v.toNat / 2 ^ (2 * (n % 16)) % 4 else s.coreOf n) ∧
        u.isPend n = s.isPend n ∧ u.isMasked n = s.isMasked n)

/-! ## Threads and cores -/

/-- R431, R435, R447, R452, R485, R486: CMD 1 restarts an assigned thread at its ENTRY with its registers cleared, CMD 2 stops it where
it stands; a wait whose time or message has come is over; a due timer counts and raises its event; a core sleeps and is woken. -/
def Obligations.ThreadAndCoreCommandsComplete : Prop :=
  ∀ (who : Who) (t x : Fin 64) (c : Fin 4) (s : State), s.Settled →
    (s.powered (154 + t.val / 16) = true → (vendorThr t = true → who.vendor = true) → s.groupUp t = true → s.assigned t = true →
      (s.Runs (.threadRestartCmd who t) fun u =>
        (u.thr t).st = .ready ∧ (u.thr t).pc = (s.thr t).entry ∧ (u.thr t).entry = (s.thr t).entry ∧ ∀ r, u.reg t r = 0) ∧
      (s.Runs (.threadStopCmd who t) fun u =>
        (u.thr t).st = .stopped ∧ (u.thr t).pc = (s.thr t).pc ∧ (∀ r, u.reg t r = s.reg t r) ∧ (∀ k, k ≠ t.val → u.thr k = s.thr k) ∧
          u.mem = s.mem)) ∧
    (s.svcRuns = true → (s.thr t).waits = true → (s.thr t).stepping = false → s.domOn (154 + t.val / 16) = true →
      (∀ r, (s.thr t).blocked = some (.sleep r) → s.isElapsed (.sleep t) = true → s.Runs (.threadRelease t) fun u =>
        (u.thr t).st = .ready ∧ (u.thr t).pc = s.nextPc t ∧ (u.thr t).blocked = none ∧ u.dueAt (.sleep t) = none ∧
          (∀ r, u.reg t r = s.reg t r) ∧ (∀ k, k ≠ t.val → u.thr k = s.thr k) ∧ u.mem = s.mem) ∧
      (∀ rd re n m ms w ws, (s.thr t).blocked = some (.chin rd re n) → rd ≠ re → s.cnum t n ≤ 511 →
        (32 ≤ s.cnum t n ∨ vendorThr t = true) → s.othersWait t .waitChannel (s.cnum t n) true = false →
        (s.chan (s.cnum t n)).reader = none → (s.chan (s.cnum t n)).msgs = m :: ms → m.words = w :: ws →
        s.Runs (.threadRelease t) fun u => (u.thr t).st = .ready ∧ (u.thr t).pc = s.nextPc t ∧ (u.thr t).blocked = none ∧
          u.reg t rd = (if rd.val = 0 then 0 else w) ∧ u.reg t re = (if re.val = 0 then 0 else BitVec.ofNat 64 ws.length) ∧
          (u.chan (s.cnum t n)).msgs = ms ∧ (∀ k, k ≠ t.val → u.thr k = s.thr k) ∧ u.mem = s.mem)) ∧
    (let tm (u : State) : ETimer := u.svc.timers.get ETimer.init x
     ∀ d, s.dueAt (.etimer x) = some d → d ≤ s.time.elapsed → (tm s).armed = true → s.Runs (.timerExpiry x) fun u =>
      tm u = { tm s with count := (tm s).count + 1, armed := (tm s).periodic } ∧
      u.dueAt (.etimer x) = (if (tm s).periodic then some (d + elapsedUs (tm s).interval) else none) ∧
      ((tm s).event = true → u.isPend (32 + x) = true) ∧ u = { s with regs := u.regs, due := u.due, svc := u.svc } ∧ u.svc.threads = s.svc.threads) ∧
    (s.maySleep c = true → s.Runs (.coreSleep c) fun u => u.asleep c = true ∧ s.OnlyRegs u [R.INTC.LINE_c.SLEEPING c]) ∧
    (s.asleep c = true → ∀ n, n < 256 → s.qualifies c n = true → ∀ k : Fin 7, k.val = (if n < 16 then 2 else 1) → (n < 16 ∨ s.inWake n = true) →
      s.Runs (.coreWake c k) fun u => u.asleep c = false ∧ u.fld (R.INTC.LINE_c.WAKE_CAUSE c) = k.val ∧ s.Counts u (R.INTC.WAKES_c.COUNT c) 1 ∧
        s.OnlyRegs u [R.INTC.LINE_c.SLEEPING c, R.INTC.LINE_c.WAKE_CAUSE c, R.INTC.WAKES_c.COUNT c])

/-- R49, R432, R449-R451: the vendor threads start after commit, the owner threads once every vendor thread has waited; a restart stops
every thread, empties the timers and starts the vendor threads again; a deadlock is counted and raised. -/
def Obligations.ServiceComplexStarts : Prop :=
  ∀ (who : Who) (ok : Bool) (s : State), s.Settled →
    let vendors (u : State) : Prop := ∀ t, t < 64 → s.vendorUsed t = true → s.domOn (154 + t / 16) = true →
      (u.thr t).st = .ready ∧ (u.thr t).pc = Config.vendorEntry t ∧ ∀ r, u.reg t r = 0
    (s.on R.DEAL.STATUS.FWD = true → s.svc.vendorUp = false → s.on R.FAULT.STATE.SVC_HELD = false →
      s.Runs .vendorThreadsStart fun u => vendors u ∧ u.svc.vendorUp = true ∧ u.on R.DEAL.STATUS.SVC = true ∧
        (∀ t, t < 64 → s.vendorUsed t = false → u.thr t = s.thr t)) ∧
    (s.svcRuns = true → s.svc.ownerUp = false → s.svc.restarting = 0 → s.vendorsWaited = true →
      s.Runs .ownerThreadsStart fun u => u.svc.ownerUp = true ∧
        (∀ t, t < 64 → s.ownerThr t = true → vendorThr t = false → s.domOn (154 + t / 16) = true →
          (u.thr t).st = .ready ∧ (u.thr t).pc = (s.thr t).entry ∧ ∀ r, u.reg t r = 0) ∧
        ∀ t, t < 64 → vendorThr t = true → u.thr t = s.thr t) ∧
    (who.vendor = true → s.powered 154 = true → s.svcRuns = true → s.svc.restarting = 0 →
      s.RunsTo (.serviceRestart who) fun u => u.svc.restarting = 1 ∧ u.svc.timers = [] ∧
        (∀ t, t < 64 → (u.thr t).st = .stopped) ∧ ∀ c, (u.chan c).owner = none ∧ (u.chan c).reader = none) ∧
    (s.svc.restarting = 1 → s.RunsTo (.restartServicesStart ok) fun u => vendors u ∧ u.svc.restarting = 2 ∧ u.svc.ownerUp = false ∧
      u.isSticky 248 = true ∧ s.Counts u R.FAULT.RESTARTS.COUNT 1) ∧
    (s.deadlockNow = true → s.RunsTo .deadlockDetect fun u => u.isSticky 240 = true ∧ s.Counts u R.SVC.DEADLOCKS.COUNT 1 ∧ u.svc = s.svc)

/-! ## Time -/

/-- R165-R172, R175: the lock of the reference, the trim, RATE, a set or an added offset, the capture, and the queue of timestamps. -/
def Obligations.TimeCommandsComplete : Prop :=
  ∀ (who : Who) (i : Fin 4) (trim : BitVec 24) (v : BitVec 32) (s : State), s.Settled →
    (s.fld R.TIME.OSC.SRC = 1 → s.on R.TIME.OSC.REF_LOCK = false → s.Runs .refLock fun u =>
      u.on R.TIME.OSC.REF_LOCK = true ∧ u.isPend 19 = true ∧ u = { s with regs := u.regs, time := { s.time with refAt := s.now } }) ∧
    (s.on R.TIME.OSC.REF_LOCK = true → s.RunsTo (.refLockLoss trim) fun u =>
      u.on R.TIME.OSC.REF_LOCK = false ∧ u.fld R.TIME.OSC_TRIM.TRIM = trim.toNat ∧ u.isSticky 257 = true ∧ u.isPend 19 = true) ∧
    (s.RunsTo .tcxoFailure fun u => u.on R.TIME.OSC.TCXO_OK = false ∧ u.isSticky 256 = true ∧ u.isPresent 256 = true) ∧
    (who.vendor = true →
      (s.eff R.TIME.OSC.SRC ≠ 1 → s.Runs (.oscTrimWrite who trim) fun u =>
        u.fld R.TIME.OSC_TRIM.TRIM = trim.toNat ∧ s.OnlyRegs u [R.TIME.OSC_TRIM.TRIM]) ∧
      (s.Runs (.rateWrite who i v) fun u => u.rate i = v.toInt ∧
        u.on (R.TIME.INST_i.STATUS.RATE_LIMIT i) = decide (v.toInt = -2 ^ 31 ∨ v.toInt = 2 ^ 31 - 1) ∧
        (v.toInt = -2 ^ 31 ∨ v.toInt = 2 ^ 31 - 1 → s.fld (R.TIME.INST_i.RATE.RATE i) ≠ v.toNat → u.isPend (24 + i) = true) ∧
        u = { s with regs := u.regs }) ∧
      (s.fld (R.TIME.INST_i.SET_NS.NS i) < 1000000000 → s.RunsTo (.instSet who i) fun u =>
        u.clk i = { sec := s.fld (R.TIME.INST_i.SET_SEC_LO.SEC i) + 2 ^ 32 * s.fld (R.TIME.INST_i.SET_SEC_HI.SEC i),
                    ns := s.fld (R.TIME.INST_i.SET_NS.NS i), frac := 0, rest := 0 } ∧
        (∀ k, k ≠ i.val → u.clk k = s.clk k) ∧ s.Counts u (R.TIME.INST_i.STEPS.COUNT i) 1 ∧
        u.on (R.TIME.INST_i.STATUS.STEP_SEEN i) = true ∧ u.isPend (20 + i) = true) ∧
      (s.RunsTo (.instAddOffset who i) fun u =>
        (((u.clk i).total * 65536 + (u.clk i).frac : Nat) : Int) =
          (((s.clk i).total * 65536 + (s.clk i).frac : Nat) + signedOf 32 (s.fld (R.TIME.INST_i.OFFSET.NS i)) * 65536) %
            ((2 ^ 48 * 1000000000 * 65536 : Nat) : Int) ∧
        (∀ k, k ≠ i.val → u.clk k = s.clk k) ∧ s.Counts u (R.TIME.INST_i.STEPS.COUNT i) 1 ∧
        u.on (R.TIME.INST_i.STATUS.STEP_SEEN i) = true ∧ u.isPend (20 + i) = true)) ∧
    (s.Runs (.captureGo who) fun u => u = { s with regs := u.regs } ∧ ∀ k, k < 4 →
      u.fld (R.TIME.SNAP_i.SEC_LO.SEC k) = (s.clk k).sec % 2 ^ 32 ∧ u.fld (R.TIME.SNAP_i.SEC_HI.SEC k) = (s.clk k).sec / 2 ^ 32 % 2 ^ 16 ∧
      u.fld (R.TIME.SNAP_i.NS.NS k) = (s.clk k).ns % 2 ^ (R.TIME.SNAP_i.NS.NS k).width ∧
      u.fld (R.TIME.SNAP_i.FRAC.FRAC k) = (s.clk k).frac % 2 ^ 16) ∧
    (s.Runs (.etsPop who) fun u => u.time.ets = s.time.ets.drop 1 ∧ u.on R.TIME.ETS_HEAD.VALID = decide (1 < s.time.ets.length) ∧
      u = { s with regs := u.regs, time := u.time })

/-- R178, R179: an edge and the end of a pulse of PPS_OUT; an edge of PPS_IN that is captured in all four instances, or ignored within
500 ms of the last; and a gap of 1.5 s. -/
def Obligations.PpsCommandsComplete : Prop :=
  ∀ (a : Nat) (s : State), s.Settled →
    (s.on R.TIME.PPS_OUT.EN = true → s.on R.DEAL.STATUS.FWD = true → (s.time.ppsLast : Int) < s.ppsEdge → (s.time.ppsAfter : Int) ≤ s.ppsEdge →
      s.time.ppsHigh = false → s.Runs .ppsOutEdge fun u => u.time.ppsHigh = true ∧ u.time.ppsAt = s.now ∧ u.isPend 28 = true ∧
        u = { s with regs := u.regs, time := u.time }) ∧
    (s.time.ppsHigh = true → s.time.ppsAt + msec (s.eff R.TIME.PPS_OUT.WIDTH) ≤ s.now → s.Runs .ppsOutPulseEnd fun u =>
      u = { s with time := { s.time with ppsHigh := false } }) ∧
    (s.on R.TIME.PPS_IN.EN = true →
      ((∀ b, s.time.ppsIn = some b → b + msec 500 ≤ s.now) → s.Runs .ppsInEdge fun u =>
        u.time.ppsIn = some s.now ∧ s.Counts u R.TIME.PPS_IN_SEQ.COUNT 1 ∧ u.isPend 16 = true ∧ u.isPresent 258 = false ∧
        (∀ k, k < 4 → u.fld (R.TIME.PPS_IN_i.SEC_LO.SEC_LO k) = (s.clk k).sec % 2 ^ 32 ∧
          u.fld (R.TIME.PPS_IN_i.NS.NS k) = (s.clk k).ns % 2 ^ (R.TIME.PPS_IN_i.NS.NS k).width) ∧
        u = { s with regs := u.regs, time := u.time }) ∧
      (s.time.ppsIn = some a → s.now < a + msec 500 → s.Runs .ppsInEdge fun u =>
        s.Counts u R.TIME.PPS_IN_IGNORED.COUNT 1 ∧ s.OnlyRegs u [R.TIME.PPS_IN_IGNORED.COUNT]) ∧
      (s.time.ppsIn = some a → a + msec 1500 ≤ s.now → s.time.ppsGap = false → s.RunsTo .ppsInGap fun u =>
        u.isSticky 258 = true ∧ u.isPresent 258 = true ∧ u.time.ppsGap = true))

/-! ## Faults and Fold -/

/-- R407-R410, R414, R424, R428: a detection sets its sticky bit, and PRESENT follows a level source; a countdown that runs out escalates;
a write of 1 clears a sticky bit unless it is latched or its condition is present; INJECT, FOLD_REQ and the Fold exit. -/
def Obligations.FaultCommandsComplete : Prop :=
  ∀ (who : Who) (n : Fin 320) (aux : Nat) (s : State), s.Settled →
    let one : BitVec 32 := BitVec.ofNat 32 (2 ^ (n.val % 32))
    let k : Fin 10 := ⟨n.val / 32, by have := n.isLt; omega⟩
    (sourceExists n = true → n.val ≠ 6 →
      (n.val ∉ levelSources → ¬ (160 ≤ n.val ∧ n.val ≤ 176) → n.val ≠ 179 → s.RunsTo (.faultSourceDetect n true aux) fun u => u.isSticky n = true) ∧
      (n.val ∈ levelSources →
        (s.RunsTo (.faultSourceDetect n true aux) fun u => u.isSticky n = true ∧ u.isPresent n = true) ∧
        (s.Runs (.faultSourceDetect n false aux) fun u => u.isPresent n = false ∧ u.isSticky n = s.isSticky n ∧
          s.OnlyRegs u [R.FAULT.PRESENT_k.PRESENT (n.val / 32)]))) ∧
    (s.isDue (.countdown n) = true → s.isSticky n = true →
      (s.escOf n = 1 → n.val ∉ s.col.escalated → s.RunsTo (.countdownExpiry n) fun u =>
        s.Counts u R.FAULT.ESCALATIONS.TO_RESTART 1 ∧ u.isPend 5 = true ∧ u.col.restartReq = true ∧ u.col.foldReq = false ∧ u.isRunning n = false) ∧
      (¬ (s.escOf n = 1 ∧ n.val ∉ s.col.escalated) → s.RunsTo (.countdownExpiry n) fun u =>
        s.Counts u R.FAULT.ESCALATIONS.TO_FOLD 1 ∧ u.col.foldReq = true ∧ u.isRunning n = false)) ∧
    (s.isSticky n = true → s.isLatched n = false →
      (s.isPresent n = false → s.Runs (.stickyClear who k one) fun u => u.isSticky n = false ∧ u.isRunning n = false ∧
        ∀ m, m < 320 → m ≠ n.val → u.isSticky m = s.isSticky m) ∧
      (s.isPresent n = true → s.Runs (.stickyClear who k one) fun u => (∀ m, m < 320 → u.isSticky m = s.isSticky m) ∧
        s.Counts u R.FAULT.CLEAR_REFUSED.COUNT 1 ∧ u.isPend 11 = true)) ∧
    (who.vendor = true → sourceExists n = true → s.RunsTo (.faultInject who k one) fun u => u.isSticky n = true) ∧
    (s.RunsTo (.foldReq who) fun u => u.isSticky 6 = true ∧ s.Counts u R.FAULT.REQ_COUNT.COUNT 1) ∧
    (s.on R.FAULT.STATE.FOLD = true →
      (s.on R.FAULT.STATE.GRAVE_LATCHED = false → s.blocksExit = false → s.on R.DEAL.STATUS.FWD = true → s.sup.sysRstN = true →
        s.on R.FAULT.STATE.EXITING = false → s.Runs (.foldExit who) fun u => u.on R.FAULT.STATE.EXITING = true ∧
          u.on R.FAULT.STATE.FORCED = true ∧ s.RegsBut u [R.FAULT.STATE.EXITING, R.FAULT.STATE.FORCED] ∧
          u = { s with regs := u.regs, col := u.col }) ∧
      (s.on R.FAULT.STATE.GRAVE_LATCHED = true → s.Runs (.foldExit who) fun u => u.fld R.FAULT.EXIT_REFUSED.REASON = 1 ∧
        s.Counts u R.FAULT.EXIT_REFUSED.COUNT 1 ∧ u.isPend 8 = true ∧ u.on R.FAULT.STATE.EXITING = s.on R.FAULT.STATE.EXITING)) ∧
    (s.on R.FAULT.STATE.EXITING = true → s.RunsTo .foldExitComplete fun u => u.on R.FAULT.STATE.FOLD = false ∧
      u.on R.FAULT.STATE.EXITING = false ∧ u.col.inFold = false ∧ s.Counts u R.FAULT.EXIT_COUNT.COUNT 1 ∧ u.isPend 7 = true)

/-- R422, R423: the end of a FAULT_N pulse, the two mismatches, and a write of FAULT.CTRL, which the bypass outputs follow at once. -/
def Obligations.FaultOutputsComplete : Prop :=
  ∀ (who : Who) (v : BitVec 32) (s : State), s.Settled →
    (s.isDue .pulse = true → s.Runs .faultPulseEnd fun u => u.on R.FAULT.STATE.PULSING = false ∧ s.Counts u R.FAULT.PULSE_COUNT.COUNT 1 ∧
      u.isPend 9 = true ∧ u.dueAt .pulse = none ∧ u.dueAt .pulseGap = some (s.now + msec 2)) ∧
    (s.RunsTo (.faultNMismatch true) fun u => u.isSticky 5 = true ∧ u.isPresent 5 = true) ∧
    (s.Runs (.faultNMismatch false) fun u => u.isPresent 5 = false ∧ s.OnlyRegs u [R.FAULT.PRESENT_k.PRESENT 0]) ∧
    (s.isPresent 4 = false → s.RunsTo (.bypassMismatch true) fun u => u.isSticky 4 = true ∧ u.isPresent 4 = true ∧
      s.Counts u R.FAULT.BYP_MISMATCH.COUNT 1) ∧
    (s.Runs (.bypassMismatch false) fun u => u.isPresent 4 = false ∧ s.OnlyRegs u [R.FAULT.PRESENT_k.PRESENT 0]) ∧
    (s.Runs (.bypForceWrite who v) fun u => u.fld R.FAULT.CTRL.BYP_FORCE = v.toNat % 16 ∧ u.on R.FAULT.CTRL.FAULT_N_SW = v.getLsbD 8 ∧
      u.on R.FAULT.STATE.BYP = (s.on R.FAULT.STATE.FOLD || s.col.staticOut || decide (v.toNat % 16 ≠ 0)) ∧
      s.OnlyRegs u [R.FAULT.CTRL.BYP_FORCE, R.FAULT.CTRL.FAULT_N_SW, R.FAULT.STATE.BYP, R.FAULT.STATE.FAULT_N])

/-- R416-R419: a Fold that a command has decided is entered before the command ends: FOLD and BYP read 1, the entry is counted and raises
event 6, and no frame is left in a FIFO, in a flow stage or in a queue of an egress port. -/
def Obligations.DecidedFoldIsEntered : Prop :=
  ∀ s : State, s.col.foldReq = true → s.col.restartReq = false → s.col.inFold = false →
    let u := s.settle
    u.Settled ∧ u.col.inFold = true ∧ u.on R.FAULT.STATE.FOLD = true ∧ u.on R.FAULT.STATE.BYP = true ∧
      s.Counts u R.FAULT.FOLD_COUNT.COUNT 1 ∧ u.isPend 6 = true ∧ u.pipe.fifo = [] ∧ u.pipe.stage = [] ∧ u.pipe.held = [] ∧
      ∀ e ∈ u.tm.queues, e.1 / 16 = 56

/-- R410, R414, R416: what a detection decides: a source of class fold or grave decides a Fold; one of class handled counts down, or
decides a Fold at once while a forced window is open. -/
def Obligations.DetectionDecides : Prop :=
  ∀ (n : Fin 320) (s : State), s.isSticky n = false → s.col.foldReq = false →
    let u := s.detect n
    u.isSticky n = true ∧ s.Counts u (R.FAULT.SET_COUNT_c.COUNT (s.classOf n)) 1 ∧ (∀ m, m < 320 → m ≠ n.val → u.isSticky m = s.isSticky m) ∧
      (s.classOf n = classNotice → u.col.foldReq = false) ∧
      (s.classOf n = classHandled → s.forced = true → u.col.foldReq = true) ∧
      (s.classOf n = classHandled → s.forced = false → s.frozenCore (s.evCore n) = false →
        u.col.foldReq = false ∧ u.isRunning n = true ∧
          u.dueAt (.countdown n) = some (s.now + usec (s.eff (R.FAULT.COUNTDOWN_c.US (s.cdOf n))))) ∧
      (s.classOf n = classFold ∨ s.classOf n = classGrave → u.col.foldReq = true) ∧
      (s.classOf n = classGrave → u.isLatched n = true ∧ u.on R.FAULT.STATE.GRAVE_LATCHED = true) ∧
      s.mem = u.mem ∧ s.svc = u.svc ∧ s.tm = u.tm ∧ s.buf = u.buf

/-! ## Supply, pins and power domains -/

/-- R45, R61-R63, R551: t0 is taken and the Deal starts; SYS_RST_N low and a brownout force Fold and reset every domain but the always-on
ones, with the sticky bits that are not latched; a power cycle clears everything but OTP. -/
def Obligations.SupplyCommandsComplete : Prop :=
  ∀ s : State, s.Settled →
    let t0 (u : State) : Prop := u.t0 = s.now ∧ u.sup.started = true ∧ u.sup.vinPresent = true ∧ u.deal.running = true ∧
      s.Counts u R.DEAL.DEAL_COUNT.COUNT 1 ∧ u.on R.POWER.STATUS.CHARGING = true ∧
      u.dueAt .charge = some (s.now + secs (s.eff R.POWER.HOLD_CFG.CHARGE_TO))
    let cold (u : State) : Prop := u.on R.FAULT.STATE.FOLD = true ∧ u.on R.FAULT.STATE.BYP = true ∧ u.on R.FAULT.STATE.FAULT_N = true ∧
      u.sup.started = false ∧ u.deal = Deal.init ∧ u.svc = Svc.init ∧ u.tm = Tm.init ∧ u.buf = Buf.init ∧ u.mem = [] ∧
      u.pending = s.pending ∧ u.trust.otp = s.trust.otp ∧ u.inst = s.inst ∧ ∀ n, n < 320 → u.isSticky n = u.isLatched n
    (s.sup.started = false → s.sup.sysRstN = true → s.sup.tamperN = true → s.sup.thermAlertN = true → s.RunsTo .powerValidT0 t0) ∧
    (s.sup.sysRstN = false → s.sup.vinPresent = true → s.sup.tamperN = true → s.sup.thermAlertN = true →
      s.RunsTo .sysRstRelease fun u => t0 u ∧ u.sup.sysRstN = true) ∧
    (s.sup.sysRstN = true → s.sup.vinPresent = true → s.Runs .sysRstAssert fun u => cold u ∧ u.sup.sysRstN = false) ∧
    (s.sup.onHold = true → s.Runs .holdBelow12v fun u => cold u ∧ u.sup.brownedOut = true ∧ u.on R.POWER.STATUS.HOLD_OK = false) ∧
    (s.sup.vinPresent = false → s.Runs .powerCycle fun u => u.regs = [] ∧ u.col = Collector.init ∧ u.svc = Svc.init ∧ u.mem = [] ∧
      u.inst = [] ∧ u.trust.otp = s.trust.otp ∧ u.pending = s.pending ∧ u.sup.started = false) ∧
    (s.sup.vinPresent = true → s.sup.started = true → s.RunsTo .vinAbsent fun u => u.sup.vinPresent = false ∧ u.sup.onHold = true ∧
      u.on R.POWER.STATUS.ON_HOLD = true ∧ s.Counts u R.POWER.RIDE_THROUGHS.COUNT 1 ∧ u.isPresent 38 = true ∧ u.isSticky 38 = true) ∧
    (s.sup.onHold = true → s.Runs .vinPresent fun u => u.sup.vinPresent = true ∧ u.sup.onHold = false ∧ u.on R.POWER.STATUS.ON_HOLD = false ∧
      u.on R.POWER.STATUS.CHARGING = true ∧ u.isPresent 38 = false ∧
      u.dueAt .charge = some (s.now + secs (s.eff R.POWER.HOLD_CFG.CHARGE_TO))) ∧
    (s.isDue .charge = true → s.sup.vinPresent = true → s.sup.started = true → s.on R.POWER.STATUS.HOLD_OK = false →
      s.RunsTo .holdChargeTimeout fun u => u.isSticky 39 = true ∧ u.isPresent 39 = true ∧ u.on R.POWER.STICKY.HOLD_LOW_SEEN = true ∧
        u.dueAt .charge = none) ∧
    (s.Runs .holdCharged fun u => u.on R.POWER.STATUS.HOLD_OK = true ∧ u.isPresent 39 = false ∧
      s.OnlyRegs u [R.POWER.STATUS.HOLD_OK, R.FAULT.PRESENT_k.PRESENT 1])

/-- R130, R131, R548, R553, R555: the samples show in their registers, the junction is the highest of the sensors, and conditions follow it;
a rail, the thermal alert; and a tamper zeroises the key store, which refuses from then on. -/
def Obligations.SamplesAndTamperComplete : Prop :=
  ∀ (vin iin hold : BitVec 16) (l : List Int) (t : Int) (rails : BitVec 8) (b c : Bool) (s : State), s.Settled →
    (s.RunsTo (.powerSample vin iin hold) fun u => u.fld R.POWER.VIN.MV = vin.toNat ∧ u.fld R.POWER.IIN.MA = iin.toNat ∧
      u.fld R.POWER.HOLD_V.MV = hold.toNat ∧ u.on R.POWER.STATUS.HOLD_OK = decide (46000 ≤ hold.toNat) ∧
      u.on R.POWER.STATUS.LOW_BAND = (s.sup.vinPresent && decide (vin.toNat < 10500)) ∧
      u.sup.samples = (vin.toNat * iin.toNat :: s.sup.samples).take 10) ∧
    (t ∈ l → (∀ x ∈ l, x ≤ t) → s.sup.monSupply = false → -550 ≤ t → t ≤ 1500 → s.RunsTo (.junctionSample l) fun u =>
      u.sup.tj = t ∧ u.isPresent 40 = decide (1250 < t) ∧ u.isPresent 41 = (decide (1350 < s.sup.tj) && decide (1350 < t)) ∧
      u.isPresent 29 = false ∧ (1250 < t → u.isSticky 40 = true)) ∧
    (s.RunsTo (.railOutOfWindow rails) fun u => u.isPresent 43 = decide (rails ≠ 0) ∧ (rails ≠ 0 → u.isSticky 43 = true)) ∧
    (s.RunsTo (.thermAlertChange b) fun u => u.on R.POWER.STATUS.ALERT = b ∧ u.isPresent 42 = b ∧ (b = true → u.isSticky 42 = true)) ∧
    (let zero (u : State) : Prop := u.on R.SEC.STATUS.TAMPER_LATCHED = true ∧ u.on R.SEC.STATUS.KEYSTORE_OK = false ∧ u.keysOk = false ∧
      u.trust.fleetKey = none ∧ u.trust.challenge = none ∧ u.trust.unlocking = none ∧ u.mac.secy = [] ∧
      (∀ e ∈ u.nel.links, e.2.txKey = [] ∧ e.2.rxKey = [] ∧ e.2.nextTx = none) ∧ u.trust.otp = s.trust.otp
     (s.RunsTo (.tamperNAssert true) zero) ∧ (b = true ∨ c = true → s.RunsTo (.tamperMonitorTrip b c) zero)) ∧
    (s.Runs (.tamperNAssert false) fun u => u.isPresent 28 = false ∧ u.on R.SEC.TAMPER.LEVEL = true ∧ u.sup.tamperN = true)

/-- R527, R559-R564: a request that breaks a rule is refused and recorded; else the domain goes to SWITCHING (a lane) or QUIESCING, is
acknowledged once it has drained, and is switched off within 10 us; a domain that comes on is ON and counted. -/
def Obligations.DomainCommandsComplete : Prop :=
  ∀ (who : Who) (d : Fin 166) (c : Fin 8) (s : State), s.Settled →
    let one : BitVec 32 := BitVec.ofNat 32 (2 ^ (d.val % 32))
    let k : Fin 6 := ⟨d.val / 32, by have := d.isLt; omega⟩
    let refused (u : State) (why : Nat) : Prop := u.fld R.POWER.REQ_RESULT.DOMAIN = d.val ∧ u.fld R.POWER.REQ_RESULT.REASON = why ∧
      s.Counts u R.POWER.REFUSALS.COUNT 1 ∧
      s.OnlyRegs u [R.POWER.REQ_RESULT.DOMAIN, R.POWER.REQ_RESULT.REASON, R.POWER.REFUSALS.COUNT]
    (s.domState d = 1 → s.offRule d = none → s.RunsTo (.pwrOnClr who k one) fun u => u.domState d = if 48 ≤ d.val ∧ d.val < 104 then 3 else 2) ∧
    (s.domState d = 1 → ∀ why, why < 6 → s.offRule d = some why → s.Runs (.pwrOnClr who k one) fun u => refused u why) ∧
    (s.domState d = 0 → s.onRule d = none → s.Runs (.pwrOnSet who k one) fun u => u.domState d = 3 ∧ d.val ∈ u.dom.turningOn ∧
      s.RegsBut u [R.POWER.DOM_STATE_k.STATE (d.val / 16) (d.val % 16)] ∧ u = { s with regs := u.regs, dom := u.dom }) ∧
    (s.domState d = 0 → ∀ why, why < 6 → s.onRule d = some why → s.Runs (.pwrOnSet who k one) fun u => refused u why) ∧
    (s.domState d = 2 → (s.lastWork d).domIdle d = true →
      (d.val ∉ s.dom.backOn → s.RunsTo (.quiesceAcknowledge d) fun u => u.domState d = 3 ∧
        ∃ x, x ≤ 500 ∧ u.dueAt (.switch d) = some (s.now + x)) ∧
      (d.val ∈ s.dom.backOn → s.RunsTo (.quiesceAcknowledge d) fun u => u.domState d = 1 ∧ d.val ∉ u.dom.backOn)) ∧
    (s.domState d = 2 → s.isDue (.drain d) = true → ownDrain d = false → s.Runs (.quiesceDrainTimeout d) fun u =>
      u.dueAt (.drain d) = none ∧ u.domState d = 2 ∧ (d.val ≠ 149 → u = s.disarm (.drain d)) ∧
        (d.val = 149 → ∀ q, q < 16 → u.queue 56 q = [])) ∧
    (s.isDue (.quiesceAck d) = true → s.RunsTo (.quiesceTimeout d) fun u => u.isSticky 44 = true ∧ u.dueAt (.quiesceAck d) = none) ∧
    (s.domState d = 3 → d.val ∈ s.dom.turningOn → s.running (.switch d) = false → d.val ∉ s.dom.offNext →
      s.RunsTo (.domainOnComplete d) fun u => u.domState d = 1 ∧ d.val ∉ u.dom.turningOn ∧ s.Counts u R.POWER.SWITCHES.COUNT 1) ∧
    (s.powered (158 + c.val) = true → s.on (R.DRAM.CTRL.EN c) = true →
      (s.dramMayLeave c = true → s.Runs (.dramCtrlDisable who c) fun u => u.on (R.DRAM.CTRL.EN c) = false ∧
        u.on (R.DRAM.STATUS.READY c) = false ∧
        ∀ a, u.byteAt a = if (s.packageSpan c).1 ≤ a ∧ a < (s.packageSpan c).2 then memDefault a else s.byteAt a) ∧
      (s.dramMayLeave c = false → s.Runs (.dramCtrlDisable who c) fun u => u.on (R.DRAM.STICKY.OFF_REFUSED c) = true ∧
        s.OnlyRegs u [R.DRAM.STICKY.OFF_REFUSED c]))

/-! ## The Deal and the Deck -/

/-- R47, R52, R53, R57: the steps of the Deal, each once what it waits for has come, up to commit; and the codes with which it ends. -/
def Obligations.DealCommandsComplete : Prop :=
  ∀ (tj : Int) (s : State), s.Settled → s.deal.running = true →
    let ends (u : State) (code src : Nat) : Prop := u.deal.running = false ∧ u.deal.failed = true ∧ u.fld R.DEAL.STATUS.CODE = code ∧
      u.isSticky src = true
    let step := s.fld R.DEAL.STATUS.STEP
    (step = 0 → s.on R.FAULT.STATE.GRAVE_LATCHED = false → -400 ≤ tj → tj ≤ 1250 →
      s.Runs (.dealerStart true true true true true true tj true) fun u => u.fld R.DEAL.STATUS.STEP = 4 ∧
        u.fld R.DEAL.STATUS.BAND = bandOf tj ∧ u.on R.SEC.STATUS.KEYSTORE_OK = true ∧ u.on R.DEAL.DECK_STATE.PRESENT = true ∧
        u.fld R.DEAL.DEADLINE.DEADLINE = 40000 ∧ u.fld R.DEAL.FLOOR.FLOOR = s.trust.otp.floor % 2 ^ R.DEAL.FLOOR.FLOOR.width) ∧
    (step = 0 → s.RunsTo (.dealerStart false true true true true true tj true) fun u => ends u 0x20 25) ∧
    (4 ≤ step → s.deal.dramReady = false →
      (s.Runs (.dramInitComplete true) fun u => u.deal.dramReady = true ∧ ∀ c, c < 8 → u.on (R.DRAM.STATUS.READY c) = true) ∧
      (s.RunsTo (.dramInitComplete false) fun u => ends u 0x22 23)) ∧
    (4 ≤ step → s.deal.memOk = false →
      (s.Runs (.memtestComplete true) fun u => u = { s with deal := { s.deal with memOk := true } }) ∧
      (s.RunsTo (.memtestComplete false) fun u => ends u 0x23 23)) ∧
    (s.deal.dramReady = true → s.deal.bucketsClear = false →
      (s.Runs (.bucketClearComplete true) fun u => u.deal.bucketsClear = true ∧
        ∀ a, u.byteAt a = if 0x1000000000 ≤ a ∧ a < 0x1080000000 then 0 else s.byteAt a) ∧
      (s.RunsTo (.bucketClearComplete false) fun u => ends u 0x22 23)) ∧
    (let x := s.slotInHand
     let n := (imgLen (s.slotHeader x) + 4095) / 4096
     s.deal.dramReady = true → x ≠ 0 → s.deal.staged = none → s.deal.checked = false → (∀ k, k < n → s.page (slotPage x + k) ≠ []) →
      s.Runs .imageStaged fun u => ∃ g, u.deal.staged = some g ∧ g.slot = x ∧
        g.bytes = (((List.range n).map fun k => s.page (slotPage x + k)).flatten).take (imgLen (s.slotHeader x)) ∧
        u.fld R.DEAL.STATUS.STEP = max 5 step) ∧
    (∀ g, s.deal.staged = some g → s.deal.checked = false → s.isClaimed = true → s.RunsTo (.signatureCheckComplete 0) fun u =>
      let code := (s.dealStep 7).imageResult g
      if code = 1 then
        u.deal.checked = true ∧ u.deal.running = true ∧ u.fld R.DEAL.STATUS.SLOT = g.slot % 4 ∧
          u.fld R.DEAL.IMAGE_VER.VER = imgVersion g.bytes % 2 ^ R.DEAL.IMAGE_VER.VER.width
      else u.fld (slotResult g.slot) = code % 2 ^ (slotResult g.slot).width ∧ u.deal.checked = false ∧
        (s.deal.toTry.length ≤ 1 → u.deal.running = false ∧ u.fld R.DEAL.STATUS.CODE = code % 256)) ∧
    (s.deal.staged ≠ none → s.deal.checked = true → s.deal.memOk = true → s.deal.bucketsClear = true → s.deal.applied = false →
      s.RunsTo .dealApply fun u => u.deal.applied = true ∧ u.deal.running = true) ∧
    (s.deal.applied = true → s.RunsTo .dealCommit fun u => u.deal.running = false ∧ u.on R.DEAL.STATUS.LOCKED = true ∧
      u.on R.DEAL.STATUS.FWD = true ∧ u.fld R.DEAL.STATUS.CODE = 1 ∧ u.fld R.DEAL.T_FWD.T_FWD = s.upUs % 2 ^ 32 ∧
      (s.col.inFold = false → u.on R.FAULT.STATE.FOLD = false ∧ u.col.staticOut = false)) ∧
    (s.isDue .dealWatch = true → s.RunsTo .dealWatchdog fun u => ends u 0x25 24) ∧
    (s.deal.checked = false → 2 ≤ step → s.RunsTo .deckLost fun u => ends u 0x12 17 ∧ u.on R.DEAL.DECK_STATE.PRESENT = false ∧
      u.on R.DEAL.DECK_STATE.DEALT = false)

/-- R67-R73, R91-R98: a READ frame is taken, or read once more; the end of a PROGRAM and of an ERASE; the removal and the return of the
Deck; and the appends of the journal. -/
def Obligations.DeckCommandsComplete : Prop :=
  ∀ (data : List Byte) (crc : BitVec 32) (s : State), s.Settled →
    (s.deal.running = true → 2 ≤ s.fld R.DEAL.STATUS.STEP → data.length = 4096 →
      (identityOk data = true → s.deck.known = false → s.Runs (.deckReadFrame 0 data (BitVec.ofNat 32 (crc32c data))) fun u =>
        u.deck.known = true ∧ u.on R.DEAL.DECK_STATE.DEALT = true ∧ u.deck.slotCycles = beAt data 0x1A 2) ∧
      (crc.toNat ≠ crc32c data → s.deck.known = false →
        (s.deck.retry ≠ some 0 → s.Runs (.deckReadFrame 0 data crc) fun u => u = { s with deck := { s.deck with retry := some 0 } }) ∧
        (s.deck.retry = some 0 → s.RunsTo (.deckReadFrame 0 data crc) fun u => u.deal.running = false ∧ u.fld R.DEAL.STATUS.CODE = 0x11 ∧
          u.isSticky 17 = true))) ∧
    (∀ p r, r.typ ≠ 5 → s.deck.port = some (.programJournal p r) →
      (s.RunsTo (.deckProgramComplete false) fun u => u.deck.seq = s.deck.seq + 1 ∧ u.fld R.DEAL.JOURNAL.HEAD = p % 4096 ∧
        u.deck.next = (p + 1) % 4096 ∧ u.isPend 203 = true) ∧
      (s.RunsTo (.deckProgramComplete true) fun u => u.deck.seq = s.deck.seq ∧ u.isSticky 301 = true ∧ u.isPend 209 = true)) ∧
    (∀ p r, s.deck.port = some (.eraseJournal p r) → s.Runs (.deckEraseComplete false) fun u => u.deck.port = some (.programJournal p r)) ∧
    (s.deal.running = true → s.on R.DEAL.DECK_STATE.PWR_ON = true → s.RunsTo .deckOvercurrent fun u =>
      u.on R.DEAL.DECK_STATE.PWR_ON = false ∧ u.deal.running = false ∧ u.fld R.DEAL.STATUS.CODE = 0x11) ∧
    (s.deal.running = false → s.on R.DEAL.DECK_STATE.PRESENT = true → s.RunsTo .deckRemoved fun u =>
      u.on R.DEAL.DECK_STATE.PRESENT = false ∧ u.on R.DEAL.DECK_STATE.PWR_ON = false ∧ u.on R.DEAL.DECK_STATE.DEALT = false ∧
      u.on R.DEAL.DECK_STATE.JOURNAL_PAUSED = true ∧ s.Counts u R.DEAL.REMOVALS.COUNT 1 ∧ u.isSticky 300 = true ∧ u.isPend 200 = true ∧
      u.deck.update = none ∧ u.deck.port = none) ∧
    (s.deal.running = false → s.sup.started = true → s.on R.DEAL.DECK_STATE.PWR_ON = false → s.Runs .deckPowerReturn fun u =>
      u.on R.DEAL.DECK_STATE.PRESENT = true ∧ u.on R.DEAL.DECK_STATE.PWR_ON = true ∧ u.dueAt .deckSettle = some (s.now + msec 50)) ∧
    (s.isDue .deckSettle = true → s.deck.known = true →
      (identityOk data = true → serialOf data = s.deckSerial → s.Runs (.deckIdentityCheck (some data)) fun u =>
        u.on R.DEAL.DECK_STATE.DEALT = true ∧ u.on R.DEAL.DECK_STATE.JOURNAL_PAUSED = false ∧ u.on R.DEAL.DECK_STATE.FOREIGN = false ∧
        u.isPend 201 = true) ∧
      (serialOf data ≠ s.deckSerial → s.RunsTo (.deckIdentityCheck (some data)) fun u =>
        u.on R.DEAL.DECK_STATE.FOREIGN = true ∧ u.isSticky 302 = true ∧ u.isPend 202 = true)) ∧
    (s.mayAppend = true → ∀ r t, s.deck.queue = r :: t → s.Runs .journalAppend fun u => u.deck.queue = t ∧
      u.fld R.DEAL.JOURNAL.BUDGET = s.fld R.DEAL.JOURNAL.BUDGET - 1 ∧
      u.deck.port = some (if s.deck.next % 16 = 0 then .eraseJournal s.deck.next r else .programJournal s.deck.next r)) ∧
    (s.isDue .journal = true → s.Runs .journalBudgetTick fun u =>
      u.fld R.DEAL.JOURNAL.BUDGET = min 12 (s.fld R.DEAL.JOURNAL.BUDGET + 1) ∧ u.dueAt .journal = some (s.now + secs 300) ∧
      s.RegsBut u [R.DEAL.JOURNAL.BUDGET] ∧ u = { s with regs := u.regs, due := u.due })

/-- R118, R125-R128: the timed floor advance fuses up to the accepted VERSION or stops at a bit that does not read back; a challenge, an
unlock and a back-off end with their time. -/
def Obligations.TrustTimersComplete : Prop :=
  ∀ (good : Nat) (s : State), s.Settled →
    let ver := s.fld R.DEAL.IMAGE_VER.VER
    let fl := s.trust.otp.floor
    (s.on R.DEAL.STATUS.FWD = true → s.isDue .floorDelay = true → s.deal.foldSince = false → s.deal.maxVersion ≤ ver → fl < ver →
      (ver ≤ fl + good → s.Runs (.floorAdvanceTimed good) fun u => u.trust.otp = { s.trust.otp with floor := ver } ∧
        u.on R.SEC.STATUS.FLOOR_PENDING = false ∧ u.fld R.SEC.FLOOR.FLOOR = ver % 2 ^ R.SEC.FLOOR.FLOOR.width ∧ u.dueAt .floorDelay = none) ∧
      (fl + good < ver → s.RunsTo (.floorAdvanceTimed good) fun u => u.trust.otp = { s.trust.otp with floor := fl + good } ∧
        u.on R.SEC.STATUS.FLOOR_PENDING = true ∧ u.isSticky 31 = true)) ∧
    (s.isDue .challenge = true → s.Runs .challengeExpiry fun u => u.trust = { s.trust with challenge := none } ∧ u.dueAt .challenge = none ∧
      u = { s with trust := u.trust, due := u.due }) ∧
    (s.isDue .unlock = true → s.unlocked = true → s.Runs .unlockExpiry fun u => u.fld R.SEC.STATUS.DEBUG = 2 ∧ u.fld R.SEC.STATUS.SCOPE = 0 ∧
      u.dbg.brks = [] ∧ u.dbg.wtcs = [] ∧ u.fld R.DEBUG.STATUS.FREEZE = 0 ∧ ∀ t, t < 64 → (u.thr t).st ≠ .halted) ∧
    (s.isDue .backoff = true → s.Runs .unlockBackoffEnd fun u => u.dueAt .backoff = none ∧ u = { s with due := u.due })

/-! ## Registers, table ports, management buses and pins -/

/-- R8-R10: a write to a register, at an address whose writes do nothing beside its fields, acts on every field by the field's access
code; a field of code RO or DL stays as it is (after Deal lock, R9); a write in owner mode to a register whose fields all have the suffix
-V traps and changes none of them.  (No two fields of a register lie at one place.) -/
def Obligations.RegisterWritesComplete : Prop :=
  ∀ (who : Who) (a v : BitVec 32) (s : State), s.Settled → regAddr a = true →
    ∀ p h, s.regAcc a.toNat = .reg p h → (h.fields.map fun f => f.fld.key).Nodup →
      (p.blk ∈ [.deal, .sec, .debug, .pool] ∨
        (p.blk ∈ [.parse, .tables, .edit, .buf, .dram, .nlink, .lane, .port] ∧ p.off ∉ [0, 0x10, 0x64, 0xE4, 0x800, 0x8018]) →
      (who.vendor = true ∨ h.fields.all (fun f => !f.vend) = true) → s.Runs (.registerWrite who a v) fun u =>
        s.OnlyRegs u (h.fields.map fun f => f.fld) ∧
        ∀ f ∈ h.fields, ∀ j, j < f.fld.width → u.bit f.fld j = match f.acc with
          | .rw => v.getLsbD (f.fld.lsb + j)
          | .w1c => s.bit f.fld j && !v.getLsbD (f.fld.lsb + j)
          | .ac => s.bit f.fld j && !v.getLsbD (f.fld.lsb + j)
          | .as => s.bit f.fld j || v.getLsbD (f.fld.lsb + j)
          | .ro => s.bit f.fld j
          | .wo => s.bit f.fld j
          | .dl => s.bit f.fld j) ∧
      (h.fields ≠ [] → h.fields.all (fun f => f.vend) = true → p.blk ≠ .svc → ∀ t : Fin 64, who = .thread t → who.vendor = false →
        s.writing t = [] → s.RunsTo (.registerWrite who a v) fun u => s.Trapped u t 0x03 a.toNat ∧ ∀ f ∈ h.fields, u.fld f.fld = s.fld f.fld)

/-- R44, R591: an access to an address that holds no register is counted, recorded and marked; a read of it gives 0; a read of the low
word of a 64-bit counter captures the high word, which the next read of the high word returns. -/
def Obligations.UnmappedAndCounterReadsComplete : Prop :=
  ∀ (who : Who) (a : BitVec 32) (v : Option (BitVec 32)) (s : State), s.Settled → regAddr a = true →
    s.touch a.toNat = s →
    (s.regAcc a.toNat = .unmapped →
      (s.Runs (.unmappedAccess who a v) fun u => s.Counts u R.TOP.UNMAPPED.COUNT 1 ∧ u.fld R.TOP.UNMAPPED_ADDR.ADDR = a.toNat ∧
        u.on R.TOP.STICKY.UNMAPPED_SEEN = true ∧
        s.OnlyRegs u [R.TOP.UNMAPPED.COUNT, R.TOP.UNMAPPED_ADDR.ADDR, R.TOP.STICKY.UNMAPPED_SEEN]) ∧
      (s.regRead who a.toNat).2 = (0, false)) ∧
    (∀ p h p' h', s.regAcc a.toNat = .reg p h → captures p h = true → h.high = false →
      s.regAcc (a.toNat + 4) = .reg p' h' → captures p' h' = true → h'.high = true → s.touch (a.toNat + 4) = s →
      s.Runs (.counterLowRead who a) fun u => u = { s with caught := u.caught } ∧
        (s.regRead who a.toNat).2 = (s.regValue p h who.vendor % 2 ^ 32, false) ∧
        ∀ w : State, w.regs = u.regs → w.caught = u.caught → (w.regRead who (a.toNat + 4)).2.1 = s.regValue p h who.vendor / 2 ^ 32)

/-- R564: a register of a domain that is OFF or SWITCHING reads 0xDEAD_0FF0 and keeps its fields under a write; either access raises F036,
adds one to OFF_ACCESS and records its address, whoever makes it, and traps no thread. -/
def Obligations.OffDomainAccessesComplete : Prop :=
  ∀ (who : Who) (a : BitVec 32) (v : Option (BitVec 32)) (s : State), s.Settled → regAddr a = true →
    ∀ p d, regPlace a.toNat = some p → p.dom = some d → s.domState d = 0 ∨ s.domState d = 3 →
      (s.RunsTo (.offDomainAccess who a v) fun u => u.isSticky 36 = true ∧ s.Counts u R.POWER.OFF_ACCESS.COUNT 1 ∧
        u.fld R.POWER.OFF_ADDR_LO.ADDR = a.toNat ∧ u.fld R.POWER.OFF_ADDR_HI.ADDR = 0 ∧ u.svc = s.svc ∧ u.mem = s.mem ∧
        ∀ f : Fld, f.addr = a.toNat → f.lsb < 32 → u.fld f = s.fld f) ∧
      (s.regRead who a.toNat).2 = (0xDEAD0FF0, false)

/-- R342-R345, R597-R599: a READ shows the entry in TP_DATA, and a WRITE takes it from there into the admin list, its reserved bits left
out (R11), or nothing while a list is pending. -/
def Obligations.TablePortsComplete : Prop :=
  ∀ (who : Who) (port : Fin 57) (mem : BitVec 4) (index : BitVec 16) (s : State), s.Settled →
    let b := tpBase port
    let i := index.toNat
    let ended (u : State) (r : Nat) : Prop := u.fld (R.TP.TP_STATUS.RESULT b) = r ∧ u.fld (R.TP.TP_STATUS.INDEX b) = i
    let shows (u : State) (n x : Nat) : Prop :=
      ∀ k, k < 18 → u.fld (R.TP.TP_DATA_w.DATA b k) = if k < n then x / 2 ^ (32 * (n - 1 - k)) % 2 ^ 32 else 0
    (port.val < 56 → mem.toNat < 2 → i < 1024 → s.Runs (.tablePortRead who port mem index) fun u => ended u 0 ∧
      shows u 2 (if mem.toNat = 0 then s.adminEntry port i else s.operEntry port i) ∧ u = { s with regs := u.regs }) ∧
    (port.val = 56 → (mem.toNat < 3 → i < [256, 4096, 64].getD mem.toNat 0 → s.Runs (.tablePortRead who port mem index) fun u => ended u 0 ∧
        shows u (if mem.toNat = 2 then 18 else 4) (s.row (0x101 + mem.toNat) i) ∧ u = { s with regs := u.regs }) ∧
      (mem.toNat = 3 → 1 ≤ i → i ≤ 5 → s.Runs (.tablePortRead who port mem index) fun u => ended u 0 ∧
        shows u 2 ((s.outcomeAct i).1 * 2 ^ 62 + (s.outcomeAct i).2.1 * 2 ^ 58 + (s.outcomeAct i).2.2 * 2 ^ 54)) ∧
      (s.Runs (.tablePortWrite who port mem index) fun u => ended u 1 ∧
        s.OnlyRegs u [R.TP.TP_STATUS.RESULT b, R.TP.TP_STATUS.INDEX b])) ∧
    (port.val < 56 → mem.toNat = 0 → i < 1024 → s.on (R.TM.GATE_STATUS.PENDING port) = false →
      s.Runs (.tablePortWrite who port mem index) fun u => ended u 0 ∧
        u.adminEntry port i = s.fld (R.TP.TP_DATA_w.DATA b 0) / 2 ^ 16 * 2 ^ 48 + s.fld (R.TP.TP_DATA_w.DATA b 1) ∧
        (∀ q e, q < 56 → e < 1024 → (q ≠ port.val ∨ e ≠ i) → u.adminEntry q e = s.adminEntry q e) ∧ u.tm.oper = s.tm.oper) ∧
    (port.val < 56 → mem.toNat = 0 → i < 1024 → s.on (R.TM.GATE_STATUS.PENDING port) = true →
      s.Runs (.tablePortWrite who port mem index) fun u => ended u 4 ∧ u.on (R.TM.STICKY.ADMIN_LOCKED port) = true ∧ u.tm = s.tm)

/-- R600-R602, R140: an MDIO frame and an I2C transaction start with the command word where none runs, and end with their result; a
command that finds one running is refused; an I2C command without its bytes ends with result 4; output pins rise and fall. -/
def Obligations.ManagementBusesComplete : Prop :=
  ∀ (who : Who) (m : Fin 2) (phy reg : BitVec 5) (data : BitVec 16) (addr : BitVec 7) (wlen rlen : BitVec 3) (rd : BitVec 32) (res : Fin 4)
    (s : State), s.Settled →
    let starts (c : Instr) (w : Nat) : Prop :=
      (s.on (R.TOP.MDIO_STATUS_m.BUSY m) = false → s.Runs c fun u => u.mdioNow m = some (BitVec.ofNat 32 w) ∧
        u.on (R.TOP.MDIO_STATUS_m.BUSY m) = true ∧ u.on (R.TOP.MDIO_STATUS_m.BAD_CMD m) = false ∧
        s.RegsBut u [R.TOP.MDIO_STATUS_m.BUSY m, R.TOP.MDIO_STATUS_m.BAD_CMD m]) ∧
      (s.on (R.TOP.MDIO_STATUS_m.BUSY m) = true → s.Runs c fun u => u.on R.TOP.STICKY.MGMT_REFUSED = true ∧
        s.OnlyRegs u [R.TOP.STICKY.MGMT_REFUSED])
    let frame (c45 op low : Nat) : Nat := 0x80000000 + c45 * 0x40000000 + op * 0x10000000 + phy.toNat * 0x200000 + reg.toNat * 0x10000 + low
    starts (.mdioC22Write who m phy reg data) (frame 0 1 data.toNat) ∧ starts (.mdioC22Read who m phy reg) (frame 0 2 0) ∧
    starts (.mdioC45Address who m phy reg data) (frame 1 0 data.toNat) ∧ starts (.mdioC45Write who m phy reg data) (frame 1 1 data.toNat) ∧
    starts (.mdioC45ReadIncrement who m phy reg) (frame 1 2 0) ∧ starts (.mdioC45Read who m phy reg) (frame 1 3 0) ∧
    (∀ w, s.mdioNow m = some w → s.Runs (.mdioFrameComplete m data) fun u => u.mdioNow m = none ∧
      u.on (R.TOP.MDIO_STATUS_m.BUSY m) = false ∧
      u.fld (R.TOP.MDIO_STATUS_m.DATA m) = (if mdioReads w then data.toNat else s.fld (R.TOP.MDIO_STATUS_m.DATA m))) ∧
    (let runs (c : Instr) (op wl rl : Nat) (ok : Bool) : Prop :=
      let w := 0x80000000 + op * 0x20000000 + wl * 0x4000000 + rl * 0x800000 + addr.toNat * 0x10000
      (s.on (R.TOP.I2C_STATUS_i.BUSY m) = false →
        (ok = true → s.Runs c fun u => u.i2cNow m = some (BitVec.ofNat 32 w, BitVec.ofNat 32 (s.fld (R.TOP.I2C_WDATA_i.DATA m))) ∧
          u.on (R.TOP.I2C_STATUS_i.BUSY m) = true ∧ s.RegsBut u [R.TOP.I2C_STATUS_i.BUSY m]) ∧
        (ok = false → s.Runs c fun u => u.fld (R.TOP.I2C_STATUS_i.RESULT m) = 4 ∧ s.OnlyRegs u [R.TOP.I2C_STATUS_i.RESULT m])) ∧
      (s.on (R.TOP.I2C_STATUS_i.BUSY m) = true → s.Runs c fun u => u.on R.TOP.STICKY.MGMT_REFUSED = true ∧
        s.OnlyRegs u [R.TOP.STICKY.MGMT_REFUSED])
     let len (n : BitVec 3) : Bool := decide (1 ≤ n.toNat ∧ n.toNat ≤ 4)
     runs (.i2cWrite who m wlen addr) 0 wlen.toNat 0 (len wlen) ∧ runs (.i2cRead who m rlen addr) 1 0 rlen.toNat (len rlen) ∧
     runs (.i2cWriteRead who m wlen rlen addr) 2 wlen.toNat rlen.toNat (len wlen && len rlen)) ∧
    (∀ w d, s.i2cNow m = some (w, d) →
      (s.Runs (.i2cComplete m res rd) fun u => u.i2cNow m = none ∧ u.on (R.TOP.I2C_STATUS_i.BUSY m) = false ∧
        u.fld (R.TOP.I2C_STATUS_i.RESULT m) = res.val ∧
        (bitsOf w.toNat 29 2 ≠ 0 → res.val = 0 → ∀ n, n = i2cLen w.toNat 23 →
          u.fld (R.TOP.I2C_RDATA_i.DATA m) / 2 ^ (32 - 8 * n) = rd.toNat / 2 ^ (32 - 8 * n)) ∧
        (bitsOf w.toNat 29 2 = 0 → u.fld (R.TOP.I2C_RDATA_i.DATA m) = s.fld (R.TOP.I2C_RDATA_i.DATA m))) ∧
      (s.Runs (.i2cStretchTimeout m) fun u => u.i2cNow m = none ∧ u.on (R.TOP.I2C_STATUS_i.BUSY m) = false ∧
        u.fld (R.TOP.I2C_STATUS_i.RESULT m) = 3)) ∧
    (s.Runs (.gpioOutSet who data) fun u => s.OnlyRegs u [R.TOP.GPIO_OUT_SET.OUT] ∧
      ∀ n, n < 16 → u.bit R.TOP.GPIO_OUT_SET.OUT n = (s.bit R.TOP.GPIO_OUT_SET.OUT n || data.getLsbD n)) ∧
    (s.Runs (.gpioOutClr who data) fun u => s.OnlyRegs u [R.TOP.GPIO_OUT_SET.OUT] ∧
      ∀ n, n < 16 → u.bit R.TOP.GPIO_OUT_SET.OUT n = (s.bit R.TOP.GPIO_OUT_SET.OUT n && !data.getLsbD n))

/-! ## Ethernet ports and pipelines -/

/-- R151, R156-R160: a fault on a lane starts the hold-down of its port's link where that is up, and cuts the frame in transmission; its
end stops the hold-down, or starts the hold-up; the two declarations; the disable, drain, acknowledge and re-enable of a port; and the SAs. -/
def Obligations.PortAndLinkCommandsComplete : Prop :=
  ∀ (who : Who) (p l : Fin 48) (reason : Fin 12) (phy : Fin 3) (key salt : List Byte) (ssci pn : Nat) (an : Fin 4) (sci : BitVec 64) (s : State),
    s.Settled →
    let up := s.linkUp p
    let idle := s.on (R.PORT.CTRL.EN p) = true ∧ s.portQuiesce p = 0
    let empty (u : State) : Prop := (∀ q, q < 16 → u.queue p q = []) ∧ (u.eport p).ready = []
    let waits (u : State) : Prop :=
      u.dueAt (.holdUp p) = some (s.now + msec (s.eff (R.PORT.LINK_HOLD.HOLD_UP p))) ∧ u.on (R.PORT.STATUS.HOLDING p) = true
    let shown (r : Nat) : Nat := if r = 11 then 4 else r
    (s.lanePort l = p → 3 ≤ reason.val → s.rx p = none →
      s.RunsTo (.linkFaultDetect l reason) fun u => u.fault p = reason.val ∧ u.dueAt (.holdUp p) = none ∧
        (up = true → u.linkUp p = true ∧ u.running (.holdDown p) = true ∧ u.queue p = s.queue p) ∧
        (up = false → idle → u.linkUp p = false ∧ u.fld (R.PORT.STATUS.DOWN_REASON p) = shown reason.val) ∧
        (s.fault p = 0 → (u.eport p).wire = none ∧ ∀ w, (s.eport p).wire = some w → w.stomp = false →
          s.srcOf w.copy ≠ 64 → s.Counts u (R.PORT.DISC_c.COUNT p 10) 1)) ∧
    (s.fault p ≠ 0 → s.Runs (.linkFaultClear p) fun u => u.fault p = 0 ∧
      (up = true → u.dueAt (.holdDown p) = none ∧ u.on (R.PORT.STATUS.HOLDING p) = false ∧ u.linkUp p = true) ∧
      (up = false → idle → waits u)) ∧
    (s.isDue (.holdDown p) = true → s.fault p ≠ 0 → s.fault p < 12 → s.portQuiesce p = 0 → up = true → s.RunsTo (.linkDownDeclare p) fun u =>
      u.linkUp p = false ∧ u.fld (R.PORT.STATUS.DOWN_REASON p) = shown (s.fault p) ∧ u.on (R.PORT.STICKY.LINK_DOWN_SEEN p) = true ∧
        s.Counts u (R.PORT.LINK_DOWNS.COUNT p) 1 ∧ u.isPend (136 + p) = true ∧ empty u ∧ u.dueAt (.holdDown p) = none ∧
        (s.on R.TABLES.MAC_CFG.FLUSH_ON_DOWN = true → ∀ e ∈ u.rowsOf 1, bitOf e.2 127 = true → bitOf e.2 126 = false →
          ¬ (bitsOf e.2 54 10 = s.ownSeat ∧ bitsOf e.2 48 6 = p.val))) ∧
    (s.isDue (.holdUp p) = true → s.fault p = 0 → s.portLive p = true → up = false → s.Runs (.linkUpDeclare p phy) fun u =>
      u.linkUp p = true ∧ u.fld (R.PORT.STATUS.DOWN_REASON p) = 0 ∧ u.fld (R.PORT.STATUS.SPEED p) = s.speedCode p phy % 8 ∧
        u.on (R.PORT.STICKY.LINK_UP_SEEN p) = true ∧ u.isPend (136 + p) = true ∧ u.on (R.PORT.STATUS.HOLDING p) = false) ∧
    (s.powered p = true → s.portExists p = true →
      (s.on (R.PORT.CTRL.EN p) = true → s.RunsTo (.portDisable who p) fun u => u.on (R.PORT.CTRL.EN p) = false ∧ u.linkUp p = false ∧
        u.fld (R.PORT.STATUS.DOWN_REASON p) = 1 ∧ u.portQuiesce p = 1 ∧ u.on (R.PORT.STATUS.QUIESCED p) = false ∧
        u.dueAt (.portDrain p) = some (s.now + usec (s.eff (R.PORT.DRAIN_TO.TIMEOUT p))) ∧ (up = true → u.isPend (136 + p) = true) ∧
        (s.on (R.PORT.CTRL.DRAIN_MODE p) = true → empty u) ∧ (s.on (R.PORT.CTRL.DRAIN_MODE p) = false → u.tm = s.tm)) ∧
      (s.on (R.PORT.CTRL.EN p) = false →
        (s.portQuiesce p = 1 → s.Runs (.portEnable who p) fun u => u.on (R.PORT.CTRL.EN p) = true ∧ u.portQuiesce p = 2 ∧
          s.RegsBut u [R.PORT.CTRL.EN p] ∧ u = { s with regs := u.regs, mac := u.mac }) ∧
        (s.portQuiesce p = 0 → s.Runs (.portEnable who p) fun u => u.on (R.PORT.CTRL.EN p) = true ∧ u.linkUp p = false ∧
          u.on (R.PORT.STATUS.QUIESCED p) = false ∧ (s.fault p = 0 → waits u)))) ∧
    (s.isDue (.portDrain p) = true → s.portQuiesce p ≠ 0 → s.RunsTo (.portDrainTimeout p) fun u => empty u ∧
      u.on (R.PORT.STICKY.DRAIN_TIMEOUT_SEEN p) = true ∧ u.isSticky (48 + p) = true ∧ u.dueAt (.portDrain p) = none) ∧
    ((s.eport p).ready = [] → (s.eport p).wire = none → (∀ q, q < 16 → s.queue p q = []) →
      (s.portQuiesce p = 1 → s.Runs (.portQuiesced p) fun u => u.on (R.PORT.STATUS.QUIESCED p) = true ∧ u.portQuiesce p = 0 ∧
        u.isPend (136 + p) = true ∧ u.dueAt (.portDrain p) = none ∧ u.dueAt (.quiesceAck p) = none) ∧
      (s.portQuiesce p = 2 → s.portExists p = true → s.Runs (.portQuiesced p) fun u => u.on (R.PORT.CTRL.EN p) = true ∧ u.portQuiesce p = 0 ∧
        u.isPend (136 + p) = true ∧ u.linkUp p = false ∧ (s.fault p = 0 → waits u))) ∧
    (who.vendor = true → s.powered p = true →
      let sa : Sa := { an := an.val, key := key, salt := salt, ssci := ssci, pn := pn, inUse := true }
      (s.Runs (.saInstall who p (.tx an key salt ssci pn)) fun u => (u.secy p).tx = some sa ∧ (u.secy p).stopped = false ∧
        u.on (R.PORT.SECY_STATUS.TX_SA_VALID p) = true ∧ (u.secy p).rx = (s.secy p).rx) ∧
      (s.Runs (.saInstall who p .txOff) fun u => (u.secy p).tx = none ∧ u.on (R.PORT.SECY_STATUS.TX_SA_VALID p) = false ∧
        (u.secy p).rx = (s.secy p).rx) ∧
      ((s.secy p).rx.length < 7 ∨ (∃ e ∈ (s.secy p).rx, e.1 = sci.toNat) → s.Runs (.saInstall who p (.rx sci an key salt ssci pn)) fun u =>
        (∃ e ∈ (u.secy p).rx, e.1 = sci.toNat ∧ sa ∈ e.2) ∧ (u.secy p).tx = (s.secy p).tx) ∧
      (s.Runs (.saInstall who p (.rxOff sci an)) fun u =>
        (∀ e ∈ (u.secy p).rx, e.1 = sci.toNat → ∀ b ∈ e.2, b.an ≠ an.val) ∧ (u.secy p).tx = (s.secy p).tx))

/-- R36, R141, R142: the head of a long frame, and a whole short one, enter the source FIFO with the pre-classifier's class while the
FIFO is below the shedding threshold of that class; a frame that fails its FCS or was cut is counted and enters nothing; the end of a
long frame that stays good counts it and makes it whole. -/
def Obligations.FramesAreReceived : Prop :=
  ∀ (p : Fin 48) (ago : Nat) (bytes : List Byte) (s : State), s.Settled → s.receives p = true → s.portLive p = true →
    s.secyOn p = false → s.on R.FAULT.STATE.FOLD = false →
    let n := bytes.length
    let body := bytes.take (n - 4)
    let good := crc32 body = ofLe (bytes.drop (n - 4))
    let cls := s.preclass p body
    let th := if s.eff R.CADENCE.TRUMP_TC.TC_MIN ≤ cls.1 then 96 else
      if cls.2 = 3 then s.eff R.CADENCE.SHED_TH.TH3 else if cls.2 = 2 then s.eff R.CADENCE.SHED_TH.TH2
      else if cls.2 = 1 then s.eff R.CADENCE.SHED_TH.TH1 else s.eff R.CADENCE.SHED_TH.TH0
    let i := s.buf.nextFrame
    let enters (u : State) (len : Option Nat) : Prop := u.fifo p = s.fifo p ++ [i] ∧ u.buf.nextFrame = i + 1 ∧
      ∃ f, u.frame i = some f ∧ f.src = p.val ∧ (f.tc, f.dp) = cls ∧ f.head = body.take 384 ∧ f.len = len ∧ f.whole = len.isSome ∧
        f.pass2 = false
    (s.rx p = none → beAt bytes 12 2 ≠ 0x8808 → (s.fifo p).length < th →
      (388 < n → s.RunsTo (.headEnterFifo p ago bytes) fun u => enters u none ∧
        u.rx p = some { bytes := bytes, frame := some i, dead := false }) ∧
      (64 ≤ n → n ≤ 388 → n ≤ s.eff (R.PORT.CFG.MAX_LEN p) → good → s.RunsTo (.headEnterFifo p ago bytes) fun u => enters u (some n) ∧
        u.rx p = none ∧ s.Counts u (R.PORT.RX_FRAMES.COUNT p) 1 ∧ s.Counts u (R.PORT.RX_BYTES.COUNT p) n)) ∧
    (s.rx p = none → 64 ≤ n → n ≤ 388 → n ≤ s.eff (R.PORT.CFG.MAX_LEN p) → ¬ good → s.Runs (.headEnterFifo p ago bytes) fun u =>
      s.Counts u (R.PORT.RX_ERR_k.COUNT p 0) 1 ∧ s.OnlyRegs u [R.PORT.RX_ERR_k.COUNT p 0]) ∧
    (∀ (r : Rx) (e : Fin 3), s.rx p = some r → r.dead = false → e.val ≠ 0 → r.frame = none → s.Runs (.frameEndReceived p e ago bytes) fun u =>
      s.Counts u (R.PORT.RX_ERR_k.COUNT p (if e.val = 1 then 7 else 4)) 1 ∧ u.rx p = none ∧ u.pipe = s.pipe ∧ u.buf = s.buf) ∧
    (∀ (r : Rx) (i : Nat) (f : Sys2Proof.Machine.Frm) (head rest : List Byte), bytes = head ++ rest → r = { bytes := head, frame := some i, dead := false } →
      s.rx p = some r → s.frame i = some f → s.cutPort i = none → (∀ e ∈ s.pipe.held, e.1 ≠ i) → beAt bytes 12 2 ≠ 0x8808 →
      64 ≤ n → n ≤ s.eff (R.PORT.CFG.MAX_LEN p) → good → s.RunsTo (.frameEndReceived p 0 ago rest) fun u => u.rx p = none ∧
        s.Counts u (R.PORT.RX_FRAMES.COUNT p) 1 ∧ s.Counts u (R.PORT.RX_BYTES.COUNT p) n ∧
        ∃ g, u.frame i = some g ∧ g.whole = true ∧ g.len = some n ∧ g.src = f.src)

/-- R17, R19, R34, R55, R247, R371, R403: a pipeline takes the oldest head of the source whose turn it is; a frame from a link joins the
flow stage with the seat and the port of its shim; in Fold the head is discarded; a head that leaves the stage is discarded under its
cause, or its frame joins the queue of its destination. -/
def Obligations.PipelinesMoveFrames : Prop :=
  ∀ (p : Fin 4) (s : State), s.Settled →
    (∀ c i rest f, s.pickSrc p = some c → s.fifo ((pipeSrcs p).getD c.1 0) = i :: rest → s.frame i = some f →
      let took (u : State) : Prop := u.fifo ((pipeSrcs p).getD c.1 0) = rest ∧ u.pipe.wrr.get (0, 0) p = c
      (s.on R.FAULT.STATE.FOLD = true → s.RunsTo (.pipelineTakeHead p) fun u => took u ∧ u.frame i = none ∧ u.stage p = s.stage p ∧
        (f.settled = false → f.src < 48 → s.Counts u (R.PORT.DISC_c.COUNT f.src 11) 1)) ∧
      (s.on R.FAULT.STATE.FOLD = false → ∀ x, f.shim = some x → shMarker x = false → shFlood x = false →
        s.Runs (.pipelineTakeHead p) fun u => took u ∧ u.frame i = some { f with rows := s.tabs.nWrites } ∧
          ∃ e, u.stage p = s.stage p ++ [e] ∧ e.frame = i ∧ e.look = .none ∧
          e.dec.fwd = 1 ∧ e.dec.group = none ∧ e.dec.seat = shSeat x ∧ e.dec.port = shPort x ∧ e.dec.q = some (shClass x)) ∧
      (s.on R.FAULT.STATE.FOLD = false → f.shim = none → s.RunsTo (.pipelineTakeHead p) fun u =>
        (∃ e, u.stage p = s.stage p ++ [e] ∧ e.frame = i) ∨ u.frame i = none)) ∧
    (∀ e f, s.exitHead (s.stage p) [] = some e → s.frame e.frame = some f → f.doom = 0 → f.whole = true → f.crcBad = false →
      e.dec.sf = none → e.dec.mirror = 0 → deferredFails f = false → (∀ h ∈ s.pipe.held, ∀ g, s.frame h.1 = some g → g.whole = false) →
      (e.dec.fwd = 2 → s.RunsTo (.flowStageExit p) fun u => u.frame e.frame = none ∧
        u.stage p = (s.stage p).filter (fun x => decide (x.frame ≠ e.frame)) ∧
        (f.settled = false → f.src < 48 → s.Counts u (R.PORT.DISC_c.COUNT f.src e.dec.cause) 1)) ∧
      (e.dec.fwd = 1 → e.dec.group = none → e.dec.seat = s.ownSeat → e.dec.port < 48 → (f.shim = none → e.dec.port ≠ f.src) →
        e.dec.meter = none → s.portTakes e.dec.port false = true → s.admits f f.cells.length = true →
        (s.admitCopy e.dec.port (e.dec.q.getD f.tc) f.cells.length (e.dec.dp.getD f.dp)).isSome = true → e.dec.qFlow = none →
        s.RunsTo (.flowStageExit p) fun u => u.stage p = (s.stage p).filter (fun x => decide (x.frame ≠ e.frame)) ∧
          ∃ c, c.frame = some e.frame ∧ c.port = e.dec.port ∧
            u.queue e.dec.port (e.dec.q.getD f.tc) = s.queue e.dec.port (e.dec.q.getD f.tc) ++ [c]))

/-- R219-R221: the learn engine's oldest request inserts, refreshes or moves its entry, and a pass of the ager ages and removes the
dynamic entries; static ones stay. -/
def Obligations.MacTableKeepsItself : Prop :=
  ∀ (s : State), s.Settled →
    (∀ l t, s.pipe.learn = l :: t → l.seat < 1024 → l.port < 64 →
      (∀ j, s.macFind l.fid l.mac = none → s.macFree (macSet l.fid l.mac) = some j → s.Runs .macLearn fun u => u.pipe.learn = t ∧
        u.row 1 j = macRow false l.fid l.mac l.seat l.port ∧ s.Counts u R.TABLES.LEARNS.COUNT 1 ∧
        ∀ T k, k < 2 ^ 32 → (T ≠ 1 ∨ k ≠ j) → u.row T k = s.row T k) ∧
      (∀ j, s.macFind l.fid l.mac = some j → bitOf (s.row 1 j) 126 = true → s.Runs .macLearn fun u => u.tabs = s.tabs ∧ u.pipe.learn = t) ∧
      (∀ j, s.macFind l.fid l.mac = some j → bitOf (s.row 1 j) 126 = false → s.Runs .macLearn fun u => u.pipe.learn = t ∧
        bitsOf (u.row 1 j) 54 10 = l.seat ∧ bitsOf (u.row 1 j) 48 6 = l.port ∧ bitsOf (u.row 1 j) 45 3 = 0 ∧
        (bitsOf (s.row 1 j) 54 10 ≠ l.seat ∨ bitsOf (s.row 1 j) 48 6 ≠ l.port →
          s.Counts u R.TABLES.MAC_MOVES.COUNT 1 ∧ u.isPend 124 = true)) ∧
      (s.macFind l.fid l.mac = none → s.macFree (macSet l.fid l.mac) = none → s.RunsTo .macLearn fun u => u.tabs = s.tabs ∧
        s.Counts u R.TABLES.LEARN_FULL.COUNT 1 ∧ u.isSticky 192 = true ∧ u.pipe.learn = t)) ∧
    (s.agePassDue = true → s.Runs .macAgerPass fun u =>
      (∀ e ∈ s.rowsOf 1, (∀ e' ∈ s.rowsOf 1, e'.1 = e.1 → e'.2 = e.2) → e.2 = s.row 1 e.1 → u.row 1 e.1 =
        if bitOf e.2 127 = true ∧ bitOf e.2 126 = false then (if bitsOf e.2 45 3 < 4 then e.2 + 2 ^ 45 else 0) else e.2) ∧
      (∀ T k, k < 2 ^ 32 → T ≠ 1 → u.row T k = s.row T k) ∧ s.RegsBut u [R.TABLES.MAC_COUNT.VALID, R.TABLES.MAC_STATIC.COUNT])

/-! ## The traffic manager, the exception path and the time gates -/

/-- R21, R22, R205, R303, R314, R321, R337-R339, R344, R346, R412: selection stages a head copy, the staged frame goes to the wire and
leaves it, heads that are too old are discarded, port 57 serves a second pass, and the exception path copies its head frame to a buffer.
The frames of these clauses have no edit template. -/
def Obligations.TrafficManagerCommandsComplete : Prop :=
  ∀ (p : Fin 56) (e : Fin 48) (o : Fin 58) (n : Fin 4) (x : Fin 16) (sfd k : Nat) (s : State), s.Settled → s.on R.FAULT.STATE.FOLD = false →
    let sound (f : Sys2Proof.Machine.Frm) : Prop := ∀ m ∈ f.cells, ∀ c, s.cell m = some c → c.poison = false
    (let t := s.settleP p
     ∀ q c, q < 16 → (s.eport p).ready.length < 2 → s.gated p = false → t.eligible p q = true → t.headCopy p q = some c →
      t.isStalePath c = false → t.aged c (t.qAge p q * 1000) = false →
      (s.weighted p ≤ q ∧ ∀ q', q < q' → q' < 16 → t.eligible p q' = false) ∨
        (q < s.weighted p ∧ (∀ q', s.weighted p ≤ q' → q' < 16 → t.eligible p q' = false) ∧ (s.eport p).cur = q ∧
          t.chargeLen c ≤ (t.qst p q).deficit + (if (t.qst p q).topped then 0 else s.weight p q * s.eff (R.TM.CTRL.QUANTUM p))) →
      s.RunsTo (.tmSelect p) fun u => (u.eport p).ready = (s.eport p).ready ++ [{ c with cls := s.qClass p q }] ∧
        u.queue p q = (s.queue p q).erase c ∧ ∀ q', q' < 16 → q' ≠ q → u.queue p q' = s.queue p q') ∧
    (∀ c i f, (s.eport e).wire = none → s.fault e = 0 → s.linkUp e = true → s.firstStaged e = some c →
      s.fitsGate e c.q (s.chargeLen c) = true → c.frame = some i → s.frame i = some f → sound f → c.tpl = none → s.portTpl c.port = none →
      s.secyOn e = false → s.RunsTo (.frameTransmitStart e sfd 0 k) fun u => (u.eport e).ready = (s.eport e).ready.erase c ∧
        (u.eport e).wire = some { copy := c, bytes := pad60 (s.edIn f c).bytes, cut := false, stomp := false }) ∧
    (∀ w, (s.eport e).wire = some w → w.cut = false → w.stomp = false → s.RunsTo (.frameTransmitEnd e) fun u => (u.eport e).wire = none ∧
      s.Counts u (R.PORT.TX_FRAMES.COUNT e) 1 ∧ s.Counts u (R.PORT.TX_BYTES.COUNT e) (max 64 (w.bytes.length + 4))) ∧
    (o.val = 57 ∨ (48 ≤ o.val ∧ o.val < 56 ∧ s.linkState (o.val - 48) ≠ 3) → s.RunsTo (.headAgeTest o) fun u =>
      ∀ q c l, q < 16 → s.queue o q = c :: l →
        u.queue o q = if s.aged c (if s.qAge o q = 0 ∧ o.val < 56 then s.eff (R.NLINK.STALE_AGE.MS (o.val - 48)) * 1000000 else s.qAge o q * 1000)
          then l else c :: l) ∧
    (∀ c i f, s.tm.recirc.get 0 n ≤ s.time.elapsed → s.recircNext n = some c → s.aged c (s.qAge 57 c.q * 1000) = false →
      c.frame = some i → s.frame i = some f → sound f → c.tpl = none →
      (s.fifo (56 + n)).length < 2 * (if s.eff R.CADENCE.TRUMP_TC.TC_MIN ≤ f.tc then 96 else
        if f.dp = 3 then s.eff R.CADENCE.SHED_TH.TH3 else if f.dp = 2 then s.eff R.CADENCE.SHED_TH.TH2
        else if f.dp = 1 then s.eff R.CADENCE.SHED_TH.TH1 else s.eff R.CADENCE.SHED_TH.TH0) →
      s.RunsTo (.recircServe n 0 k) fun u => u.queue 57 c.q = (s.queue 57 c.q).erase c ∧
        s.Counts u (R.TM.RECIRC_FRAMES_Pn.COUNT n) 1 ∧ u.fifo (56 + n) = s.fifo (56 + n) ++ [s.buf.nextFrame] ∧
        ∃ g, u.frame s.buf.nextFrame = some g ∧ g.pass2 = true ∧ g.src = f.src ∧ g.tc = f.tc ∧ g.kprof = f.kprof) ∧
    (∀ c t i f j b, s.queue 56 x = c :: t → s.powered 149 = true → c.frame = some i → s.frame i = some f → sound f →
      (s.takePools (s.edIn f c).bytes.length none).find? (s.mayTake 0) = some j → s.lowestFree j = some b →
      s.RunsTo (.exceptionCopy x 0 k) fun u => u.queue 56 x = t ∧ u.holderOf j b = some 0 ∧ u.isPend (96 + x) = true ∧
        u.descs x = s.descs x ++ [s.descriptor f c j b (s.tm.descSeq.get 0 x + 1)] ∧
        ∀ a, a < (s.edIn f c).bytes.length → u.byteAt (s.bufAddr j b + a) = (s.edIn f c).bytes.getD a 0) ∧
    (∀ w, s.tm.excWait = some w → w + msec 10 ≤ s.now → s.RunsTo .exceptionPathNoBuffer fun u => u.isSticky 266 = true ∧ u.tm.excWait = some s.now)

/-- R181, R342-R345, R626: the entry of the oper list at the pins; the admin list becomes oper at its change time; the restart after a
step; and the arm and the cancel of a list. -/
def Obligations.TimeGatesComplete : Prop :=
  ∀ (who : Who) (p : Fin 56) (t : Nat) (s : State), s.Settled →
    let pins (u : State) : Prop := u.fld (R.TM.GATE_STATUS.ENTRY p) = (u.operAt p s.gateNs).1 % 2 ^ 11 ∧
      u.gates p = (if s.on (R.TM.CTRL.GATE_EN p) then (u.operAt p s.gateNs).2 % 2 ^ 16 else 0xFFFF)
    let ready (t : Nat) : Nat := boundary (s.adminBase p) (s.adminCycle p) (s.gateNs + 2000) + t
    ((s.eport p).oper = true → (s.eport p).restart = none → s.Runs (.gateEntryChange p) fun u => pins u ∧ u.tm.oper = s.tm.oper) ∧
    ((s.eport p).oper = false → s.Runs (.gateEntryChange p) fun u => u.gates p = 0xFFFF) ∧
    ((s.eport p).restart = none → (s.eport p).change = some t → t ≤ s.gateNs → s.adminCount p ≤ 1024 → s.Runs (.gateListSwap p) fun u =>
      (u.eport p).oper = true ∧ (u.eport p).change = none ∧ u.on (R.TM.GATE_STATUS.PENDING p) = false ∧
      (∀ i, i < s.adminCount p → u.operEntry p i = s.adminEntry p i) ∧ u.operCount p = s.adminCount p ∧
      u.operCycle p = s.adminCycle p ∧ u.operBase p = s.adminBase p ∧ pins u ∧ u.isPend (if p.val < 48 then 136 + p.val else 80 + p.val) = true ∧
      s.Counts u R.TM.GATE_SWAPS.COUNT 1 ∧ ∀ q i, q ≠ p.val → i < 1024 → u.operEntry q i = s.operEntry q i) ∧
    ((s.eport p).oper = true → (s.eport p).restart = some t → t ≤ s.gateNs → (∀ c, (s.eport p).change = some c → t < c) →
      s.Runs (.gateRestart p) fun u => (u.eport p).restart = none ∧ u.on (R.TM.GATE_STATUS.RESTARTING p) = false ∧ pins u ∧
        u.tm.oper = s.tm.oper) ∧
    (s.on (R.TM.GATE_STATUS.PENDING p) = false → s.adminOk p = true → s.Runs (.gateArm who p) fun u =>
      (u.eport p).change = some (ready 0) ∧ u.on (R.TM.GATE_STATUS.PENDING p) = true ∧
      (s.adminBase p < s.gateNs + 2000 → u.on (R.TM.STICKY.BASE_IN_PAST p) = true) ∧ u.tm.oper = s.tm.oper ∧ u.tm.admin = s.tm.admin) ∧
    (s.on (R.TM.GATE_STATUS.PENDING p) = false → s.adminOk p = false → s.Runs (.gateArm who p) fun u =>
      u.on (R.TM.STICKY.LIST_ERROR p) = true ∧ s.OnlyRegs u [R.TM.STICKY.LIST_ERROR p]) ∧
    (s.on (R.TM.GATE_STATUS.PENDING p) = true → s.Runs (.gateArm who p) fun u =>
      u.on (R.TM.STICKY.ADMIN_LOCKED p) = true ∧ s.OnlyRegs u [R.TM.STICKY.ADMIN_LOCKED p]) ∧
    (s.Runs (.gateCancel who p) fun u => (u.eport p).change = none ∧ u.on (R.TM.GATE_STATUS.PENDING p) = false ∧
      s.RegsBut u [R.TM.GATE_STATUS.PENDING p] ∧ u = { s with regs := u.regs, tm := u.tm }) ∧
    (s.adminOk p = true → s.Runs (.gateArmCancel who p) fun u => (u.eport p).change = some (ready 0) ∧
      u.on (R.TM.GATE_STATUS.PENDING p) = true) ∧
    (s.adminOk p = false → s.Runs (.gateArmCancel who p) fun u => (u.eport p).change = none ∧
      u.on (R.TM.GATE_STATUS.PENDING p) = false ∧ u.on (R.TM.STICKY.LIST_ERROR p) = true)

/-- R181, R298, R350, R351, R357: a stream-gate list takes the entry that is due; a blocked filter, a red meter and a FRER stream are
reset, and no other is touched. -/
def Obligations.PolicersAndStreamsComplete : Prop :=
  ∀ (who : Who) (l : Fin 256) (n : Fin 16384) (m : Fin 4096) (s : State), s.Settled →
    (s.sgCount l ≠ 0 → (s.sg l).restart = none → s.Runs (.streamGateEntry l) fun u =>
      u.sg l = { entry := s.sgAt l s.gateNs, octets := 0, restart := none } ∧ (∀ j, j ≠ l.val → u.sg j = s.sg j) ∧
        u = { s with pipe := { s.pipe with sg := u.pipe.sg } }) ∧
    (∀ t, s.sgCount l ≠ 0 → (s.sg l).restart = some t → t ≤ s.gateNs → s.Runs (.streamGateEntry l) fun u =>
      u.sg l = { entry := 0, octets := 0, restart := none } ∧ u = { s with pipe := { s.pipe with sg := u.pipe.sg } }) ∧
    (s.Runs (.sfUnblock who n) fun u => u.sf n = { s.sf n with blocked := false } ∧ (∀ j, j ≠ n.val → u.sf j = s.sf j) ∧
      u = { s with pipe := { s.pipe with sf := u.pipe.sf } }) ∧
    (s.Runs (.meterClearRed who n) fun u => u.mt n = { s.mt n with red := false } ∧ (∀ j, j ≠ n.val → u.mt j = s.mt j) ∧
      u = { s with pipe := { s.pipe with meter := u.pipe.meter } }) ∧
    (s.Runs (.frerReset who m) fun u => u.frer m = { s.frer m with takeAny := true } ∧ (∀ j, j ≠ m.val → u.frer j = s.frer j) ∧
      u = { s with tm := { s.tm with frer := u.tm.frer } }) ∧
    (s.eff R.EDIT.FRER_CFG.RESET_MS * 1000000 ≤ s.mono - (s.frer m).lastPass → s.Runs (.frerTakeAnyTimeout m) fun u =>
      u.frer m = { s.frer m with takeAny := true } ∧ (∀ j, j ≠ m.val → u.frer j = s.frer j) ∧
      u = { s with tm := { s.tm with frer := u.tm.frer } })

/-! ## Banks of the buffer, rule banks and update ports -/

/-- R326-R330: a test is requested, queued or refused; the bank under test is replaced by the spare and drained, tested, and returned or
retired; the whole-buffer test runs in Fold or in maintenance only. -/
def Obligations.BankTestsComplete : Prop :=
  ∀ (who : Who) (b : Fin 32) (bad : BitVec 17) (s : State), s.Settled →
    let quiet := s.bankCurrent = 31 ∧ 1 ∉ s.col.windows
    let cur := s.bankCurrent
    let answer (u : State) (b r : Nat) : Prop := u.fld R.BUF.TEST_STATUS.BANK = b ∧ u.fld R.BUF.TEST_STATUS.RESULT = r
    let drains (u : State) (b : Nat) : Prop := u.bankCurrent = b ∧ u.bankState b = 2 ∧ u.buf.drainAt = some s.now ∧
      (s.spareBank ≠ 31 → u.bankState s.spareBank = 0 ∧ u.spareBank = 31)
    (b.val < 17 → quiet → s.buf.tests = [] → (s.spareBank = 31 ∨ s.spareBank < 17) → s.spareBank ≠ b.val →
      (s.bankState b ≤ 1 → s.Runs (.bankTestRequest who b) fun u => drains u b ∧ u.buf.tests = []) ∧
      (s.bankState b = 4 → s.Runs (.bankTestRequest who b) fun u => u.bankCurrent = b.val ∧ u.bankState b = 3 ∧ u.buf.tests = [])) ∧
    (b.val < 17 → s.bankState b ≠ 5 → ¬ quiet → cur ≠ b.val → b.val ∉ s.buf.tests →
      (s.buf.tests.length < 4 → s.Runs (.bankTestRequest who b) fun u => u.buf.tests = s.buf.tests ++ [b.val] ∧
        u.fld R.BUF.TEST_STATUS.QUEUED = s.buf.tests.length + 1 ∧ s.RegsBut u [R.BUF.TEST_STATUS.QUEUED]) ∧
      (s.buf.tests.length = 4 → s.Runs (.bankTestRequest who b) fun u => answer u b 4 ∧
        s.OnlyRegs u [R.BUF.TEST_STATUS.BANK, R.BUF.TEST_STATUS.RESULT])) ∧
    (17 ≤ b.val ∨ (b.val < 17 ∧ s.bankState b = 5) → s.Runs (.bankTestRequest who b) fun u => answer u b 5 ∧
      s.OnlyRegs u [R.BUF.TEST_STATUS.BANK, R.BUF.TEST_STATUS.RESULT]) ∧
    (s.on R.FAULT.STATE.FOLD = true ∨ s.maintenance = true → quiet → s.buf.tests = [] → s.RunsTo (.wholeBufferTest who) fun u =>
      1 ∈ u.col.windows ∧ u.on R.FAULT.STATE.FORCED = true ∧ (∀ p q, p < 58 → q < 16 → u.queue p q = []) ∧
        ∀ p, p < 56 → (u.eport p).ready = []) ∧
    (s.on R.FAULT.STATE.FOLD = false → s.maintenance = false → s.Runs (.wholeBufferTest who) fun u => answer u 31 3 ∧
      s.OnlyRegs u [R.BUF.TEST_STATUS.BANK, R.BUF.TEST_STATUS.RESULT]) ∧
    (∀ k, s.eff R.BUF.ROT_CFG.PERIOD ≠ 0 → s.spareBank < 17 → quiet → s.buf.tests = [] → s.bankState s.spareBank = 4 →
      ((List.range 17).map fun j => (s.buf.lastRot + 1 + j) % 17).find? s.inService = some k → s.Runs .bankRotationTimer fun u =>
        drains u k ∧ u.buf.lastRot = k) ∧
    (cur < 17 → s.bankState cur = 2 → (∀ e ∈ s.buf.cells, e.1 / 8192 ≠ cur) → s.Runs .bankDrainComplete fun u =>
      u.bankState cur = 3 ∧ u.bankCurrent = cur ∧ u.buf.drainAt = none ∧
        s.RegsBut u [R.BUF.BANK_STATE_k.STATE (cur / 8) (cur % 8)]) ∧
    (∀ t, cur < 17 → s.bankState cur = 2 → s.buf.drainAt = some t → t + msec (s.eff R.BUF.ROT_CFG.DRAIN_TO) ≤ s.now →
      (∃ e ∈ s.buf.cells, e.1 / 8192 = cur) →
      s.RunsTo .bankDrainTimeout fun u => u.on R.BUF.STICKY.DRAIN_TIMEOUT_SEEN = true ∧
        ∀ p q c f, p < 58 → q < 16 → c ∈ u.queue p q → c.frame.bind u.frame = some f → ∀ m ∈ f.cells, m / 8192 ≠ cur) ∧
    (cur < 17 → s.bankState cur = 3 → s.buf.tests = [] → 1 ∉ s.col.windows →
      (s.Runs (.marchTestComplete true) fun u => answer u cur 1 ∧ u.bankCurrent = 31 ∧ s.Counts u R.BUF.ROTATIONS.COUNT 1 ∧
        (if s.banksIn < 16 then u.bankState cur = 0 else u.bankState cur = 4 ∧ u.spareBank = cur)) ∧
      (s.RunsTo (.marchTestComplete false) fun u => answer u cur 2 ∧ u.bankCurrent = 31 ∧ s.Counts u R.BUF.ROTATIONS.COUNT 1 ∧
        u.bankState cur = 5 ∧ u.isSticky 177 = true ∧ u.spareBank ≠ cur ∧ (s.banksIn < 16 → u.isSticky 178 = true))) ∧
    (1 ∈ s.col.windows → s.buf.tests = [] → s.RunsTo (.wholeBufferTestComplete bad) fun u =>
      answer u 31 (if bad = 0 then 1 else 2) ∧ 1 ∉ u.col.windows ∧ s.Counts u R.BUF.ROTATIONS.COUNT 1 ∧
        ∀ k, k < 17 → bad.getLsbD k = true → u.bankState k = 5 ∧ (s.bankState k ≠ 5 → u.isSticky 177 = true))

/-- R230, R232, R233: the oldest completion that is not ready becomes ready once no head that entered before its commit is left, and
raises the port's event where it is the first; a swap
makes a sized bank active and the old one drain while packets of it are in flight; a bank that drains too long is reported. -/
def Obligations.RuleBanksAndCompletions : Prop :=
  ∀ (who : Who) (v : Fin 8) (k : Fin 4) (s : State), s.Settled →
    (∀ (old rest : List Comp) (c : Comp), (s.uport v).comps = old ++ c :: rest → (∀ x ∈ old, x.ready = true) → c.ready = false →
      (s.markersPassed c.commit = false → s.Runs (.uportCompletionReady v) fun u => u = s) ∧
      (s.markersPassed c.commit = true → s.Runs (.uportCompletionReady v) fun u => u.uport v = { cmds := (s.uport v).cmds, comps := old ++ { c with ready := true } :: rest } ∧
        (old = [] → u.isPend (112 + v) = true) ∧ (old ≠ [] → u.regs = s.regs) ∧ ∀ w, w ≠ v.val → u.uport w = s.uport w)) ∧
    (s.ruleSize k ≠ 0 → s.bankOff k = false → s.Runs (.rulesetActiveWrite who k) fun u =>
      let a := s.fld R.TABLES.RULESET_ACTIVE.BANK
      u.fld R.TABLES.RULESET_ACTIVE.BANK = k.val ∧ s.Counts u R.TABLES.SEQ_LO.COUNT 1 ∧ u.isPend 121 = true ∧ u.tabs.rows = s.tabs.rows ∧
        (a ≠ k.val → u.ruleBank k = 1 ∧ (s.ruleSize a ≠ 0 → u.ruleBank a = if s.fld (R.TABLES.INFLIGHT_k.COUNT a) = 0 then 3 else 2))) ∧
    (s.ruleSize k = 0 ∨ s.bankOff k = true → s.Runs (.rulesetActiveWrite who k) fun u =>
      u.on R.TABLES.STICKY.SWAP_REFUSED = true ∧ s.OnlyRegs u [R.TABLES.STICKY.SWAP_REFUSED]) ∧
    (∀ t, s.ruleBank k = 2 → s.tabs.drainAt.get 0 k = t + 1 → t + usec (s.eff R.TABLES.DRAIN_LIMIT.LIMIT) < s.now →
      s.RunsTo (.bankDrainLimit k) fun u => u.isSticky 193 = true ∧ u.isPend 123 = true ∧ u.bit R.TABLES.STICKY.DRAIN_LIMIT_SEEN k = true ∧
        u.ruleBank k = 2 ∧ u.tabs.rows = s.tabs.rows)

/-! ## Cadence and DRAM -/

/-- R29-R32, R43: the predictions show as the capacities; the loop moves VCORE within the ceiling by no more than its step, or holds it;
the power rule moves the ceiling by 5 mV; boost ends; and the two cadence faults. -/
def Obligations.CadenceCommandsComplete : Prop :=
  ∀ (pred svc : List Nat) (mv : Nat) (s : State), s.Settled →
    let top := 2 * s.fld R.CADENCE.VCORE.CEILING
    (pred.length = 16 → s.RunsTo (.metronomeUpdate pred svc) fun u => ∀ n, n < 4 →
      (∃ x ∈ (pred.drop (4 * n)).take 4, (∀ y ∈ (pred.drop (4 * n)).take 4, x ≤ y) ∧ u.fld (R.CADENCE.LIVE_Pn.CAPACITY n) = min 1023 x) ∧
      u.fld (R.CADENCE.SVC_LIVE.CORE n) = min 255 (svc.getD n 0) ∧
      u.fld R.CADENCE.STATUS.BELOW_FLOOR / 2 ^ n % 2 = b2n (u.belowFloor n)) ∧
    (s.on R.CADENCE.CTRL.FIXED = true → s.RunsTo .governorLoop fun u =>
      u.cad.v = min top (max 1240 (2 * s.fld R.CADENCE.VSET.VSET)) ∧ u.on R.CADENCE.STATUS.FIXED_ACTIVE = true) ∧
    (s.on R.CADENCE.CTRL.FIXED = false → s.on R.CADENCE.CTRL.GOV_EN = false ∨ s.on R.DEAL.STATUS.FWD = false ∨
        s.on R.CADENCE.STATUS.BOOST = true → s.RunsTo .governorLoop fun u => u.cad.v = top) ∧
    (s.on R.CADENCE.CTRL.FIXED = false → s.on R.CADENCE.CTRL.GOV_EN = true → s.on R.DEAL.STATUS.FWD = true →
        s.on R.CADENCE.STATUS.BOOST = false → 1240 ≤ s.cad.v → s.cad.v ≤ top → s.RunsTo .governorLoop fun u =>
      1240 ≤ u.cad.v ∧ u.cad.v ≤ top ∧ u.cad.v ≤ s.cad.v + 2 * s.eff R.CADENCE.LOOP.STEP_MAX ∧
      s.cad.v ≤ u.cad.v + 2 * s.eff R.CADENCE.LOOP.STEP_MAX ∧
      (∀ c, (∀ n, n < 4 → c ≤ s.fld (R.CADENCE.LIVE_Pn.CAPACITY n)) → (∃ n, n < 4 ∧ c = s.fld (R.CADENCE.LIVE_Pn.CAPACITY n)) →
        s.goal2 = 2 * c → u.cad.v = s.cad.v)) ∧
    (let low := s.fld R.POWER.VIN.MV < 10500 ∧ s.sup.vinPresent = true
     let w := s.fld R.POWER.PIN.CW
     s.RunsTo .ceilingAdjust fun u => u.fld R.CADENCE.VCORE.CEILING = max 620 (850 - max u.cad.powDrop s.thermDrop) ∧
      (low → 4000 < w → u.cad.powDrop = min 230 (s.cad.powDrop + 5)) ∧ (low → 3800 ≤ w → w ≤ 4000 → u.cad.powDrop = s.cad.powDrop) ∧
      (¬ low ∨ w < 3800 → u.cad.powDrop = s.cad.powDrop - 5) ∧ u.isPresent 37 = decide (u.cad.powDrop ≠ 0)) ∧
    (s.on R.CADENCE.STATUS.BOOST = true → s.isDue .boost = true → s.fifosFull = false → s.RunsTo .boostEnd fun u =>
      u.on R.CADENCE.STATUS.BOOST = false ∧ u.dueAt .boost = none) ∧
    (∀ n t, n < 4 → s.cad.spreadAt.get none n = some t → t + msec 1 ≤ s.now → s.RunsTo .metroSpreadFault fun u =>
      u.isSticky 34 = true ∧ u.on R.CADENCE.STICKY.METRO_SPREAD = true) ∧
    (s.RunsTo (.vcoreRangeFault mv) fun u => u.isPresent 35 = decide (mv < 600 ∨ 870 < mv) ∧
      (mv < 600 ∨ 870 < mv → u.isSticky 35 = true) ∧ u.fld R.CADENCE.VCORE.VCORE = mv % 2 ^ 10)

/-- R521, R522, R528-R533, R535, R542: the end of a DRAM request with or without an error, refreshes and their postponement, the bands,
MR4, calibration, the patrol scrub and the rate of corrected errors. -/
def Obligations.DramCommandsComplete : Prop :=
  ∀ (port : Nat) (a : Addr) (c : Fin 8) (ch : Fin 32) (rate : BitVec 5) (tj : Int) (s : State), s.Settled →
    let k := s.ctrlOf a.toNat
    (dramBase ≤ a.toNat → a.toNat < s.dramEnd → 5 ≤ port →
      (s.Runs (.dramRequestComplete port a 0) fun u => u = s) ∧
      (s.Runs (.dramRequestComplete port a 1) fun u => s.Counts u (R.DRAM.CE_COUNT.COUNT k) 1 ∧ a.toNat / 64 ∈ u.dram.soft) ∧
      (s.Runs (.dramRequestComplete port a 2) fun u => s.Counts u (R.DRAM.RD_RETRIES.COUNT k) 1 ∧ s.OnlyRegs u [R.DRAM.RD_RETRIES.COUNT k]) ∧
      (s.RunsTo (.dramRequestComplete port a 3) fun u => s.Counts u (R.DRAM.UE_COUNT.COUNT k) 1 ∧ u.isSticky (224 + k) = true ∧
        u.isPend (184 + k) = true ∧ u.fld (R.DRAM.UE_ADDR_LO.ADDR k) = a.toNat % 2 ^ 32 ∧ a.toNat / 64 ∈ u.dram.hard)) ∧
    (dramBase ≤ a.toNat → a.toNat < s.dramEnd → port < 5 → s.RunsTo (.dramRequestComplete port a 0) fun u =>
      u.dram.queue.get 0 port = s.dram.queue.get 0 port - 1) ∧
    (s.anyPanic = true → s.fld (R.DRAM.STATUS.POSTPONED c) < 8 → s.Runs (.refreshDue c true) fun u =>
      u.fld (R.DRAM.STATUS.POSTPONED c) = s.fld (R.DRAM.STATUS.POSTPONED c) + 1 ∧ s.OnlyRegs u [R.DRAM.STATUS.POSTPONED c]) ∧
    (s.anyPanic = true → 8 ≤ s.fld (R.DRAM.STATUS.POSTPONED c) → s.RunsTo (.refreshDue c true) fun u => u.isSticky 233 = true ∧
      s.Counts u (R.DRAM.REFRESH_FORCED.COUNT c) 1 ∧ u.fld (R.DRAM.STATUS.POSTPONED c) = 0) ∧
    (∀ b, b < 5 → s.anyPanic = false → s.dram.want.get 0 c = b + 1 →
      (s.Runs (.refreshDue c true) fun u => u.fld (R.DRAM.STATUS.BAND c) = b ∧ s.Counts u (R.DRAM.BAND_SWITCHES.COUNT c) 1 ∧
        u.isPend 194 = true ∧ u.dram.want.get 0 c = 0) ∧
      (s.RunsTo (.refreshDue c false) fun u => u.fld (R.DRAM.STATUS.BAND c) = s.fld (R.DRAM.STATUS.BAND c) ∧
        u.on (R.DRAM.STICKY.BAND_MISSED c) = true ∧ u.isSticky 234 = true ∧ u.dueAt (.bandRetry c) = some (s.now + secs 1))) ∧
    (s.RunsTo (.bandTaskTick tj) fun u =>
      u.dram.band = (if bandHi s.dram.band + 30 ≤ tj ∧ s.dram.band < 4 then s.dram.band + 1
        else if tj ≤ bandLo s.dram.band - 30 ∧ 0 < s.dram.band then s.dram.band - 1 else s.dram.band) ∧
      (tj < -430 ∨ 1280 < tj → u.isSticky 234 = true) ∧
      ∀ m, m < 8 → s.fld (R.DRAM.STATUS.BAND m) ≠ u.dram.band → s.dueAt (.bandRetry m) = none → u.dram.want.get 0 m = u.dram.band + 1) ∧
    (s.Runs (.mr4Read ch rate) fun u => u.dram.mr4.get 0 ch = rate.toNat ∧ u = { s with dram := { s.dram with mr4 := u.dram.mr4 } }) ∧
    (s.Runs (.zqCalibration c true) fun u => u.on (R.DRAM.STATUS.PHY_OK c) = true ∧ s.OnlyRegs u [R.DRAM.STATUS.PHY_OK c]) ∧
    (s.RunsTo (.zqCalibration c false) fun u => u.on (R.DRAM.STATUS.PHY_OK c) = false ∧ u.isSticky 236 = true) ∧
    (let b := dramBase / 64 + s.dram.scrubAt
     let j := s.ctrlOf (64 * b)
     s.eff R.DRAM.SCRUB.HOURS ≠ 0 → s.anyPanic = false → s.dram.scrubAt + 1 < s.dramBlocks →
      (b ∉ s.dram.hard → b ∉ s.dram.soft → s.Runs (.scrubBlock 0) fun u =>
        u = { s with dram := { s.dram with scrubAt := s.dram.scrubAt + 1 } }) ∧
      (b ∉ s.dram.hard → s.Runs (.scrubBlock 1) fun u => s.Counts u (R.DRAM.SCRUB_CE.COUNT j) 1 ∧ b ∉ u.dram.soft ∧
        u.dram.scrubAt = s.dram.scrubAt + 1) ∧
      (s.RunsTo (.scrubBlock 2) fun u => s.Counts u (R.DRAM.SCRUB_UE.COUNT j) 1 ∧ u.isSticky 235 = true ∧ b ∈ u.dram.hard)) ∧
    (s.eff R.DRAM.SCRUB.HOURS ≠ 0 → s.anyPanic = false → s.dramBlocks ≤ s.dram.scrubAt + 1 → s.RunsTo (.scrubBlock 0) fun u =>
      u.dram.scrubAt = 0 ∧ s.Counts u R.DRAM.SCRUB_PASSES.COUNT 1 ∧ u.isPend 195 = true) ∧
    (s.RunsTo .ceRateCheck fun u => ∀ m, m < 8 → u.dram.ceMark.get 0 m = s.fld (R.DRAM.CE_COUNT.COUNT m) ∧
      (s.eff R.DRAM.CE_TH.COUNT < (s.fld (R.DRAM.CE_COUNT.COUNT m) + 2 ^ 32 - s.dram.ceMark.get 0 m) % 2 ^ 32 →
        u.on (R.DRAM.STICKY.CE_TH_SEEN m) = true ∧ u.isPend 198 = true ∧ u.isSticky 237 = true))

/-! ## The flow engine -/

/-- R245-R247, R249, R250, R262, R281, R283: a lookup whose reads complete ends with its result, starts its retry, or inserts a record; the
retry, the deadline, the peek, and the sampling and deferring of inserts under panic. -/
def Obligations.FlowLookupsComplete : Prop :=
  ∀ (x : Nat) (i : Fin 4) (who : Who) (s : State), s.Settled →
    (∀ e m r, s.headOf x = some e → e.look = .reading m r → (∀ y ∈ s.pipe.stage.flatMap (·.2), y.look ≠ .merged x) →
      s.bit R.FLOW.CTRL.SLICE_EN (sliceOf e.key) = true →
      let t := (s.rtDone (sliceOf e.key) 2).findKey e.key e.prof
      let mode := bitsOf (s.prof e.prof) 505 2
      (∀ res j, t.2 = some (res, j) → s.RunsTo (.flowDramReadComplete x) fun u =>
        s.Counts u (R.FLOW.RESULT_r.COUNT res) 1 ∧ ∃ e', u.headOf x = some e' ∧ e'.look = .ended res) ∧
      (t.2 = none → m = true → r = false → s.Runs (.flowDramReadComplete x) fun u => u.headOf x = some { e with look := .retry }) ∧
      (∀ f, t.2 = none → ¬ (m = true ∧ r = false) → s.frame x = some f →
        (mode ≠ 1 → ¬ (mode = 2 ∧ f.parsed.hits.testBit (bitsOf (s.prof e.prof) 499 6) = true) →
          s.RunsTo (.flowDramReadComplete x) fun u => s.Counts u (R.FLOW.RESULT_r.COUNT 5) 1 ∧
            ∃ e', u.headOf x = some e' ∧ e'.look = .ended 5) ∧
        (∀ q rest, sliceOf e.key < 4 → mode = 1 → profKind (s.prof e.prof) = 0 → s.poisoned (bucketA e.key) = false →
            s.poisoned (bucketB e.key) = false → s.hasRoom (sliceOf e.key) = true → s.deferring (sliceOf e.key) = false →
            (s.slc (sliceOf e.key)).free = q :: rest → s.RunsTo (.flowDramReadComplete x) fun u =>
          s.Counts u (R.FLOW.RESULT_r.COUNT 2) 1 ∧ (∃ e', u.headOf x = some e' ∧ e'.look = .ended 2) ∧
            (u.slc (sliceOf e.key)).free = rest ∧ s.Counts u (R.FLOW.SLICE_s_RECORDS.COUNT (sliceOf e.key)) 1 ∧
            (u.slc (sliceOf e.key)).stash = (s.slc (sliceOf e.key)).stash ++
              [{ fp := fingerprint e.key, index := q, a := bucketA e.key, b := bucketB e.key, prof := e.prof }]))) ∧
    (∀ e, s.headOf x = some e → e.look = .retry → s.RunsTo (.flowLookupRetry x) fun u =>
      u.headOf x = some { e with look := .reading false true } ∧ s.Counts u R.FLOW.RESULT_RETRIED.COUNT 1 ∧
        u.dram.queue.get 0 (sliceOf e.key) = min 256 (s.dram.queue.get 0 (sliceOf e.key) + 2)) ∧
    (∀ e, s.headOf x = some e → e.look ≠ .none → (∀ r, e.look ≠ .ended r) →
      (e.since + usec (s.eff R.FLOW.CFG.DEADLINE) ≤ s.now → (∀ y ∈ s.pipe.stage.flatMap (·.2), y.look ≠ .merged x) →
        s.bit R.FLOW.CTRL.SLICE_EN (sliceOf e.key) = true → s.Runs (.flowDeadline x) fun u =>
          s.Counts u (R.FLOW.RESULT_r.COUNT 7) 1 ∧ ∃ e', u.headOf x = some e' ∧ e'.look = .ended 7) ∧
      (s.now < e.since + usec (s.eff R.FLOW.CFG.DEADLINE) → s.Runs (.flowDeadline x) fun u => u = s)) ∧
    (s.Runs (.flowPeekRead who) fun u => 
      u.flow.peek = (if s.fld R.FLOW.PEEK_INDEX.INDEX < 4 * s.perSlice then s.record (s.fld R.FLOW.PEEK_INDEX.INDEX) else []) ∧
        u = { s with flow := { s.flow with peek := u.flow.peek } }) ∧
    (s.bit R.FLOW.STATUS.PANIC i = true → s.nOf i < s.eff R.FLOW.SAMPLE_CFG.N_MAX →
      (s.slc i).nAt + 1000 * s.eff R.FLOW.SAMPLE_CFG.STEP ≤ s.mono → s.Runs (.sampleStepTimer i) fun u =>
        s.Counts u (R.FLOW.SAMPLE_STATE.LOG2N i) 1 ∧ (u.slc i).c = 0 ∧ (u.slc i).nAt = s.mono ∧ s.RegsBut u [R.FLOW.SAMPLE_STATE.LOG2N i]) ∧
    (s.bit R.FLOW.STATUS.PANIC i = false → 1 < s.nOf i →
      max (s.slc i).calmAt (s.slc i).nAt + 1000 * s.eff R.FLOW.SAMPLE_CFG.RELAX ≤ s.mono → s.Runs (.sampleRelaxTimer i) fun u =>
        u.fld (R.FLOW.SAMPLE_STATE.LOG2N i) + 1 = s.fld (R.FLOW.SAMPLE_STATE.LOG2N i) ∧ (u.slc i).c = 0 ∧
          s.RegsBut u [R.FLOW.SAMPLE_STATE.LOG2N i]) ∧
    (∀ t, (s.slc i).panicAt = some t → t + 1000 * s.eff R.FLOW.DEFER_CFG.DEFER_AFTER ≤ s.mono →
      s.nOf i = s.eff R.FLOW.SAMPLE_CFG.N_MAX → s.deferring i = false → s.RunsTo (.insertDeferStart i) fun u =>
        u.deferring i = true ∧ s.Counts u R.FLOW.DEFER_EPISODES.COUNT 1 ∧ u.isSticky 210 = true)

/-- R249, R252, R256-R258, R260, R269: a twin is inserted or lost, a stash entry is placed, free indexes come from the bitmap, a cached
record is written back, the sweeper visits a bucket, and an expiry takes its turn. -/
def Obligations.FlowRecordsComplete : Prop :=
  ∀ (i : Fin 4) (set : Fin 4096) (way : Fin 8) (flush : Bool) (r : BitVec 27) (s : State), s.Settled →
    (∀ t rest, s.flow.twins = t :: rest → sliceOf t.key < 4 → t.fwd < 4 * s.perSlice →
      let j := sliceOf t.key
      let lost := 4096 ≤ (s.slc j).stash.length ∨ s.perSlice ≤ s.fld (R.FLOW.SLICE_s_RECORDS.COUNT j) ∨
        s.bit R.FLOW.CTRL.SLICE_EN j = false ∨ s.bit R.FLOW.STATUS.SLICE_QUIESCED j = true ∨ s.poisoned (bucketA t.key) = true ∨
        s.poisoned (bucketB t.key) = true ∨ s.keyPresent t.key (beAt t.key 0 1) = true
      (lost → s.RunsTo .twinInsert fun u => s.Counts u R.FLOW.TWIN_LOST.COUNT 1 ∧ u.isSticky 212 = true ∧
        u.flow.twins = rest.filter fun w => decide (w.fwd ≠ t.fwd)) ∧
      (¬ lost → (s.slc j).free = [] → s.Runs .twinInsert fun u => u = s) ∧
      (∀ q free, ¬ lost → (s.slc j).free = q :: free → s.RunsTo .twinInsert fun u => u.flow.twins = rest ∧ (u.slc j).free = free ∧
        s.Counts u (R.FLOW.SLICE_s_RECORDS.COUNT j) 1 ∧ (u.slc j).stash.length = (s.slc j).stash.length + 1)) ∧
    (∀ e rest, (s.slc i).stash = e :: rest → (s.slc i).stuck = false →
      let sound (b : Nat) : Prop := s.poisoned b = false ∧ s.badBucket b = false ∧ b ∉ s.retryBuckets
      (∀ k, sound e.a → s.freeSlot e.a = some k → s.RunsTo (.flowPlace i) fun u =>
        u.slot e.a k = mkSlot e.fp e.index e.b e.prof % 2 ^ 128 ∧ (u.slc i).stash = rest) ∧
      (∀ k, s.freeSlot e.a = none → sound e.b → s.freeSlot e.b = some k → s.RunsTo (.flowPlace i) fun u =>
        u.slot e.b k = mkSlot e.fp e.index e.a e.prof % 2 ^ 128 ∧ (u.slc i).stash = rest) ∧
      ((s.chain (s.eff R.FLOW.CFG.RELOC_DEPTH) [e.a] e.a).2 = none → (s.chain (s.eff R.FLOW.CFG.RELOC_DEPTH) [e.b] e.b).2 = none →
        s.RunsTo (.flowPlace i) fun u => s.Counts u R.FLOW.RELOC_FAIL.COUNT 1 ∧ (u.slc i).stuck = true ∧ u.mem = s.mem)) ∧
    ((s.slc i).stuck = true → s.Runs (.flowPlace i) fun u => u = s) ∧
    (s.Runs (.freeIndexRefill i) fun u => ∃ l, (u.slc i).free = (s.slc i).free ++ l ∧
      l.length ≤ 1024 - (s.slc i).free.length ∧
      (∀ n ∈ l, i * s.perSlice ≤ n ∧ n < (i + 1) * s.perSlice ∧ s.inUse n = false ∧ u.inUse n = true) ∧
      (l.length = 1024 - (s.slc i).free.length ∨ ∀ n, i * s.perSlice ≤ n → n < (i + 1) * s.perSlice → u.inUse n = true) ∧
      ∀ n, n ∉ l → u.inUse n = s.inUse n) ∧
    (let k := i.val * 32768 + set.val * 8 + way.val
     s.Runs (.flowCacheWriteback i set way) fun u => u.flow.cache.get none k = none ∧
      (∀ m, m ≠ k → u.flow.cache.get none m = s.flow.cache.get none m) ∧
      (∀ c, s.flow.cache.get none k = some c → c.dirty = true → s.Holds u (recordAddr c.index) c.bytes) ∧
      (∀ c, s.flow.cache.get none k = some c → c.dirty = false → u.mem = s.mem)) ∧
    (s.bit R.FLOW.STATUS.PANIC i = true → s.Runs (.sweeperVisit i flush) fun u => u = s) ∧
    (s.bit R.FLOW.STATUS.PANIC i = false →
      (s.on R.FLOW.CTRL.SWEEP_EN = false → s.Runs (.sweeperVisit i false) fun u => u = s) ∧
      (s.on R.FLOW.CTRL.SWEEP_EN = true → s.passOn i = false → s.Runs (.sweeperVisit i false) fun u => u = s) ∧
      (s.on R.FLOW.CTRL.SWEEP_EN = true → s.passOn i = true → s.RunsTo (.sweeperVisit i false) fun u =>
        (u.slc i).sweep = ((s.slc i).sweep + 1) % 2 ^ 23 ∧
        (let b := i * 2 ^ 23 + (s.slc i).sweep
         s.poisoned b = false → s.dram.hard = [] → (∀ k, k < 4 → slotState (s.slot b k) ≤ 1) → ∀ k, k < 4 →
          slotState (s.slot b k) = 1 → s.expiryDue (slotRec (s.slot b k)) ≠ 0 →
          ∃ e ∈ (u.slc (s.sliceOfRec (slotRec (s.slot b k)))).expiries, e.index = slotRec (s.slot b k))) ∧
      ((s.slc i).flush = none → s.Runs (.sweeperVisit i true) fun u => u = s) ∧
      (∀ n m, (s.slc i).flush = some (n, m) → n + 1 < 2 ^ 23 → s.RunsTo (.sweeperVisit i true) fun u =>
        (u.slc i).flush = some (n + 1, m) ∧
        (let b := i * 2 ^ 23 + n
         s.poisoned b = false → s.dram.hard = [] → (∀ k, k < 4 → slotState (s.slot b k) ≤ 1) → ∀ k, k < 4 →
          slotState (s.slot b k) = 1 → m.testBit (slotProf (s.slot b k)) = true →
          ∃ e ∈ (u.slc (s.sliceOfRec (slotRec (s.slot b k)))).expiries, e.index = slotRec (s.slot b k) ∧ e.forced = true)) ∧
      (∀ n m, (s.slc i).flush = some (n, m) → 2 ^ 23 ≤ n + 1 → s.RunsTo (.sweeperVisit i true) fun u => (u.slc i).flush = none)) ∧
    (let n := r.toNat
     let j := s.sliceOfRec n
     let w := (s.slc j).expiries.find? fun e => decide (e.index = n)
     (w = none → s.Runs (.flowExpiry r) fun u => u = s) ∧
     (∀ e, w = some e →
       (s.inTable n = false ∨ (e.forced = false ∧ s.expiryDue n = 0) → s.Runs (.flowExpiry r) fun u =>
         (u.slc j).expiries = (s.slc j).expiries.filter (fun x => decide (x.index ≠ n)) ∧ u.mem = s.mem) ∧
       (n < 4 * s.perSlice → e.forced = true → 1 ≤ e.reason → e.reason ≤ 5 → s.inTable n = true →
         (profExport (s.recProf n) = false ∨ s.on R.FLOW.CTRL.EXPORT_EN = false ∨ e.reason = 5 → s.RunsTo (.flowExpiry r) fun u =>
           s.Counts u (R.FLOW.EXPIRED_r.COUNT (e.reason - 1)) 1 ∧ u.inUse n = false ∧
           u.fld (R.FLOW.SLICE_s_RECORDS.COUNT j) = s.fld (R.FLOW.SLICE_s_RECORDS.COUNT j) - 1 ∧ u.flow.exportSeq = s.flow.exportSeq) ∧
         (profExport (s.recProf n) = true → s.on R.FLOW.CTRL.EXPORT_EN = true → e.reason ≠ 5 →
           (s.openExport = none → s.RunsTo (.flowExpiry r) fun u => u.flow.exportWait = some (s.flow.exportWait.getD s.now) ∧
             u.mem = s.mem ∧ u.flow.slices = s.flow.slices ∧ (s.flow.exportWait ≠ none ∨ s.svc.openBatch ≠ none →
               u = { s with flow := { s.flow with exportWait := some (s.flow.exportWait.getD s.now) } })) ∧
           (∀ a, s.svc.openBatch = some a → s.flow.batch < 64 →
             (s.flow.batchDue = true → s.hwRoom (s.eff R.FLOW.EXPORT.CHANNEL) 2 = true) → s.RunsTo (.flowExpiry r) fun u =>
             s.Counts u (R.FLOW.EXPIRED_r.COUNT (e.reason - 1)) 1 ∧ u.inUse n = false ∧ u.flow.batch = s.flow.batch + 1 ∧
             u.flow.exportSeq = s.flow.exportSeq + 1)))))

/-- R253, R255, R259, R260: an export batch is sent, becomes due or stalls; KILL and FLUSH ask for expiries; a cache half and a slice are
disabled, a slice is enabled and its rebuild ends. -/
def Obligations.FlowExportAndSwitches : Prop :=
  ∀ (i : Fin 4) (h : Fin 2) (r : BitVec 27) (all : Bool) (p : Fin 16) (who : Who) (s : State), s.Settled →
    (let ch := s.eff R.FLOW.EXPORT.CHANNEL
     (∀ a, s.svc.openBatch = some a → 0 < s.flow.batch → (64 ≤ s.flow.batch ∨ s.flow.batchDue = true) →
      (s.hwRoom ch 2 = true → s.Runs .exportBatchSend fun u => u.svc.openBatch = none ∧ u.flow.batch = 0 ∧ u.flow.batchDue = false ∧
        s.Counts u R.FLOW.EXPORT_BATCHES.COUNT 1 ∧ (u.chan ch).msgs = (s.chan ch).msgs ++
          [{ words := [BitVec.ofNat 64 a, BitVec.ofNat 64 (s.flow.batchSeq % 2 ^ 32 * 2 ^ 32 + s.flow.batch)], hw := true }]) ∧
      (s.hwRoom ch 2 = false → s.Runs .exportBatchSend fun u =>
        u = { s with flow := { s.flow with exportWait := some (s.flow.exportWait.getD s.now) } })) ∧
     (s.svc.openBatch = none ∨ s.flow.batch = 0 ∨ (s.flow.batch < 64 ∧ s.flow.batchDue = false) → s.Runs .exportBatchSend fun u => u = s)) ∧
    (s.Runs .exportFlushTimer fun u => u = { s with flow := { s.flow with batchDue := u.flow.batchDue } } ∧
      (u.flow.batchDue = true ↔ s.flow.batchDue = true ∨
        (0 < s.flow.batch ∧ s.flow.batchAt + msec (s.eff R.FLOW.EXPORT.FLUSH) ≤ s.now))) ∧
    (∀ t, s.flow.exportWait = some t →
      (t + msec (s.eff R.FLOW.EXPORT_STALL.TIME) < s.now → s.RunsTo .exportStall fun u => u.isSticky 205 = true ∧ u.isPend 126 = true) ∧
      (s.now ≤ t + msec (s.eff R.FLOW.EXPORT_STALL.TIME) → s.Runs .exportStall fun u => u = s)) ∧
    (s.flow.exportWait = none → s.Runs .exportStall fun u => u = s) ∧
    (s.inTable r.toNat = true → s.Runs (.flowKill who r) fun u => s.OnlyRegs { u with flow := s.flow } [] ∧
      ∃ e ∈ (u.slc (s.sliceOfRec r.toNat)).expiries, e.index = r.toNat ∧ e.forced = true) ∧
    (s.inTable r.toNat = false → s.Runs (.flowKill who r) fun u => u = s) ∧
    (s.Runs (.flowFlush who all p) fun u => u.on R.FLOW.STATUS.FLUSH_BUSY = true ∧ s.RegsBut u [R.FLOW.STATUS.FLUSH_BUSY] ∧
      ∀ k, k < 4 → (u.slc k).flush = some (0, (match (s.slc k).flush with
        | some e => e.2
        | none => 0) ||| (if all then 0xFFFF else 2 ^ p.val))) ∧
    (s.bit R.FLOW.CTRL.CACHE_EN h = true → s.Runs (.flowCacheHalfDisable who h) fun u =>
      u.bit R.FLOW.CTRL.CACHE_EN h = false ∧ u.bit R.FLOW.STATUS.CACHE_QUIESCED h = true ∧
      (∀ k, k % 8 / 4 = h.val → u.flow.cache.get none k = none) ∧
      (∀ k, k % 8 / 4 ≠ h.val → u.flow.cache.get none k = s.flow.cache.get none k) ∧
      ((∀ k c, s.flow.cache.get none k = some c → c.bytes.length = 128) →
        s.RegsBut u [R.FLOW.CTRL.CACHE_EN, R.FLOW.STATUS.CACHE_QUIESCED])) ∧
    (s.bit R.FLOW.CTRL.SLICE_EN i = true → s.bit R.FLOW.STATUS.SLICE_QUIESCED i = false →
      (s.inFlight i = [] → s.RunsTo (.flowSliceDisable who i) fun u => u.bit R.FLOW.CTRL.SLICE_EN i = false ∧
        u.bit R.FLOW.STATUS.SLICE_QUIESCED i = true) ∧
      (s.inFlight i ≠ [] → s.Runs (.flowSliceDisable who i) fun u => u.bit R.FLOW.CTRL.SLICE_EN i = false ∧
        s.OnlyRegs { u with due := s.due } [R.FLOW.CTRL.SLICE_EN] ∧ (u.dueAt (.quiesceAck (137 + i))).isSome = true)) ∧
    (s.bit R.FLOW.CTRL.SLICE_EN i = false → s.bit R.FLOW.STATUS.SLICE_QUIESCED i = true →
      s.Runs (.flowSliceEnable who i) fun u => u.bit R.FLOW.CTRL.SLICE_EN i = true ∧ (u.slc i).rebuilding = true ∧
        (u.slc i).free = [] ∧ (u.slc i).stash = [] ∧ s.OnlyRegs { u with flow := s.flow, mem := s.mem, dram := s.dram } [R.FLOW.CTRL.SLICE_EN] ∧
        ∀ x, bucketBase + i * 2 ^ 29 ≤ x → x < bucketBase + (i + 1) * 2 ^ 29 → u.byteAt x = 0) ∧
    ((s.slc i).rebuilding = true → s.Runs (.flowSliceRebuildDone i) fun u => (u.slc i).rebuilding = false ∧
      u.bit R.FLOW.STATUS.SLICE_QUIESCED i = !s.bit R.FLOW.CTRL.SLICE_EN i ∧ s.RegsBut u [R.FLOW.STATUS.SLICE_QUIESCED])

/-! ## The Nelyan links -/

/-- R365-R368, R377: a block of 512 bytes from the line: its CRC, its type, its tag, its acknowledgement and its sequence number; a
handshake fragment, an ACK block, a DATA block in and out of sequence, and a FOLD block. -/
def Obligations.LinkBlocksAreReceived : Prop :=
  ∀ (n : Fin 8) (b : List Byte) (s : State), s.Settled →
    let l := s.link_ n
    let st := s.linkState n
    let h := ofBe (b.take 16)
    let typ := bitsOf h 124 4
    let fill := bitsOf h 31 9
    let key := l.rxKey.get [] (bitsOf h 120 1)
    let m := near24 (if typ = 0 then l.rxN else l.rxCtl) (bitsOf h 96 24)
    let opened := if key = [] then none
      else gcmOpen (key.take 32) (key.drop 32 ++ beBytes 8 (if typ = 0 then m else 2 ^ 63 + m)) (b.take 16) (slice b 16 476) (slice b 492 16)
    let sound := ofBe (b.drop 508) = crc32c (b.take 508)
    (b.length ≠ 512 ∨ st = 0 → s.Runs (.nelyanBlockReceive n b) fun u => u = s) ∧
    (b.length = 512 → st ≠ 0 →
      (¬ sound → s.Runs (.nelyanBlockReceive n b) fun u => s.Counts u (R.NLINK.CRC_ERR.COUNT n) 1 ∧
        s.OnlyRegs { u with nel := s.nel } [R.NLINK.CRC_ERR.COUNT n] ∧ (typ ≠ 0 → u.link_ n = l) ∧
        (typ = 0 → u.link_ n = { l with fmGap := true, fmDue := l.fmDue || !l.fmGap })) ∧
      (sound → 5 ≤ typ → s.Runs (.nelyanBlockReceive n b) fun u => s.Counts u (R.NLINK.BAD_TYPE.COUNT n) 1 ∧
        s.OnlyRegs u [R.NLINK.BAD_TYPE.COUNT n]) ∧
      (sound → typ = 2 → s.Runs (.nelyanBlockReceive n b) fun u => s.Counts u (R.NLINK.RX_BLOCKS.COUNT n) 1 ∧
        s.OnlyRegs { u with nel := s.nel } [R.NLINK.RX_BLOCKS.COUNT n] ∧
        (beAt b 17 1 = 0 → beAt b 18 1 = 1 → (u.link_ n).inbox = l.inbox ++ [(beAt b 16 1, slice (slice b 16 476) 6 (beAt b 20 2))])) ∧
      (sound → typ < 5 → typ ≠ 2 → opened = none → l.authRun < 15 → s.Runs (.nelyanBlockReceive n b) fun u =>
        s.Counts u (R.NLINK.AUTH_FAIL.COUNT n) 1 ∧ u.on (R.NLINK.STICKY.AUTH_FAIL_SEEN n) = true ∧ (u.link_ n).authRun = l.authRun + 1 ∧
          (u.link_ n).rxN = l.rxN ∧ s.RegsBut u [R.NLINK.AUTH_FAIL.COUNT n, R.NLINK.STICKY.AUTH_FAIL_SEEN n]) ∧
      (sound → typ < 5 → typ ≠ 2 → opened = none → 15 ≤ l.authRun → s.inSession n = true → s.RunsTo (.nelyanBlockReceive n b) fun u =>
        u.linkState n = (if s.on (R.NLINK.CTRL.EN n) = true ∧ s.mayShake n = true then 2 else 1) ∧ u.fld (R.NLINK.STATE.LAST_CAUSE n) = 4 ∧ u.isSticky (152 + n) = true ∧ u.isPend (128 + n) = true) ∧
      (∀ p, sound → opened = some p → bitOf h 71 = false →
        (typ = 1 → fill = 0 → s.Runs (.nelyanBlockReceive n b) fun u =>
          u.linkState n = (if 2 ≤ st ∧ st ≤ 4 then 3 else st) ∧ (u.link_ n).authRun = 0 ∧ (u.link_ n).seenAt = s.now ∧
          (u.link_ n).rxCtl = m + 1 ∧ (2 ≤ st → st ≤ 4 → s.Counts u (R.NLINK.RX_BLOCKS.COUNT n) 1) ∧
          (st = 2 → s.Counts u (R.NLINK.SESSIONS.COUNT n) 1 ∧ u.on (R.NLINK.STICKY.UP_SEEN n) = true ∧ u.isPend (128 + n) = true) ∧
          (st = 2 ∨ st = 3 → (u.link_ n).unacked = l.unacked.dropWhile fun x => covers (bitsOf h 72 24) x.n)) ∧
        (typ = 0 → st = 3 → m ≠ l.rxN → s.Runs (.nelyanBlockReceive n b) fun u => s.Counts u (R.NLINK.OUT_OF_SEQ.COUNT n) 1 ∧
          (u.link_ n).rxN = l.rxN ∧ (u.link_ n).fmGap = true ∧ ((u.link_ n).fmDue = true ↔ l.fmDue = true ∨ l.fmGap = false)) ∧
        (typ = 0 → st = 3 → m = l.rxN →
          let c := bitsOf h 121 3
          let q := p.take fill
          let u0 := l.unpack.getD { bytes := [], frame := none, refused := false }
          (q = [] ∨ (u0.bytes ++ q).length < 8 → s.Runs (.nelyanBlockReceive n b) fun u => s.Counts u (R.NLINK.RX_BLOCKS.COUNT n) 1 ∧
            (u.link_ n).rxN = l.rxN + 1 ∧ (u.link_ n).owesAck = true ∧ (u.link_ n).fmGap = false ∧
            (u.link_ n).got.get 0 c = (l.got.get 0 c + 1) % 2 ^ 24 ∧
            (u.link_ n).unpack = if q = [] then l.unpack else some { u0 with bytes := u0.bytes ++ q })) ∧
        (typ = 3 → st = 3 → s.RunsTo (.nelyanBlockReceive n b) fun u => u.linkState n = 6 ∧ u.fld (R.NLINK.STATE.LAST_CAUSE n) = 6 ∧
          u.isSticky (152 + n) = true ∧ u.isPend (128 + n) = true)))

/-- R363, R366, R367, R370, R374-R379: what the link controller sends, the re-sending after ACK_TO, the repeat of FM, block lock, the
stop of a link, the ends of a stop and of a handshake, the handshake's messages, and the start of a rekey. -/
def Obligations.LinkControllerCompletes : Prop :=
  ∀ (n : Fin 8) (rd : Fin 3) (k : Nat) (rtt : BitVec 24) (s : State), s.Settled →
    let l := s.link_ n
    let st := s.linkState n
    let lane := R.LANE.STATUS.LOCK (48 + n)
    let due (since wait : Nat) : Prop := since + wait ≤ s.now
    let live := s.on R.FAULT.STATE.FOLD = false
    let again := s.on (R.NLINK.CTRL.EN n) = true ∧ s.mayShake n = true
    let closes (c : Instr) (cause : Nat) : Prop := s.RunsTo c fun u => u.linkState n = (if again then 2 else 1) ∧
      u.fld (R.NLINK.STATE.LAST_CAUSE n) = cause ∧ u.on (R.NLINK.STICKY.DOWN_SEEN n) = true ∧ u.isSticky (152 + n) = true ∧
      (u.link_ n).unacked = [] ∧ (u.link_ n).txKey = []
    (∀ p t, live → l.outbox = (2, p) :: t → st = 2 ∨ st = 5 → s.Runs (.nelyanBlockSend n rd k) fun u =>
      (u.link_ n).wire = withCrc (blockHeader 2 0 0 0 (l.rxN + 2 ^ 24 - 1) l.fmDue l.turn
          (l.got.get 0 l.turn + s.eff (R.NLINK.SHARE_k.BLOCKS n l.turn)) p.length 511 ++ pad476 p ++ List.replicate 16 0) ∧
        (u.link_ n).outbox = t ∧ s.Counts u (R.NLINK.TX_BLOCKS.COUNT n) 1 ∧ s.RegsBut u [R.NLINK.TX_BLOCKS.COUNT n]) ∧
    (¬ live → s.Runs (.nelyanBlockSend n rd k) fun u => u = s) ∧
    (st ≠ 2 → st ≠ 3 → l.outbox = [] → s.Runs (.nelyanBlockSend n rd k) fun u => u = s) ∧
    (live → st = 3 → 2 ^ 30 ≤ l.sealedN → l.rewind = none → l.outbox = [] → closes (.nelyanBlockSend n rd k) 5) ∧
    (live → st = 3 → l.outbox = [] → l.sealedN < 2 ^ 30 → l.rewind = none →
      (s.nextCls n = none → s.Runs (.nelyanBlockSend n rd k) fun u =>
        (u.link_ n).wire = s.sealed n 1 0 (2 ^ 63 + l.txCtl) 0 511 [] ∧ (u.link_ n).txCtl = l.txCtl + 1 ∧ (u.link_ n).sealedN = l.sealedN + 1 ∧
        (u.link_ n).owesAck = false ∧ (u.link_ n).txN = l.txN ∧ s.Counts u (R.NLINK.TX_BLOCKS.COUNT n) 1) ∧
      (∀ q, l.packing = some q → 476 < q.left.length → s.on (R.NLINK.CTRL.EN n) = true → s.credit n q.cls = true →
          l.unacked.length < s.window n → s.on (R.NLINK.STATE.LONG_WINDOW n) = false → s.Runs (.nelyanBlockSend n rd k) fun u =>
        (u.link_ n).txN = l.txN + 1 ∧ (u.link_ n).packing = some { q with left := q.left.drop 476 } ∧
        (u.link_ n).unacked = l.unacked ++
          [{ n := l.txN, bytes := (u.link_ n).wire, attempts := 1, sentAt := s.now, starts := [], cont := q.src, ends := 0 }] ∧
        (u.link_ n).sent.get 0 q.cls = (l.sent.get 0 q.cls + 1) % 2 ^ 24 ∧ s.Counts u (R.NLINK.TX_BLOCKS.COUNT n) 1)) ∧
    (∀ m b, live → st = 3 → l.outbox = [] → l.rewind = some m → (l.unacked.find? fun x => decide (x.n = m)) = some b →
      s.on (R.NLINK.STATE.LONG_WINDOW n) = false → s.Runs (.nelyanBlockSend n rd k) fun u => (u.link_ n).wire = b.bytes ∧
        s.Counts u (R.NLINK.RESENT.COUNT n) 1 ∧ s.Counts u (R.NLINK.TX_BLOCKS.COUNT n) 1 ∧ (u.link_ n).sealedN = l.sealedN) ∧
    (∀ b t, l.unacked = b :: t → st = 3 → due b.sentAt (s.ackTo n) →
      (b.attempts < 8 → s.Runs (.nelyanAckTimeout n) fun u => (u.link_ n).rewind = some b.n ∧
        (u.link_ n).unacked = { b with attempts := b.attempts + 1 } :: t ∧ u.on (R.NLINK.STICKY.RESEND_SEEN n) = true) ∧
      (8 ≤ b.attempts → closes (.nelyanAckTimeout n) 3)) ∧
    (l.unacked = [] ∨ st ≠ 3 → s.Runs (.nelyanAckTimeout n) fun u => u = s) ∧
    (s.Runs (.nelyanFmRepeat n) fun u => s.OnlyRegs { u with nel := s.nel } [] ∧
      u.link_ n = { l with fmDue := l.fmDue || (l.fmGap && decide (l.fmAt + s.ackTo n ≤ s.now)) }) ∧
    (s.Runs (.nelyanLockAcquire n) fun u => u.on lane = true ∧
      (st = 1 → s.on (R.NLINK.CTRL.EN n) = true → s.keysOk = true → s.svcLive 9 = true → u.linkState n = 2 ∧ u.isPend (128 + n) = true ∧
        (u.link_ n).peerHello = [] ∧ (u.link_ n).outbox = fragsOf 1 (u.link_ n).hello) ∧
      (st ≠ 1 → s.OnlyRegs u [lane])) ∧
    (st = 3 → s.RunsTo (.nelyanStop n true) fun u => u.on lane = false ∧ u.linkState n = 4 ∧ (u.link_ n).stopAt = s.now ∧
      u.isPend (128 + n) = true ∧ (s.on lane = true → u.isSticky (144 + n) = true)) ∧
    (st = 2 → s.RunsTo (.nelyanStop n true) fun u => u.on lane = false ∧ u.linkState n = 1) ∧
    (st = 3 → due l.seenAt (usec (s.eff (R.NLINK.TIMERS.STOP_TO n))) → s.Runs (.nelyanStop n false) fun u =>
      u.linkState n = 4 ∧ (u.link_ n).stopAt = s.now ∧ (u.link_ n).unacked = l.unacked) ∧
    (st = 3 → ¬ due l.seenAt (usec (s.eff (R.NLINK.TIMERS.STOP_TO n))) → s.Runs (.nelyanStop n false) fun u => u = s) ∧
    (st = 4 → due l.stopAt (msec (s.eff (R.NLINK.TIMERS.DOWN_TO n))) → closes (.nelyanDownTimeout n) 2) ∧
    (st = 4 → ¬ due l.stopAt (msec (s.eff (R.NLINK.TIMERS.DOWN_TO n))) → s.Runs (.nelyanDownTimeout n) fun u => u = s) ∧
    (s.svcLive 9 = true → st = 2 → l.peerHello = [] → due l.helloAt (msec 1) → s.Runs (.helloRetry n) fun u =>
      u.link_ n = { l with helloAt := s.now, outbox := l.outbox ++ fragsOf 1 l.hello } ∧ s.OnlyRegs { u with nel := s.nel } []) ∧
    (st ≠ 2 ∨ l.peerHello ≠ [] ∨ s.svcLive 9 = false → s.Runs (.helloRetry n) fun u => u = s) ∧
    (l.inbox = [] ∨ s.svcLive 9 = false → s.Runs (.handshakeMessage n rtt) fun u => u = s) ∧
    (∀ m rest, s.svcLive 9 = true → l.inbox = (4, m) :: rest → st = 2 → s.RunsTo (.handshakeMessage n rtt) fun u => u.linkState n = 5 ∧
      u.fld (R.NLINK.STATE.LAST_CAUSE n) = (if beAt m 0 1 < 14 then beAt m 0 1 else s.fld (R.NLINK.STATE.LAST_CAUSE n)) ∧
      u.isSticky (152 + n) = true ∧ (u.link_ n).inbox = rest) ∧
    (∀ m rest, s.svcLive 9 = true → l.inbox = (1, m) :: rest → st = 2 → l.peerHello = [] → s.RunsTo (.handshakeMessage n rtt) fun u =>
      (u.link_ n).inbox = rest ∧ u.linkState n = (if s.helloBad m = 0 then 2 else 5) ∧
      (s.helloBad m ≠ 0 → u.fld (R.NLINK.STATE.LAST_CAUSE n) = s.helloBad m ∧ u.isSticky (152 + n) = true ∧
        (u.link_ n).outbox = l.outbox ++ fragsOf 4 (beBytes 1 (s.helloBad m))) ∧
      (s.helloBad m = 0 → u.fld (R.NLINK.PEER.SEAT n) = helloSeat m % 2 ^ 10 ∧ u.on (R.NLINK.PEER.VALID n) = true ∧
        u.fld (R.NLINK.RTT.NS n) = rtt.toNat ∧ (u.link_ n).peerHello = m)) ∧
    (st = 2 → due l.stateAt (msec 100) → s.Runs (.handshakeTimeout n) fun u =>
      u.fld (R.NLINK.STATE.LAST_CAUSE n) = 12 ∧ u.linkState n = (if again then 2 else 1) ∧ (u.link_ n).peerHello = []) ∧
    (st ≠ 2 → s.Runs (.handshakeTimeout n) fun u => u = s) ∧
    (st = 5 → due l.stateAt (secs 10) → s.mayShake n = true → s.Runs (.refusedRetry n) fun u => u.linkState n = 2 ∧
      (u.link_ n).outbox = fragsOf 1 (u.link_ n).hello) ∧
    (st ≠ 5 ∨ s.mayShake n = false → s.Runs (.refusedRetry n) fun u => u = s) ∧
    (st = 3 → s.keysOk = true → l.offer = none → l.nextTx = none → 2 ^ 29 ≤ l.sealedN ∨ due l.keyAt (secs 3600) →
      s.Runs (.rekeyStart n) fun u => (u.link_ n).offer = some (rekeyPayload (ephOf s.freeNow) (ephOf s.usedFree.freeNow)) ∧
        (u.link_ n).outbox = l.outbox ++ [(4, rekeyPayload (ephOf s.freeNow) (ephOf s.usedFree.freeNow))] ∧
        (u.link_ n).eph = ephOf s.freeNow ∧ s.RegsBut u []) ∧
    (st ≠ 3 ∨ l.offer ≠ none → s.Runs (.rekeyStart n) fun u => u = s)

/-- R377, R382, R383, R386: a service writes a route, which may start a guard; a guard runs out; a link is disabled, its disable ends, and
it is enabled. -/
def Obligations.RoutesAndLinkSwitches : Prop :=
  ∀ (n : Fin 8) (d : Fin 1024) (who : Who) (v : BitVec 32) (s : State), s.Settled →
    let l := s.link_ n
    (∀ g, s.guard d = some g →
      (g.since + 1000 * s.eff R.NLINK.GUARD_TO.US ≤ s.mono → s.Runs (.guardTimeout d) fun u => u.guard d = none ∧
        bitOf (u.routeEntry d) 22 = false ∧ s.Counts u R.NLINK.GUARD_TIMEOUT.COUNT 1 ∧ (∀ e, e ≠ d.val → u.guard e = s.guard e) ∧
        s.RegsBut u [R.NLINK.GUARD_TIMEOUT.COUNT, R.NLINK.GUARDS.COUNT]) ∧
      (s.mono < g.since + 1000 * s.eff R.NLINK.GUARD_TO.US → s.Runs (.guardTimeout d) fun u => u = s)) ∧
    (s.guard d = none → s.Runs (.guardTimeout d) fun u => u = s) ∧
    (let e := s.fld R.NLINK.RT_INDEX.SEAT
     who.vendor = true → s.RunsTo (.rtEntryWrite who v) fun u =>
       bitsOf (u.routeEntry e) 24 8 = bitsOf v.toNat 24 8 ∧ bitsOf (u.routeEntry e) 16 6 = bitsOf v.toNat 16 6 ∧
       bitOf (u.routeEntry e) 23 = false ∧ (∀ x, x ≠ e → u.routeEntry x = s.routeEntry x) ∧ u.nel.nWrites = s.nel.nWrites + 1 ∧
       (∀ a b, linkOf (s.routeEntry e) = some a → linkOf (u.routeEntry e) = some b → a ≠ b → (u.guard e).isSome = true)) ∧
    (∀ t : Fin 64, who = .thread t → who.vendor = false → s.RunsTo (.rtEntryWrite who v) fun u =>
      (u.thr t).st = .trapped ∧ (u.thr t).trapCause = 3 ∧ u.nel = s.nel) ∧
    (s.powered (104 + n.val) = true →
      (s.on (R.NLINK.CTRL.EN n) = true → s.Runs (.nlinkDisable who n) fun u => u.on (R.NLINK.CTRL.EN n) = false ∧
        u.link_ n = { l with offAt := some s.now } ∧ u.dueAt (.quiesceAck (104 + n)) = some (s.now + (2 * s.ackTo n + msec 1)) ∧
        s.OnlyRegs { u with nel := s.nel, due := s.due } [R.NLINK.CTRL.EN n]) ∧
      (s.on (R.NLINK.CTRL.EN n) = false → s.Runs (.nlinkDisable who n) fun u => u = s)) ∧
    (l.offAt = none → s.Runs (.nlinkDisableComplete n) fun u => u = s) ∧
    (∀ t, l.offAt = some t →
      (s.inSession n = true → l.unacked ≠ [] → s.now < t + 2 * s.ackTo n → s.Runs (.nlinkDisableComplete n) fun u => u = s) ∧
      (s.inSession n = false ∨ l.unacked = [] ∨ t + 2 * s.ackTo n ≤ s.now → s.RunsTo (.nlinkDisableComplete n) fun u =>
        u.linkState n = 0 ∧ u.on (R.NLINK.STATE.QUIESCED n) = true ∧ u.link_ n = { Link.init with spill := l.spill, stateAt := (u.link_ n).stateAt } ∧
        u.dueAt (.quiesceAck (104 + n)) = none ∧ (s.inSession n = true → u.fld (R.NLINK.STATE.LAST_CAUSE n) = 1))) ∧
    (s.powered (104 + n.val) = true →
      (s.linkState n = 0 → s.powered (96 + n.val) = true → s.Runs (.nlinkEnable who n) fun u =>
        u.on (R.NLINK.CTRL.EN n) = true ∧ u.on (R.NLINK.STATE.QUIESCED n) = false ∧ (u.link_ n).offAt = none ∧
        (s.col.inFold = true → u.linkState n = 7) ∧ (s.col.inFold = false → u.linkState n = if s.mayShake n = true then 2 else 1)) ∧
      (s.linkState n ≠ 0 → s.Runs (.nlinkEnable who n) fun u => u.on (R.NLINK.CTRL.EN n) = true ∧
        u.on (R.NLINK.STATE.QUIESCED n) = false ∧ (u.link_ n).offAt = none ∧ u.linkState n = s.linkState n))

/-! ## The built-in services -/

/-- R498-R502, R511, R512: the end of an inauguration, the PTP servo and its timeout, the entries of the timestamp queue, a new SAK, and the
Table service's flooding, ageing, routes and holds. -/
def Obligations.TrainTimeAndTableServices : Prop :=
  ∀ (maps : List (BitVec 32 × Fin 33)) (counter : BitVec 32) (consists : Nat) (i : Fin 4) (v : Int) (offset : Option Int) (mine : Bool)
    (p : Fin 48) (ssci : BitVec 32) (peers : List (BitVec 64 × BitVec 32)) (n : Fin 8) (s : State), s.Settled →
    (s.svcLive 1 = false → s.Runs (.inaugurationEnd maps counter consists) fun u => u = s) ∧
    (∀ q t, s.svcLive 1 = true → (∀ x, s.serv.inaug = some x → x.sent = false) → s.paramNat 1 6 1000 ≠ 0 →
      ((List.range 16).filter fun k => (s.paramNat 1 5 0).testBit k) = q :: t → s.Runs (.inaugurationEnd maps counter consists) fun u =>
        u.serv.inaug = some { left := t, busy := true, since := s.now, bank := if 1 < consists then s.paramNat 1 4 0 else s.paramNat 1 3 0,
                              counter := counter.toNat, consists := consists, sent := false } ∧
        u.on R.FLOW.STATUS.FLUSH_BUSY = true ∧
        ∀ m, m < 4 → let a := beAt ((s.param 1 7).getD []) (4 * m) 4
          (∀ e, a ≠ 0 → maps[m]? = some e → u.fld (R.FLOW.RNAT_m.LOCAL.PREFIX m) = a ∧ u.fld (R.FLOW.RNAT_m.TRAIN.PREFIX m) = e.1.toNat ∧
            u.fld (R.FLOW.RNAT_m.LEN.LEN m) = e.2.val) ∧
          (a = 0 ∨ maps[m]? = none → u.fld (R.FLOW.RNAT_m.LEN.LEN m) = 0)) ∧
    (s.svcLive 1 = true → (∀ x, s.serv.inaug = some x → x.sent = false) → s.paramNat 1 6 1000 ≠ 0 →
      ((List.range 16).filter fun k => (s.paramNat 1 5 0).testBit k) = [] → s.RunsTo (.inaugurationEnd maps counter consists) fun u =>
        u.serv.inaug = some { left := [], busy := false, since := s.now, bank := if 1 < consists then s.paramNat 1 4 0 else s.paramNat 1 3 0,
                              counter := counter.toNat, consists := consists, sent := s.uportRoom 0 }) ∧
    (s.ptpOn i = false → s.Runs (.servoUpdate i offset) fun u => u = s) ∧
    (let sync := R.TIME.INST_i.STATUS.SYNC i
     s.ptpOn i = true →
      (s.Runs (.servoUpdate i none) fun u => s.RegsBut u [sync] ∧ (u.on sync = true ↔ s.on R.TIME.OSC.REF_LOCK = true ∨
        ∃ a, s.time.ppsIn = some a ∧ s.now < a + msec 1500)) ∧
      (s.paramNat 2 (0x24 + i) 100000 < v.natAbs → s.RunsTo (.servoUpdate i (some v)) fun u => u.on sync = false ∧
        u.serv.good.get 0 i = 0 ∧ u.serv.bad.get 0 i = 0 ∧ s.Counts u (R.TIME.INST_i.STEPS.COUNT i) 1) ∧
      (v.natAbs ≤ s.paramNat 2 (0x24 + i) 100000 → s.Runs (.servoUpdate i (some v)) fun u =>
        let good := if v.natAbs ≤ s.paramNat 2 (0x20 + i) 100 then s.serv.good.get 0 i + 1 else 0
        let bad := if 2 * s.paramNat 2 (0x20 + i) 100 < v.natAbs then s.serv.bad.get 0 i + 1 else 0
        u.serv.good.get 0 i = good ∧ u.serv.bad.get 0 i = bad ∧ u.fld (R.TIME.INST_i.RATE.RATE i) = s.freeNow % 2 ^ 32 ∧
        u.on sync = (if 4 ≤ bad then false else if 16 ≤ good then true else s.on sync)) ∧
      (s.Runs (.announceReceiptTimeout i) fun u => u.on sync = false ∧ u.serv.good.get 0 i = 0 ∧ u.serv.bad.get 0 i = 0 ∧
        s.RegsBut u [sync])) ∧
    (∀ e t, s.svcLive 2 = true → s.time.ets = e :: t →
      let ch := s.paramNat 2 0x30 0xFFFF
      (s.Runs (.tsEntryDispatch true) fun u => u.time.ets = t) ∧
      (ch = 0xFFFF → s.Runs (.tsEntryDispatch false) fun u => u.time.ets = t) ∧
      (ch ≠ 0xFFFF → s.hwRoom ch 2 = true → s.Runs (.tsEntryDispatch false) fun u => u.time.ets = t ∧
        (u.chan ch).msgs = (s.chan ch).msgs ++ [{
          words := [BitVec.ofNat 64 (e.port % 64 * 2 ^ 58 + e.inst % 4 * 2 ^ 56 + e.tag % 2 ^ 16),
                    BitVec.ofNat 64 (e.sec % 2 ^ 32 * 2 ^ 32 + e.ns)], hw := false }]) ∧
      (ch ≠ 0xFFFF → s.hwRoom ch 2 = false → s.Runs (.tsEntryDispatch false) fun u => u = s)) ∧
    (s.svcLive 2 = false ∨ s.time.ets = [] → s.Runs (.tsEntryDispatch mine) fun u => u = s) ∧
    (s.svcLive 3 = false ∨ s.keysOk = false → s.Runs (.mkaSakDistribute p ssci peers) fun u => u = s) ∧
    (s.svcLive 3 = true → s.keysOk = true → s.secyOn p = true → s.powered p = true →
      (s.param 3 (0x10 + p)).getD [] ++ (s.param 3 (0x40 + p)).getD [] ≠ [] → s.Sends (.mkaSakDistribute p ssci peers) fun w f =>
        let k := if s.fld (R.PORT.SECY_CTRL.CIPHER p) % 2 = 0 then 16 else 32
        f.svc = 3 ∧ f.port = p ∧ f.unc = true ∧ w.free = s.free + k + 12 ∧
        (w.secy p).tx = some { an := (match (s.secy p).tx with
                                 | some a => (a.an + 1) % 4
                                 | none => 0),
                               key := s.freeBytes k, salt := (s.usedFrees k).freeBytes 12, ssci := ssci.toNat, pn := 1, inUse := true }) ∧
    (s.svcLive 9 = true → s.serv.lsaDue = true ∨ s.serv.lsaAt + msec s.lsaInterval ≤ s.now →
      (∀ m, m < 8 → s.linkState m = 3 → (s.link_ m).sealedN < 2 ^ 30) → s.Runs .lsaFlood fun u =>
      u.serv.lsaSeq = s.serv.lsaSeq + 1 ∧ u.serv.lsaAt = s.now ∧ u.serv.lsaDue = false ∧ ∀ m, m < 8 →
        u.fld (R.NLINK.TX_BLOCKS.COUNT m) = (s.fld (R.NLINK.TX_BLOCKS.COUNT m) + (if s.linkState m = 3 then 1 else 0)) % 2 ^ 64 ∧
        (u.link_ m).txCtl = (s.link_ m).txCtl + (if s.linkState m = 3 then 1 else 0)) ∧
    (s.svcLive 9 = false → (s.Runs .lsaFlood fun u => u = s) ∧ (s.Runs .linkStateAgeout fun u => u = s) ∧
      s.Runs .routeCompute fun u => u = s) ∧
    (s.svcLive 9 = true → s.Runs .linkStateAgeout fun u =>
      u.serv.lsdb = (s.serv.lsdb.filter fun r => decide (s.now < r.since + msec (5 * s.lsaInterval))) ∧
      (u.serv.routesDue = true ↔ s.serv.routesDue = true ∨ u.serv.lsdb.length ≠ s.serv.lsdb.length) ∧ u.regs = s.regs) ∧
    (s.svcLive 9 = true → s.serv.routesDue = true → s.RunsTo .routeCompute fun u =>
      let old := s.fld R.NLINK.FLOOD_TREE.LINKS
      let t := s.treeLinks.2
      (u.serv.routesDue = true ↔ old &&& t ≠ old) ∧ u.fld R.NLINK.FLOOD_TREE.LINKS = (if old &&& t ≠ old then old &&& t else t) % 2 ^ 8) ∧
    (s.serv.routesDue = false → s.Runs .routeCompute fun u => u = s) ∧
    (let t := s.serv.routeHold.get 0 n
     (t ≠ 0 → t ≤ s.now → s.Runs (.routeHoldExpiry n) fun u => u.serv.routeHold.get 0 n = 0 ∧ u.serv.routesDue = true ∧ u.regs = s.regs) ∧
     (t = 0 ∨ s.now < t → s.Runs (.routeHoldExpiry n) fun u => u = s))

/-- R497, R503-R510: LLDP's frames and its neighbours, DHCP's answers, the exporter's batch (dropped where no collector is set,
else sent as one message or more, with its buffer given back), SNMP's start and its reports, a poll of
syslog, and the timeout of a next hop. -/
def Obligations.ManagementServicesComplete : Prop :=
  ∀ s : State, s.Settled →
    (s.svcLive 4 = false → (s.Runs .lldpTransmit fun u => u = s) ∧ s.Runs .lldpNeighbourAgeout fun u => u = s) ∧
    (s.svcLive 4 = true → s.descs 0 = [] →
      let ports := (List.range 48).filter fun n => (s.paramNat 4 3 (2 ^ 48 - 1)).testBit n && s.portExists n && s.linkUp n
      (ports = [] → s.Runs .lldpTransmit fun u => u = s) ∧
      (∀ n, ports = [n] → s.Sends .lldpTransmit fun w f => w = s ∧ f = s.lldpFrame n) ∧
      (s.on R.FAULT.STATE.FOLD = true → (s.serv.heldMsgs.filter fun f => decide (f.svc = 4)).length + ports.length ≤ 64 →
        s.Runs .lldpTransmit fun u => u.serv.heldMsgs = s.serv.heldMsgs ++ ports.map s.lldpFrame ∧ u.regs = s.regs) ∧
      (s.Runs .lldpNeighbourAgeout fun u =>
        u.serv.lldp = (s.serv.lldp.filter fun e => decide (s.now < e.gone)) ∧ u = { s with serv := { s.serv with lldp := u.serv.lldp } })) ∧
    (s.svcLive 5 = false ∨ s.descs 4 = [] → s.Runs .dhcpRequest fun u => u = s) ∧
    (∀ d x w, s.svcLive 5 = true → s.svcTake 5 4 = some (d, x, w) →
      (udpIn x = none → s.RunsTo .dhcpRequest fun u => u = w.svcDrop 5) ∧
      (∀ q k v typ, udpIn x = some q →
        let opts := dhcpOpts q.data.length (q.data.drop 240)
        let a := beAt v 36 4
        let mac := beAt q.data 28 6
        q.dport = 67 → 240 ≤ q.data.length → beAt q.data 0 1 = 1 → beAt q.data 236 4 = 0x63825363 → (optOf opts 53).map ofBe = some typ →
        w.dhcpAt (descPort d) ((optOf opts 82).bind fun o => optOf (dhcpOpts o.length o) 1) = some (k, v) →
        (typ = 1 ∨ typ = 3 → (w.liveLeases.any fun e => decide (e.pos = k ∧ e.mac ≠ mac)) = true → s.RunsTo .dhcpRequest fun u =>
          u = (w.bumpSvcStat 5 0x24 4).dhcpOut q.data opts 6 0) ∧
        ((w.liveLeases.any fun e => decide (e.pos = k ∧ e.mac ≠ mac)) = false →
          (typ = 1 → s.RunsTo .dhcpRequest fun u => u = w.dhcpOut q.data opts 2 a) ∧
          (typ = 3 → optOf opts 54 = none → optOf opts 50 = some (beBytes 4 a) → s.RunsTo .dhcpRequest fun u => ∃ y : State,
            u = y.dhcpOut q.data opts 5 a ∧ y.serv.leases = (w.liveLeases.filter fun e => decide (e.pos ≠ k)) ++
              [{ pos := k, mac := mac, gone := w.now + secs (w.paramNat 5 3 86400) }])))) ∧
    (s.svcLive 6 = false ∨ (s.chan 16).msgs = [] → s.Runs .ipfixBatchExport fun u => u = s) ∧
    (∀ m t, s.svcLive 6 = true → s.eff R.FLOW.EXPORT.CHANNEL = 16 → (s.chan 16).reader = none → (s.chan 16).msgs = m :: t →
      s.param 6 0x105 = none → s.RunsTo .ipfixBatchExport fun u => (u.chan 16).msgs = t ∧ u.serv.ipfixSeq = s.serv.ipfixSeq) ∧
    (∀ m t peer t0, s.svcLive 6 = true → s.eff R.FLOW.EXPORT.CHANNEL = 16 → (s.chan 16).reader = none → (s.chan 16).msgs = m :: t →
      s.param 6 0x105 = some peer → s.serv.tplAt = some t0 → s.now < t0 + secs 600 →
      let a := (m.words.getD 0 0).toNat
      let n := (m.words.getD 1 0).toNat % 65536
      n ≠ 0 →
      let w := (s.setChan 16 { s.chan 16 with msgs := t }).bumpSvcStat 6 8 8
      let recs := (List.range n).map fun i => s.ipfixRecord (w.bytesAt (a + 144 * i) 144)
      let body := (ipfixSets recs).flatMap fun e => beBytes 2 e.1 ++ beBytes 2 (4 + e.2.length) ++ e.2
      let msg := beBytes 2 10 ++ beBytes 2 (16 + body.length) ++ beBytes 4 (utcOf (s.clk s.gateInst).sec) ++ beBytes 4 s.serv.ipfixSeq ++
        beBytes 4 (s.fld R.NLINK.SEAT.SEAT) ++ body
      s.CleanAt a (144 * n) →
      (s.RunsTo .ipfixBatchExport fun u => (u.chan 16).msgs = t ∧ u.serv.ipfixSeq = (s.serv.ipfixSeq + n) % 2 ^ 32 ∧
        (s.pools.waiting = [] → ∀ k b, s.bufStart a = some (k, b) → u.holderOf k b = none)) ∧
      (s.on R.FAULT.STATE.FOLD = true → ipfixPack [] recs = [recs] → ofBe peer ≠ 2 ^ 32 - 1 → s.nextHop 6 (ofBe peer) ≠ 0 →
        (s.serv.heldMsgs.filter fun f => decide (f.svc = 6)).length < 64 →
        s.RunsTo .ipfixBatchExport fun u => u.serv.heldMsgs = s.serv.heldMsgs ++
          [{ s.usedFree.udpFrame 6 (2 ^ 48 - 1) (ofBe peer) (s.freeNow % 65536) (s.paramNat 6 0x106 4739) msg with
             hop := some (s.nextHop 6 (ofBe peer)) }])) ∧
    (s.svcLive 7 = true → s.serv.snmpUp = false → s.on (R.TIME.INST_i.STATUS.SYNC s.gateInst) = true →
      (∀ b, s.serv.boots = some b → b < (s.clk s.gateInst).sec / 64) → s.descs 6 = [] → s.Runs .snmpRequest fun u =>
        u.serv.snmpUp = true ∧ u.serv.boots = some ((s.clk s.gateInst).sec / 64) ∧ u.serv.snmpAt = s.now ∧ u.regs = s.regs) ∧
    (s.svcLive 7 = false → s.Runs .snmpRequest fun u => u = s) ∧
    (∀ d x w, s.svcLive 7 = true → s.serv.snmpUp = true → s.svcTake 7 6 = some (d, x, w) →
      (udpIn x = none → s.RunsTo .snmpRequest fun u => u = w.svcDrop 7) ∧
      (∀ q m, udpIn x = some q → w.serv.snmpUp = true → q.dst = w.svcAddr 7 → q.dport = w.paramNat 7 0x106 161 → snmpParse q.data = some m →
        m.engine ≠ w.engineId →
        (m.flags / 4 % 2 = 0 → s.RunsTo .snmpRequest fun u => ∃ y : State, u = y.svcDrop 7 ∧ y.serv.usm.get 0 4 = w.serv.usm.get 0 4 + 1) ∧
        (m.flags / 4 % 2 = 1 → s.RunsTo .snmpRequest fun u => ∃ (y : State) (r : List Byte),
          u = y.udpSend 7 q.src (w.paramNat 7 0x106 161) q.sport r ∧ y.serv.usm.get 0 4 = w.serv.usm.get 0 4 + 1))) ∧
    (s.svcLive 8 = false → s.Runs .syslogPoll fun u => u = s) ∧
    (s.svcLive 8 = true → s.param 8 0x105 = none → (∀ k, 8 ≤ k → k < 16 → s.descs k = []) → s.Runs .syslogPoll fun u =>
      u.serv.seen = ofLe s.stickyMap ∧ u.serv.seenLinks = s.linksNow ∧ u.serv.seenDeck = s.deckNow ∧
      u.serv.seenInaug = s.svcStat 1 0x24 4 ∧ u.serv.logAt = s.now ∧ u.regs = s.regs) ∧
    (s.svcLive 8 = true → s.serv.seen = ofLe s.stickyMap → s.serv.seenLinks = s.linksNow → s.serv.seenDeck = s.deckNow →
      s.serv.seenInaug = s.svcStat 1 0x24 4 → s.serv.logOver = 0 → (∀ k, 8 ≤ k → k < 16 → s.descs k = [] ∧ s.serv.drained.get 0 k = 0) →
      s.Runs .syslogPoll fun u => u.serv.logTokens = min 2000000000 (s.serv.logTokens + 20 * (s.now - s.serv.logAt)) ∧
        u.mem = s.mem ∧ u.regs = s.regs) ∧
    (s.Runs .arpResolveTimeout fun u => u.serv.unresolved = (s.serv.unresolved.filter fun f => decide (s.now < f.since + secs 1)) ∧
      u.regs = s.regs ∧ ((∀ f ∈ s.serv.unresolved, s.now < f.since + secs 1) → u.mem = s.mem))

/-- R99, R100, R118, R123, R513-R517: the messages of the management endpoint, each taken from X5: a nonce, an attestation, a status, the data
of an image, and the signed commands with their checks in order; the end of a staging, and a statement that is signed. -/
def Obligations.EndpointMessagesComplete : Prop :=
  ∀ (good : Nat) (s : State), s.Settled →
    (s.svcLive 10 = false → ∀ c ∈ [Instr.endpointNonce, .endpointAttest, .endpointData, .endpointStatus, .cmdRulesetSwap, .cmdFloorAdvance good,
      .cmdUpdateBegin, .cmdRestartServices], s.Runs c fun u => u = s) ∧
    (∀ w m, s.epTake (fun x => decide (x.typ = 1)) = (w, some m) →
      (w.keysOk = false → s.RunsTo .endpointNonce fun u => u = w) ∧
      (w.keysOk = true → s.Replies .endpointNonce m.peer 1 fun y b => b = w.freeBytes 32 ∧ y.free = w.free + 32 ∧
        y.serv.nonces = (if w.serv.nonces.length < 8 then w.serv.nonces else w.serv.nonces.drop 1) ++ [(b, w.now)])) ∧
    (∀ w m, s.epTake (fun x => decide (x.typ = 3)) = (w, some m) →
      (w.svcLive 11 = true → attReqOk m.body = true → w.attFree = true → s.RunsTo .endpointAttest fun u =>
        u.trust.attQ = w.trust.attQ ++ [{ nonce := slice m.body 8 32, cert := decide (beAt m.body 6 2 = 1), peer := some m.peer }]) ∧
      (w.svcLive 11 = false ∨ attReqOk m.body = false ∨ w.attFree = false → s.RunsTo .endpointAttest fun u => u = w)) ∧
    (∀ w m, s.epTake (fun x => decide (x.typ = 5)) = (w, some m) → s.Replies .endpointStatus m.peer 5 fun y b => y = w ∧
      b = beBytes 1 (w.fld R.DEAL.UPDATE.RESULT) ++ beBytes 1 (w.fld R.DEAL.UPDATE.PROGRESS) ++ beBytes 1 0 ++
        beBytes 1 (w.fld R.DEAL.UPDATE.TARGET) ++ beBytes 4 w.stagingNext) ∧
    (∀ w m, s.epTake (fun x => decide (x.typ = 4)) = (w, some m) →
      (m.body.length < 5 ∨ 1028 < m.body.length → s.RunsTo .endpointData fun u => u = w.svcDrop 10) ∧
      (5 ≤ m.body.length → m.body.length ≤ 1028 →
        (w.serv.staging = none → s.Replies .endpointData m.peer 4 fun y b => y = w ∧ b = beBytes 4 0) ∧
        (∀ g k, w.serv.staging = some g → g.bufs = [k] → g.len ≤ 0x100000 → beAt m.body 0 4 ≤ g.len →
          let o := beAt m.body 0 4
          let x := (m.body.drop 4).take (g.len - o)
          let h : Staging := { g with got := (o, x.length) :: g.got, since := w.now }
          h.next ≠ g.len → s.Replies .endpointData m.peer 4 fun y b => b = beBytes 4 h.next ∧ y.serv.staging = some h ∧
            w.Holds y (w.bufAddr 6 k + o) x))) ∧
    (∀ c op w m, (c, op) ∈ [(Instr.cmdRulesetSwap, 1), (.cmdFloorAdvance good, 2), (.cmdUpdateBegin, 3), (.cmdRestartServices, 4)] →
      s.epTake (isCmd op) = (w, some m) →
      let nonce := m.body.take 32
      let r (code : Nat) : List Byte := beBytes 1 code ++ beBytes 3 0 ++ beBytes 8 0
      let used (y : State) : Prop := y.serv.nonces = w.serv.nonces.filter fun e => decide (e.1 ≠ nonce)
      ((w.liveNonces.any fun e => decide (e.1 = nonce)) = false → cmdFormOk m.body = true →
        s.Replies c m.peer 2 fun y b => y = w ∧ b = r 2) ∧
      ((w.liveNonces.any fun e => decide (e.1 = nonce)) = true → cmdFormOk m.body = true →
        (beAt m.body 32 16 ≠ deviceId → s.Replies c m.peer 2 fun y b => used y ∧ b = r 3) ∧
        (beAt m.body 32 16 = deviceId →
          ((w.useNonce nonce).runtimeSigner (beAt (cmdTail m.body) 0 1) = none → s.Replies c m.peer 2 fun y b => used y ∧ b = r 4) ∧
          (∀ key usage, (w.useNonce nonce).runtimeSigner (beAt (cmdTail m.body) 0 1) = some (key, usage) →
            let t := cmdTail m.body
            let v := w.useNonce nonce
            let sound := ecVerify key (sha384 (m.body.take (52 + cmdArgLen m.body))) (slice t 4 48) (slice t 52 48)
            if sound = false then s.Replies c m.peer 2 fun y b => y = v ∧ b = r 4
            else if bitOf usage 2 = false then s.Replies c m.peer 2 fun y b => y = v ∧ b = r 5
            else
              (op = 1 → if v.uportRoom 0 = true then s.RunsTo c fun u => u = v.askSwap (ofBe (cmdArg m.body)) (some m.peer)
                else s.Replies c m.peer 2 fun y b => y = v ∧ b = r 7) ∧
              (op = 2 → s.Replies c m.peer 2 fun y b =>
                b = r (if v.fld R.DEAL.IMAGE_VER.VER ≤ v.trust.otp.floor ∨ v.trust.otp.floor + good < v.fld R.DEAL.IMAGE_VER.VER then 6 else 0) ∧
                y.trust.otp.floor = max v.trust.otp.floor (min (v.fld R.DEAL.IMAGE_VER.VER) (v.trust.otp.floor + good))) ∧
              (op = 3 → let n := beAt (cmdArg m.body) 0 4
                if n < 244 ∨ 24 * 1048576 < n then s.Replies c m.peer 2 fun y b => y = v ∧ b = r 6
                else if v.deck.update.isSome = true ∨ v.serv.staging.isSome = true then s.Replies c m.peer 2 fun y b => y = v ∧ b = r 7
                else s.Replies c m.peer 2 fun y b => (b = r 7 ∧ y.serv.staging = none) ∨
                  (b = r 0 ∧ ∃ g, y.serv.staging = some g ∧ g.len = n ∧ g.sha = (cmdArg m.body).drop 4 ∧ g.got = [] ∧ g.since = v.now ∧
                    g.bufs.length = (n + 1048575) / 1048576)) ∧
              (op = 4 → if v.on R.FAULT.STATE.SVC_HELD = true then s.Replies c m.peer 2 fun y b => y = v ∧ b = r 6
                else s.RunsTo c fun u => u = (v.epReply m.peer 2 (r 0)).startRestart))))) ∧
    (∀ g, s.serv.staging = some g →
      (g.since + secs 10 ≤ s.now → s.RunsTo .stagingTimeout fun u => u.serv.staging = none ∧
        ∀ k ∈ g.bufs, k < 65536 → s.pools.waiting = [] → u.holderOf 6 k = none) ∧
      (s.now < g.since + secs 10 → s.Runs .stagingTimeout fun u => u = s)) ∧
    (s.serv.staging = none → s.Runs .stagingTimeout fun u => u = s) ∧
    (∀ q t, s.trust.attQ = q :: t → s.keysOk = true → s.running .attest = false ∨ s.isDue .attest = true → q.peer = none →
      s.Runs .attestSign fun u => u.trust.attQ = t ∧ s.Counts u R.SEC.ATTEST_COUNT.SEQ 1 ∧
        u.dueAt .attest = some (s.now + msec 20) ∧ ∃ x, (s.sign).2 = some (q, x) ∧ u.dbg.buf = x) ∧
    (s.trust.attQ = [] ∨ s.keysOk = false → s.Runs .attestSign fun u => u = s)

/-! ## The debug port -/

/-- R568, R569, R571, R572: the debug port before the Dealer, a repeated SEQ, a request beyond the scope, a failed CRC and a reserved
opcode. -/
def Obligations.DebugPacketRules : Prop :=
  ∀ (q : Bool) (v reg : BitVec 8) (bytes : List Byte) (o : BitVec 40) (k : Fin 65) (chunk : Bool) (x : BitVec 64) (w y : BitVec 32)
    (mask : BitVec 4) (words : List (BitVec 32)) (ch : Fin 512) (s : State), s.Settled →
    (∀ c need, (c, need) ∈ [
        (Instr.debugStatus q, Need.any), (.debugChallenge q, .any), (.debugResponse q bytes, .any), (.debugAttest q bytes, .any),
        (.debugBufRead q o k, .any), (.debugRelock q, .opened), (.debugRootKey q bytes, .any), (.debugHalt q v, needBits 2 (vendorTarget v.toNat)),
        (.debugResume q v, needBits 2 (vendorTarget v.toNat)), (.debugStep q v chunk, needBits 2 (vendorTarget v.toNat)),
        (.debugRegRead q v reg, needBits 1 (vendorTarget v.toNat)), (.debugRegWrite q v reg x, needBits 10 (vendorTarget v.toNat)),
        (.debugBreak q o w, needBits 2 (vendorMask w.toNat)), (.debugWatch q o w y, needBits 2 (vendorMask w.toNat)),
        (.debugFreeze q mask, .bits 2), (.debugMemRead q o k, needBits 1 ((spanOf o.toNat k.val).any s.vendorWord)),
        (.debugMemWrite q o words, needBits 8 ((spanOf o.toNat words.length).any s.vendorWord)), (.debugChStatus q ch, .bits 1),
        (.debugChAbandon q ch, needBits 2 (s.vendorChan ch.val)), (.debugSvcRestart q, .bits 6), (.debugSvcRelease q, .bits 14)] →
      (s.portUp = false ∨ s.dbg.late ≠ none → s.Runs c fun u => u = s) ∧
      (∀ r, s.portUp = true → s.dbg.late = none → s.dbg.seq = some (q, r) → s.Runs c fun u => u = { s with dbg := { s.dbg with out := r } }) ∧
      (s.Fresh q → s.covers need = false → s.Answers c q ⟨4, []⟩ fun u => s.Counts u R.DEBUG.LOCKED_REFUSALS.COUNT 1 ∧
        s.OnlyRegs { u with dbg := s.dbg } [R.DEBUG.PACKETS.COUNT, R.DEBUG.LOCKED_REFUSALS.COUNT])) ∧
    (8 ≤ bytes.length → s.portUp = true → s.dbg.late = none →
      ((bytes.getLastD 0).toNat ≠ crc8 bytes.dropLast → s.Runs (.debugBadPacket bytes) fun u => s.Counts u R.DEBUG.CRC_ERRORS.COUNT 1 ∧
        u.on R.DEBUG.STICKY.CRC_ERR_SEEN = true ∧ u.dbg = { s.dbg with out := ⟨1, []⟩ } ∧
        s.OnlyRegs { u with dbg := s.dbg } [R.DEBUG.CRC_ERRORS.COUNT, R.DEBUG.STICKY.CRC_ERR_SEEN]) ∧
      ((bytes.getLastD 0).toNat = crc8 bytes.dropLast →
        (bytes.headD 0).toNat % 128 ∉ [1, 2, 3, 4, 5, 6, 7, 0x10, 0x11, 0x12, 0x14, 0x15, 0x18, 0x19, 0x1A, 0x20, 0x21, 0x22, 0x23, 0x24, 0x25] ∨
          64 < (bytes.getD 1 0).toNat →
        (s.Fresh (bitOf (bytes.headD 0).toNat 7) → s.Answers (.debugBadPacket bytes) (bitOf (bytes.headD 0).toNat 7) ⟨2, []⟩ fun u =>
          s.OnlyRegs { u with dbg := s.dbg } [R.DEBUG.PACKETS.COUNT]) ∧
        ∀ r, s.dbg.seq = some (bitOf (bytes.headD 0).toNat 7, r) → s.Runs (.debugBadPacket bytes) fun u =>
          u = { s with dbg := { s.dbg with out := r } })) ∧
    (s.portUp = false ∨ bytes.length < 8 → s.Runs (.debugBadPacket bytes) fun u => u = s)

/-- R121, R123, R125-R129, R571, R584, R585: STATUS, CHALLENGE, RESPONSE (one that passes the checks of R126 queues its record and is
answered late), ATTEST, BUF_READ, RELOCK and ROOT_KEY, and the attaching and detaching of a debugger. -/
def Obligations.DebugExchangeCompletes : Prop :=
  ∀ (q : Bool) (bytes : List Byte) (o : BitVec 40) (k : Fin 65) (s : State), s.Settled →
    (s.Fresh q →
      s.Answers (.debugStatus q) q ⟨0, [(s.regRead (.debug true) 0x10080000).2.1]⟩ (fun u =>
        s.OnlyRegs { u with dbg := s.dbg } [R.DEBUG.PACKETS.COUNT]) ∧
      (∀ d, s.dueAt .backoff = some d → s.Answers (.debugChallenge q) q ⟨9, [(d - s.now + secs 1 - 1) / secs 1]⟩ fun u =>
        u.trust = s.trust ∧ u.due = s.due) ∧
      (s.dueAt .backoff = none → s.keysOk = false → s.Answers (.debugChallenge q) q ⟨7, []⟩ fun u => u.trust = s.trust) ∧
      (s.dueAt .backoff = none → s.keysOk = true →
        let r := s.freeBytes 24
        let c := ascii "AQDU" ++ beBytes 2 1 ++ beBytes 2 0 ++ r.take 8 ++ beBytes 16 deviceId ++ r.drop 8 ++
          beBytes 4 (s.fld R.DEAL.DEAL_COUNT.COUNT) ++ beBytes 2 (s.fld R.NLINK.SEAT.SEAT) ++ beBytes 10 0
        s.Answers (.debugChallenge q) q ⟨0, wordsOf c⟩ fun u => u.trust = { s.trust with challenge := some c } ∧ u.dbg.buf = c ∧
          u.dueAt .challenge = some (s.now + secs 60)) ∧
      (bytes.length ≠ 108 → s.Answers (.debugResponse q bytes) q ⟨3, []⟩ fun u => u.trust = s.trust) ∧
      (bytes.length = 108 → s.trust.challenge = none ∨ s.deck.queue.length = 16 ∨ s.runtimeSigner (beAt bytes 8 1) = none →
        s.Answers (.debugResponse q bytes) q ⟨7, []⟩ fun u =>
          let w := if s.trust.backoff = 0 then 10 else s.trust.backoff
          u.dueAt .backoff = some (s.now + secs w) ∧ u.trust.backoff = min 640 (2 * w) ∧ s.Counts u R.SEC.UNLOCKS.FAILS 1 ∧
            u.isSticky 30 = true ∧ u.unlocked = s.unlocked) ∧
      (∀ c key usage, bytes.length = 108 → s.trust.challenge = some c → s.runtimeSigner (beAt bytes 8 1) = some (key, usage) →
        bytes.take 8 = slice c 8 8 → s.keysOk = true → beAt bytes 9 1 < 16 → 1 ≤ beAt bytes 10 2 → beAt bytes 10 2 ≤ 1440 →
        bitOf usage 1 = true → ecVerify key (sha384 (c ++ slice bytes 8 4)) (slice bytes 12 48) (slice bytes 60 48) = true →
        s.on R.DEAL.DECK_STATE.DEALT = true → s.on R.DEAL.DECK_STATE.JOURNAL_PAUSED = false → 0 < s.fld R.DEAL.JOURNAL.BUDGET →
        s.deck.queue.length < 16 → s.Runs (.debugResponse q bytes) fun u =>
          u.trust = { s.trust with unlocking := some (beAt bytes 9 1, beAt bytes 10 2) } ∧
          u.deck = { s.deck with queue := s.deck.queue ++ [{ typ := 5, merged := 0, payload := slice c 8 8 ++ slice bytes 8 2 }] } ∧
          u.dbg = { s.dbg with late := some q } ∧ s.Counts u R.DEBUG.PACKETS.COUNT 1) ∧
      (attReqOk bytes = false → s.Answers (.debugAttest q bytes) q ⟨3, []⟩ fun u => u.trust = s.trust) ∧
      (attReqOk bytes = true → s.attFree = false → s.Answers (.debugAttest q bytes) q ⟨7, []⟩ fun u => u.trust = s.trust) ∧
      (attReqOk bytes = true → s.attFree = true → s.Answers (.debugAttest q bytes) q ⟨0, []⟩ fun u =>
        u.trust.attQ = s.trust.attQ ++ [{ nonce := slice bytes 8 32, cert := decide (beAt bytes 6 2 = 1), peer := none }]) ∧
      (o.toNat % 4 ≠ 0 ∨ 2048 < o.toNat + 4 * k → s.Answers (.debugBufRead q o k) q ⟨3, []⟩ fun u => u.free = s.free) ∧
      (o.toNat % 4 = 0 → o.toNat < 2048 → o.toNat + 4 * k ≤ s.dbg.buf.length → s.dbg.buf.length ≤ 2048 →
        s.Answers (.debugBufRead q o k) q ⟨0, wordsOf (slice s.dbg.buf o.toNat (4 * k))⟩ fun u => u.dbg.buf = s.dbg.buf) ∧
      (s.portOpen = true → s.RunsTo (.debugRelock q) fun u => u.dbg.out = ⟨0, []⟩ ∧ u.dbg.seq = none ∧ u.dbg.buf = [] ∧
        u.dbg.brks = [] ∧ u.dbg.wtcs = [] ∧ u.unlocked = false ∧ s.Counts u R.DEBUG.PACKETS.COUNT 1 ∧
        u.fld R.DEBUG.STATUS.FREEZE = 0 ∧ ∀ t, t < 64 → (u.thr t).st ≠ .halted ∧ (u.thr t).stepping = false) ∧
      (bytes.length = 97 → s.isClaimed = true → ofBe (sha384 bytes) = s.trust.otp.ownerHash →
        s.Answers (.debugRootKey q bytes) q ⟨0, []⟩ fun u => u.trust = { s.trust with rootKey := some bytes }) ∧
      (bytes.length ≠ 97 ∨ s.isClaimed = false → s.Answers (.debugRootKey q bytes) q ⟨7, []⟩ fun u => u.trust = s.trust)) ∧
    (s.Runs .debugAttach fun u => u.sup = { s.sup with dbgPresN := false } ∧
      (s.sup.started = true → u.on R.DEBUG.STATUS.ATTACHED = true ∧ u.on R.DEBUG.STICKY.ATTACH_SEEN = true) ∧
      s.RegsBut u [R.DEBUG.STATUS.ATTACHED, R.DEBUG.STICKY.ATTACH_SEEN]) ∧
    (s.sup.started = true → s.on R.DEBUG.STATUS.ATTACHED = true → s.RunsTo .debugDetach fun u => u.sup = { s.sup with dbgPresN := true } ∧
      u.on R.DEBUG.STATUS.ATTACHED = false ∧ s.Counts u R.DEBUG.DETACHES.COUNT 1 ∧ u.unlocked = false ∧ u.dbg.seq = none ∧
      u.dbg.brks = [] ∧ u.dbg.wtcs = [] ∧ u.dbg.late = none ∧ u.fld R.DEBUG.STATUS.FREEZE = 0 ∧ u.trust.unlocking = none ∧
      ∀ t, t < 64 → (u.thr t).st ≠ .halted) ∧
    (s.sup.started = false ∨ s.on R.DEBUG.STATUS.ATTACHED = false → s.Runs .debugDetach fun u =>
      u = { s with sup := { s.sup with dbgPresN := true } })

/-- R573-R583: run control, registers of a thread, breakpoints and watchpoints, the freeze mask, memory accesses, channels, and the release
of the complex. -/
def Obligations.DebugControlCompletes : Prop :=
  ∀ (q : Bool) (v reg : BitVec 8) (t : Fin 64) (chunk : Bool) (x : BitVec 64) (pc a : BitVec 40) (w y : BitVec 32) (mask : BitVec 4)
    (k : Fin 65) (words : List (BitVec 32)) (ch : Fin 512) (s : State), s.Settled →
    let one : BitVec 8 := BitVec.ofNat 8 t.val
    let names (c : Instr) : Prop := c ∈ [Instr.debugHalt q v, .debugResume q v, .debugStep q v chunk, .debugRegRead q v reg, .debugRegWrite q v reg x]
    let okTarget := s.covers (needBits 2 (vendorTarget v.toNat)) = true
    (s.Fresh q → s.covers (needBits 11 (vendorTarget v.toNat)) = true → s.svcRuns = false → ∀ c, names c →
      s.Answers c q ⟨0x0B, []⟩ fun u => s.OnlyRegs { u with dbg := s.dbg } [R.DEBUG.PACKETS.COUNT]) ∧
    (s.Fresh q → okTarget → s.svcRuns = true →
      (s.Answers (.debugHalt q v) q ⟨0, []⟩ fun u => (∀ n ∈ targetsOf v.toNat, (u.thr n).stepping = true ∨
          (u.thr n).st = .halted ∨ (u.thr n).st = .stopped ∨ (u.thr n).st = .trapped) ∧
        ∀ n, n ∉ targetsOf v.toNat → u.thr n = s.thr n) ∧
      (v = one → (s.thr t).st = .ready → (s.thr t).stepping = false → s.breakAt t = none → s.Answers (.debugHalt q v) q ⟨0, []⟩ fun u =>
        (u.thr t).st = .halted ∧ (u.thr t).pc = (s.thr t).pc ∧ u.fld R.DEBUG.LAST_HALT.CAUSE = 1 ∧ u.fld R.DEBUG.LAST_HALT.THREAD = t) ∧
      ((targetsOf v.toNat).any (fun n => decide ((s.thr n).st = .halted) || (s.thr n).stepping) = true ∨ v.getLsbD 7 = true →
        s.Answers (.debugResume q v) q ⟨0, []⟩ fun u => ∀ n ∈ targetsOf v.toNat, (s.thr n).st = .halted → (s.thr n).stepping = false →
          (u.thr n).st = .ready ∧ (u.thr n).skipBp = true ∧ (u.thr n).pc = (s.thr n).pc) ∧
      (v = one → (s.thr t).st ≠ .halted → (s.thr t).stepping = false → s.Answers (.debugResume q v) q ⟨6, []⟩ fun u => u.svc = s.svc) ∧
      ((∀ n ∈ targetsOf v.toNat, (s.thr n).st ≠ .halted) → s.Answers (.debugStep q v chunk) q ⟨6, []⟩ fun u => u.svc = s.svc) ∧
      (∀ c, v = one → (s.thr t).st = .halted → s.refuses t (s.thr t).pc.toNat 4 .fetch true = some c → c ≠ 0 →
        s.Answers (.debugStep q v chunk) q ⟨0, []⟩ fun u => (u.thr t).st = .trapped ∧ (u.thr t).trapCause = c ∧ (u.thr t).stepping = false) ∧
      (∀ rd ra rb, v = one → (s.thr t).st = .halted → s.refuses t (s.thr t).pc.toNat 4 .fetch true = none → s.CleanAt (s.thr t).pc.toNat 4 →
        Elv.decode (BitVec.ofNat 32 (ofLe (s.bytesAt (s.thr t).pc.toNat 4))) = .alu .add rd ra rb →
        s.Answers (.debugStep q v chunk) q ⟨0, []⟩ fun u => (u.thr t).st = .halted ∧ (u.thr t).pc = (s.thr t).pc + 4 ∧
          u.reg t rd = (if rd.val = 0 then 0 else s.reg t ra + s.reg t rb) ∧ u.fld R.DEBUG.LAST_HALT.CAUSE = 4)) ∧
    (∀ q', s.isDue .step = true → s.dbg.late = some q' → s.Runs .debugStepPending fun u => u.dbg.late = none ∧ u.dueAt .step = none ∧
      u.dbg.seq = some (q', ⟨if s.stepPending = true then 0x0A else 0, []⟩)) ∧
    (s.isDue .step = false → s.Runs .debugStepPending fun u => u = s) ∧
    ((s.thr t).stepping = false → s.Runs (.debugStepComplete t) fun u => u = s) ∧
    (∀ z, s.svcRuns = true → (s.thr t).stepping = true → (s.thr t).waits = true → s.domOn (154 + t.val / 16) = true →
      (s.wake (t.val / 16) 3).retry t = some z → (z.thr t).st = .ready → (z.thr t).afterStep ≠ 2 → s.RunsTo (.debugStepComplete t) fun u =>
        (u.thr t).st = .halted ∧ (u.thr t).stepping = false ∧ (u.thr t).pc = (z.thr t).pc) ∧
    (s.Fresh q → s.svcRuns = true →
      (s.covers (needBits 1 (vendorTarget one.toNat)) = true →
        (32 < reg.toNat → s.Answers (.debugRegRead q one reg) q ⟨3, []⟩ fun u => u.svc = s.svc) ∧
        (reg.toNat ≤ 32 → (s.thr t).st ≠ .halted → s.Answers (.debugRegRead q one reg) q ⟨6, []⟩ fun u => u.svc = s.svc) ∧
        (∀ r : Reg, reg.toNat = r.val → (s.thr t).st = .halted → s.Answers (.debugRegRead q one reg) q
          ⟨0, [(s.reg t r).toNat / 2 ^ 32, (s.reg t r).toNat % 2 ^ 32]⟩ fun u => u.svc = s.svc) ∧
        (reg.toNat = 32 → (s.thr t).st = .halted → s.Answers (.debugRegRead q one reg) q
          ⟨0, [(s.thr t).pc.toNat / 2 ^ 32, (s.thr t).pc.toNat % 2 ^ 32]⟩ fun u => u.svc = s.svc)) ∧
      (s.covers (needBits 10 (vendorTarget one.toNat)) = true → (s.thr t).st = .halted →
        (∀ r : Reg, reg.toNat = r.val → s.Answers (.debugRegWrite q one reg x) q ⟨0, []⟩ fun u =>
          u.reg t r = (if r.val = 0 then 0 else x) ∧ (∀ r', r' ≠ r → u.reg t r' = s.reg t r') ∧ s.Counts u R.DEBUG.DEBUG_WRITES.COUNT 1 ∧
            u.on R.DEBUG.STICKY.WRITE_SEEN = true ∧ (u.thr t).pc = (s.thr t).pc) ∧
        (reg.toNat = 32 → x.toNat % 4 = 0 → x.toNat < 2 ^ 40 → s.Answers (.debugRegWrite q one reg x) q ⟨0, []⟩ fun u =>
          (u.thr t).pc.toNat = x.toNat ∧ (∀ r, u.reg t r = s.reg t r) ∧ s.Counts u R.DEBUG.DEBUG_WRITES.COUNT 1) ∧
        (32 < reg.toNat ∨ (reg.toNat = 32 ∧ x.toNat % 4 ≠ 0) → s.Answers (.debugRegWrite q one reg x) q ⟨3, []⟩ fun u => u.svc = s.svc))) ∧
    (s.Fresh q → s.covers (needBits 2 (vendorMask w.toNat)) = true →
      (pc.toNat % 4 ≠ 0 → s.Answers (.debugBreak q pc w) q ⟨3, []⟩ fun u => u.dbg.brks = s.dbg.brks) ∧
      (pc.toNat % 4 = 0 → s.Answers (.debugBreak q pc w) q ⟨0, []⟩ fun u =>
        let n := bitsOf w.toNat 24 2 * 8 + bitsOf w.toNat 16 3
        u.dbg.brks = (if bitOf w.toNat 31 then [⟨n, pc, bitsOf w.toNat 0 16⟩] else []) ++ s.dbg.brks.filter fun b => decide (b.slot ≠ n)) ∧
      (let lg := y.toNat % 32
       (12 < lg ∨ a.toNat % 2 ^ lg ≠ 0 → s.Answers (.debugWatch q a w y) q ⟨3, []⟩ fun u => u.dbg.wtcs = s.dbg.wtcs) ∧
       (lg ≤ 12 → a.toNat % 2 ^ lg = 0 → s.Answers (.debugWatch q a w y) q ⟨0, []⟩ fun u =>
        let n := bitsOf w.toNat 24 2 * 4 + bitsOf w.toNat 16 2
        u.dbg.wtcs = (if bitOf w.toNat 31 then [⟨n, a.toNat, lg, bitOf w.toNat 30, bitOf w.toNat 29, bitsOf w.toNat 0 16⟩] else []) ++
          s.dbg.wtcs.filter fun b => decide (b.slot ≠ n)))) ∧
    (s.Fresh q → s.covers (.bits 2) = true → s.Answers (.debugFreeze q mask) q ⟨0, []⟩ fun u =>
      u.fld R.DEBUG.STATUS.FREEZE = mask.toNat ∧ s.RegsBut u [R.DEBUG.STATUS.FREEZE, R.DEBUG.PACKETS.COUNT]) ∧
    (s.Fresh q →
      (s.covers (needBits 1 ((spanOf a.toNat k.val).any s.vendorWord)) = true →
        (∀ c, s.memBad a.toNat k false = some c → s.Answers (.debugMemRead q a k) q ⟨c, []⟩ fun u => u.mem = s.mem) ∧
        (s.memBad a.toNat k false = none → s.zone a.toNat ≠ .regs → s.CleanAt a.toNat (4 * k) → s.Answers (.debugMemRead q a k) q
          ⟨0, (List.range k).map fun i => ofLe (s.bytesAt (a.toNat + 4 * i) 4)⟩ fun u => s.OnlyRegs { u with dbg := s.dbg } [R.DEBUG.PACKETS.COUNT])) ∧
      (s.covers (needBits 8 ((spanOf a.toNat words.length).any s.vendorWord)) = true → words.length ≤ 64 →
        (∀ c, s.memBad a.toNat words.length true = some c → s.Answers (.debugMemWrite q a words) q ⟨c, []⟩ fun u => u.mem = s.mem) ∧
        (s.memBad a.toNat words.length true = none → s.zone a.toNat ≠ .regs → s.CleanAt a.toNat (4 * words.length) →
          s.Answers (.debugMemWrite q a words) q ⟨0, []⟩ fun u => s.Holds u a.toNat (words.flatMap fun z => leBytes 4 z.toNat) ∧
            s.Counts u R.DEBUG.DEBUG_WRITES.COUNT 1 ∧ u.on R.DEBUG.STICKY.WRITE_SEEN = true))) ∧
    (s.Fresh q → s.covers (.bits 1) = true → s.Answers (.debugChStatus q ch) q ⟨0, [s.chPeek ch]⟩ fun u => u.svc = s.svc) ∧
    (s.Fresh q → s.covers (needBits 2 (s.vendorChan ch)) = true →
      ((s.chan ch).owner = none → (s.chan ch).reader = none → s.Answers (.debugChAbandon q ch) q ⟨0, []⟩ fun u => u.svc = s.svc) ∧
      (∀ n p, (s.chan ch).owner = some (n, p) → (s.chan ch).reader = none →
        (s.mayAbandon n = true → s.Answers (.debugChAbandon q ch) q ⟨0, []⟩ fun u => (u.chan ch).owner = none ∧ (u.chan ch).part = [] ∧
          (u.chan ch).msgs = (s.chan ch).msgs ∧ (u.thr n).pc = p ∧ s.Counts u R.SVC.CH_ABANDONS.COUNT 1) ∧
        (s.mayAbandon n = false → s.Answers (.debugChAbandon q ch) q ⟨7, []⟩ fun u => u.svc = s.svc))) ∧
    (s.Fresh q → s.covers (.bits 14) = true →
      (s.on R.FAULT.STATE.SVC_HELD = false → s.Answers (.debugSvcRelease q) q ⟨7, []⟩ fun u => u.svc = s.svc) ∧
      (s.on R.FAULT.STATE.SVC_HELD = true → (∀ n, 240 ≤ n → n < 256 → s.isSticky n = false) → (∀ n, n < 320 → s.isLatched n = false) →
        (s.svc.vendorUp = true → s.RunsTo (.debugSvcRelease q) fun u => u.svc.restarting = 1 ∧ u.dbg.out = ⟨0, []⟩) ∧
        (s.svc.vendorUp = false → s.Answers (.debugSvcRelease q) q ⟨0, []⟩ fun u => u.on R.FAULT.STATE.SVC_HELD = false ∧
          u.svc = { s.svc with restarting := 0 })))

/-- R450, R582: a restart of the service complex is started by a countdown that escalates with ESC 1, by a write of RESTART.GO, and by the
debug port's SVC_RESTART; none starts while the complex is held, and SVC_RESTART then answers REFUSED, and NOT_RUNNING before the service
threads have started. -/
def Obligations.RestartsStart : Prop :=
  ∀ (q : Bool) (who : Who) (n : Fin 320) (s : State), s.Settled →
    let held := s.on R.FAULT.STATE.SVC_HELD
    let go := s.svc.vendorUp = true ∧ s.svc.restarting = 0
    (held = false → go → s.startRestart.svc.restarting = 1) ∧ (held = true → s.startRestart = s) ∧
    (s.isDue (.countdown n) = true → s.isSticky n = true → s.escOf n = 1 → n.val ∉ s.col.escalated →
      s.RunsTo (.countdownExpiry n) fun u => u.col.restartReq = true) ∧
    (∀ u : State, u.col.restartReq = true → u.col.foldReq = false → ∃ w : State, w = ({ u with col := { u.col with restartReq := false } }).startRestart ∧
      (w.col.foldReq = false → u.settle = { w with col := { w.col with restartReq := false } })) ∧
    (who.vendor = true → s.powered 154 = true →
      (held = false → go → s.RunsTo (.serviceRestart who) fun u => u.svc.restarting = 1) ∧
      (held = true → s.Runs (.serviceRestart who) fun u => u = s)) ∧
    (s.Fresh q → s.covers (.bits 6) = true →
      (held = false → go → s.RunsTo (.debugSvcRestart q) fun u =>
        u.svc.restarting = 1 ∧ u.dbg.out = ⟨0, []⟩ ∧ u.dbg.seq = some (q, ⟨0, []⟩)) ∧
      (held = true → s.Answers (.debugSvcRestart q) q ⟨7, []⟩ fun u => u.svc = s.svc) ∧
      (held = false → s.svc.vendorUp = false → s.Answers (.debugSvcRestart q) q ⟨0x0B, []⟩ fun u => u.svc = s.svc))

/-! ## The whole module -/

/-- Log entry 2 (the model's choice of what a step is): a step takes the command at the front of the queue and runs it on the state with the
queue's rest; with an empty queue one period of 20 ns passes. -/
def Obligations.StepTakesTheFront : Prop :=
  (∀ (c : Instr) (rest : List Instr) (s : State), s.pending = c :: rest → step s = exec c { s with pending := rest }) ∧
    ∀ s : State, s.pending = [] → step s = .next s.tick

/-- R595, R596 and log entry 3: right after reset every register field reads its reset value, no command waits, no memory is listed, every
thread is STOPPED, every channel and queue is empty, and no decision stands. -/
def Obligations.ResetState : Prop :=
  let s := State.reset
  s.Settled ∧ s.MemOk ∧ s.pending = [] ∧ (∀ f : Fld, s.fld f = f.reset % 2 ^ f.width) ∧
    (∀ t, (s.thr t).st = .stopped ∧ (s.thr t).pc = 0 ∧ ∀ r, s.reg t r = 0) ∧ (∀ n, s.chan n = Chan.init) ∧ (∀ p q, s.queue p q = []) ∧
    (∀ n, s.link_ n = Link.init) ∧ (∀ n, s.slc n = Slice.init) ∧ (∀ n, n < 320 → s.isSticky n = false ∧ s.isLatched n = false) ∧
    s.col.inFold = false ∧ s.svc.vendorUp = false ∧ s.due = []

/-- R414, R416: no command stops, and none leaves a Fold or a restart that it has decided standing; so no step does. -/
def Obligations.StepsLeaveNoDecision : Prop :=
  (∀ (c : Instr) (s : State), ∃ u, exec c s = .next u ∧ u.Settled) ∧ ∀ s u : State, step s = .next u → u.Settled

/-- R455-R458, R460, R462: the decoder reads back every instruction from the word that the encoder gives it, with every operand at every
value. -/
def Obligations.ElvonRoundTrip : Prop := ∀ e : Elv, Elv.ok e = true → Elv.decode (Elv.encode e) = e

end
end

