-- ==== Sys2Proof/Laws/Bytes.lean ====
section
/-! SUPPORT. Byte strings and numbers: lengths, reading back what was laid out, and the bounds of the CRCs. -/
namespace Sys2Proof.Machine

@[simp] theorem leBytes_length (n v : Nat) : (leBytes n v).length = n := by
  induction n generalizing v with
  | zero => rfl
  | succ n ih => simp [leBytes, ih]

@[simp] theorem beBytes_length (n v : Nat) : (beBytes n v).length = n := by
  induction n generalizing v with
  | zero => rfl
  | succ n ih => simp [beBytes, ih]

/-- Bytes laid out least significant first read back as the number, within their width. -/
theorem ofLe_leBytes (n v : Nat) : ofLe (leBytes n v) = v % 2 ^ (8 * n) := by
  induction n generalizing v with
  | zero => simp [leBytes, ofLe, Nat.mod_one]
  | succ n ih =>
    simp only [leBytes, ofLe, ih, BitVec.toNat_ofNat, Nat.mul_succ]
    rw [Nat.add_comm (8 * n) 8, Nat.pow_add, Nat.mod_mul]

/-- Bytes laid out most significant first read back as the number, within their width. -/
theorem ofBe_beBytes (n v : Nat) : ofBe (beBytes n v) = v % 2 ^ (8 * n) := by
  have h : ∀ n a, (beBytes n v).foldl (fun a b => a * 256 + b.toNat) a = a * 2 ^ (8 * n) + v % 2 ^ (8 * n) := by
    intro n
    induction n with
    | zero => intro a; simp [beBytes, Nat.mod_one]
    | succ n ih =>
      intro a
      have e : 2 ^ (8 * (n + 1)) = 2 ^ (8 * n) * 2 ^ 8 := by rw [Nat.mul_succ, Nat.pow_add]
      rw [beBytes, List.foldl_cons, ih, BitVec.toNat_ofNat, e, Nat.mod_mul]
      generalize v / 2 ^ (8 * n) % 2 ^ 8 = y
      generalize v % 2 ^ (8 * n) = z
      generalize 2 ^ (8 * n) = x
      rw [Nat.add_mul, Nat.mul_comm x y, Nat.mul_assoc a, Nat.mul_comm 256 x]
      simp only [Nat.reducePow]
      omega
  simpa [ofBe] using h n 0

theorem crcBit_lt (poly c : Nat) (hp : poly < 2 ^ 32) (hc : c < 2 ^ 32) : crcBit poly c < 2 ^ 32 := by
  unfold crcBit
  split
  · exact Nat.xor_lt_two_pow (by omega) hp
  · omega

theorem crcByte_lt (poly c : Nat) (b : Byte) (hp : poly < 2 ^ 32) (hc : c < 2 ^ 32) : crcByte poly c b < 2 ^ 32 := by
  have h : ∀ (l : List Nat) (c : Nat), c < 2 ^ 32 → l.foldl (fun c _ => crcBit poly c) c < 2 ^ 32 := by
    intro l
    induction l with
    | nil => intro c hc; exact hc
    | cons _ t ih => intro c hc; exact ih _ (crcBit_lt poly c hp hc)
  exact h _ _ (Nat.xor_lt_two_pow hc (by have := b.isLt; omega))

/-- The register of a CRC stays within 32 bits. -/
theorem crcBytes_lt (poly c : Nat) (l : List Byte) (hp : poly < 2 ^ 32) (hc : c < 2 ^ 32) : crcBytes poly c l < 2 ^ 32 := by
  unfold crcBytes
  induction l generalizing c with
  | nil => exact hc
  | cons b t ih => exact ih _ (crcByte_lt poly c b hp hc)

theorem crc32_lt (l : List Byte) : crc32 l < 2 ^ 32 :=
  Nat.xor_lt_two_pow (crcBytes_lt _ _ l (by decide) (by decide)) (by decide)

theorem crc32c_lt (l : List Byte) : crc32c l < 2 ^ 32 :=
  Nat.xor_lt_two_pow (crcBytes_lt _ _ l (by decide) (by decide)) (by decide)

/-- The number of `n` bytes lies within their width. -/
theorem ofBe_lt (l : List Byte) : ofBe l < 2 ^ (8 * l.length) := by
  have h : ∀ (l : List Byte) (a n : Nat), a < 2 ^ (8 * n) → l.foldl (fun a b => a * 256 + b.toNat) a < 2 ^ (8 * (n + l.length)) := by
    intro l
    induction l with
    | nil => intro a n h; exact h
    | cons b t ih =>
      intro a n h
      rw [List.foldl_cons, List.length_cons, show n + (t.length + 1) = (n + 1) + t.length from by omega]
      apply ih
      have hb := b.isLt
      have e : 2 ^ (8 * (n + 1)) = 2 ^ (8 * n) * 256 := by rw [Nat.mul_succ, Nat.pow_add]
      omega
  simpa [ofBe] using h l 0 0 (by decide)
/-- A field of `n` bytes lies within its width. -/
theorem beAt_lt (l : List Byte) (o n : Nat) : beAt l o n < 2 ^ (8 * n) :=
  Nat.lt_of_lt_of_le (ofBe_lt _) (Nat.pow_le_pow_right (by decide) (Nat.mul_le_mul_left 8 (List.length_take_le n _)))
/-- DEVICE_ID has 128 bits (R106). -/
theorem deviceId_lt : deviceId < 2 ^ 128 := beAt_lt (sha384 (ecPublic identityKey)) 0 16

end Sys2Proof.Machine
end

