-- ==== Sys2Proof/Laws/Tbl.lean ====
section
/-! SUPPORT. What a write to a sparse table does, and that it keeps the canonical form. -/
namespace Sys2Proof.Machine

variable {α : Type}

@[simp] theorem Tbl.get_nil (d : α) (k : Nat) : Tbl.get d ([] : Tbl α) k = d := rfl

theorem Tbl.get_del (d : α) (t : Tbl α) (k j : Nat) : (t.del k).get d j = if j = k then d else t.get d j := by
  induction t with
  | nil => simp [Tbl.del]
  | cons e t ih =>
    by_cases h : e.1 = k
    · rw [Tbl.del, if_pos h, ih, Tbl.get]
      by_cases hj : j = k
      · simp [hj]
      · simp [hj, show e.1 ≠ j from fun h' => hj (by omega)]
    · rw [Tbl.del, if_neg h, Tbl.get, Tbl.get, ih]
      by_cases hj : e.1 = j
      · simp [hj, show j ≠ k from fun h' => h (by omega)]
      · simp [hj]

theorem Tbl.get_ins (d : α) (t : Tbl α) (k j : Nat) (v : α) (hk : ∀ e ∈ t, e.1 ≠ k) :
    (t.ins k v).get d j = if j = k then v else t.get d j := by
  induction t with
  | nil => by_cases h : k = j <;> simp [Tbl.ins, Tbl.get, h, eq_comm]
  | cons e t ih =>
    have he : e.1 ≠ k := hk e (by simp)
    rw [Tbl.ins]
    split
    · rw [Tbl.get]
      by_cases hj : j = k
      · simp [hj]
      · simp [hj, show k ≠ j from fun h' => hj h'.symm]
    · rw [Tbl.get, ih (fun e he => hk e (by simp [he])), Tbl.get]
      by_cases hj : j = k
      · simp [hj, he]
      · simp [hj]

theorem Tbl.mem_of_mem_del {t : Tbl α} {k : Nat} {e : Nat × α} (h : e ∈ t.del k) : e ∈ t ∧ e.1 ≠ k := by
  induction t with
  | nil => simp [Tbl.del] at h
  | cons f t ih =>
    rw [Tbl.del] at h
    split at h
    · exact ⟨by simp [(ih h).1], (ih h).2⟩
    · rcases List.mem_cons.1 h with rfl | h
      · exact ⟨by simp, by assumption⟩
      · exact ⟨by simp [(ih h).1], (ih h).2⟩

/-- A read after a write: the value written at its key, and the old value at every other key. -/
theorem Tbl.get_put [DecidableEq α] (d : α) (t : Tbl α) (k j : Nat) (v : α) :
    (t.put d k v).get d j = if j = k then v else t.get d j := by
  rw [Tbl.put]
  split
  · next h => rw [Tbl.get_del, h]
  · rw [Tbl.get_ins _ _ _ _ _ (fun e he => (Tbl.mem_of_mem_del he).2), Tbl.get_del]
    by_cases hj : j = k <;> simp [hj]

@[simp] theorem Tbl.get_put_same [DecidableEq α] (d : α) (t : Tbl α) (k : Nat) (v : α) : (t.put d k v).get d k = v := by
  simp [Tbl.get_put]

theorem Tbl.get_put_ne [DecidableEq α] (d d' : α) (t : Tbl α) {k j : Nat} (v : α) (h : j ≠ k) :
    (t.put d k v).get d' j = t.get d' j := by
  have del : (t.del k).get d' j = t.get d' j := by rw [Tbl.get_del, if_neg h]
  rw [Tbl.put]
  split
  · exact del
  · rw [Tbl.get_ins _ _ _ _ _ (fun e he => (Tbl.mem_of_mem_del he).2), if_neg h, del]

/-! ## The canonical form -/

theorem Tbl.wf_tail [DecidableEq α] {d : Nat → α} {e : Nat × α} {t : Tbl α} (h : Tbl.wf d (e :: t) = true) : Tbl.wf d t = true := by
  cases t with
  | nil => rfl
  | cons f t => simp [Tbl.wf] at h; exact h.2

/-- A table is canonical when its head is listed rightly below every other key and its tail is canonical. -/
theorem Tbl.wf_cons [DecidableEq α] {d : Nat → α} {e : Nat × α} {t : Tbl α} :
    Tbl.wf d (e :: t) = true ↔ e.2 ≠ d e.1 ∧ (∀ f ∈ t, e.1 < f.1) ∧ Tbl.wf d t = true := by
  induction t generalizing e with
  | nil => simp [Tbl.wf]
  | cons f t ih =>
    rw [Tbl.wf, Bool.and_eq_true, Bool.and_eq_true, decide_eq_true_eq, decide_eq_true_eq]
    constructor
    · rintro ⟨⟨h1, h2⟩, h3⟩
      refine ⟨h1, ?_, h3⟩
      intro g hg
      rcases List.mem_cons.1 hg with rfl | hg
      · exact h2
      · exact Nat.lt_trans h2 ((ih.1 h3).2.1 g hg)
    · rintro ⟨h1, h2, h3⟩
      exact ⟨⟨h1, h2 f (by simp)⟩, h3⟩

theorem Tbl.wf_filter [DecidableEq α] {d : Nat → α} {t : Tbl α} (p : Nat × α → Bool) (h : Tbl.wf d t = true) :
    Tbl.wf d (t.filter p) = true := by
  induction t with
  | nil => rfl
  | cons e t ih =>
    obtain ⟨h1, h2, h3⟩ := Tbl.wf_cons.1 h
    rw [List.filter_cons]
    split
    · exact Tbl.wf_cons.2 ⟨h1, fun f hf => h2 f ((List.mem_filter.1 hf).1), ih h3⟩
    · exact ih h3

theorem Tbl.wf_drop [DecidableEq α] {d : Nat → α} {t : Tbl α} (p : Nat → Bool) (h : Tbl.wf d t = true) : Tbl.wf d (t.drop p) = true :=
  Tbl.wf_filter _ h

theorem Tbl.wf_del [DecidableEq α] {d : Nat → α} {t : Tbl α} (k : Nat) (h : Tbl.wf d t = true) : Tbl.wf d (t.del k) = true := by
  induction t with
  | nil => rfl
  | cons e t ih =>
    obtain ⟨h1, h2, h3⟩ := Tbl.wf_cons.1 h
    rw [Tbl.del]
    split
    · exact ih h3
    · exact Tbl.wf_cons.2 ⟨h1, fun f hf => h2 f (Tbl.mem_of_mem_del hf).1, ih h3⟩

theorem Tbl.mem_ins {t : Tbl α} {k : Nat} {v : α} {e : Nat × α} (h : e ∈ t.ins k v) : e = (k, v) ∨ e ∈ t := by
  induction t with
  | nil => simpa [Tbl.ins] using h
  | cons f t ih =>
    rw [Tbl.ins] at h
    split at h
    · simpa using h
    · rcases List.mem_cons.1 h with rfl | h
      · simp
      · rcases ih h with h | h <;> simp [h]

theorem Tbl.wf_ins [DecidableEq α] {d : Nat → α} {t : Tbl α} {k : Nat} {v : α} (h : Tbl.wf d t = true) (hv : v ≠ d k)
    (hk : ∀ e ∈ t, e.1 ≠ k) : Tbl.wf d (t.ins k v) = true := by
  induction t with
  | nil => simpa [Tbl.ins, Tbl.wf] using hv
  | cons e t ih =>
    obtain ⟨h1, h2, h3⟩ := Tbl.wf_cons.1 h
    rw [Tbl.ins]
    split
    · next hlt =>
      refine Tbl.wf_cons.2 ⟨hv, ?_, h⟩
      intro f hf
      rcases List.mem_cons.1 hf with rfl | hf
      · exact hlt
      · exact Nat.lt_trans hlt (h2 f hf)
    · refine Tbl.wf_cons.2 ⟨h1, ?_, ih h3 fun e he => hk e (by simp [he])⟩
      intro f hf
      rcases Tbl.mem_ins hf with rfl | hf
      · have := hk e (by simp)
        show e.1 < k
        omega
      · exact h2 f hf

/-- A write keeps the canonical form. -/
theorem Tbl.wf_put [DecidableEq α] {d : Nat → α} {t : Tbl α} (k : Nat) (v : α) (h : Tbl.wf d t = true) : Tbl.wf d (t.put (d k) k v) = true := by
  rw [Tbl.put]
  split
  · exact Tbl.wf_del k h
  · next hv => exact Tbl.wf_ins (Tbl.wf_del k h) hv fun e he => (Tbl.mem_of_mem_del he).2

end Sys2Proof.Machine
end

