-- ==== Sys2Proof/Laws/State.lean ====
section
/-! SUPPORT. What the plain updates of the state leave unchanged: one lemma per field per update, true by definition. -/
namespace Sys2Proof.Machine

/-! ## `State.set` -/

@[simp] theorem State.set_pending (s : State) (f : Fld) (v : Nat) : (s.set f v).pending = s.pending := rfl
@[simp] theorem State.set_variant (s : State) (f : Fld) (v : Nat) : (s.set f v).variant = s.variant := rfl
@[simp] theorem State.set_now (s : State) (f : Fld) (v : Nat) : (s.set f v).now = s.now := rfl
@[simp] theorem State.set_t0 (s : State) (f : Fld) (v : Nat) : (s.set f v).t0 = s.t0 := rfl
@[simp] theorem State.set_dealt (s : State) (f : Fld) (v : Nat) : (s.set f v).dealt = s.dealt := rfl
@[simp] theorem State.set_caught (s : State) (f : Fld) (v : Nat) : (s.set f v).caught = s.caught := rfl
@[simp] theorem State.set_due (s : State) (f : Fld) (v : Nat) : (s.set f v).due = s.due := rfl
@[simp] theorem State.set_free (s : State) (f : Fld) (v : Nat) : (s.set f v).free = s.free := rfl
@[simp] theorem State.set_col (s : State) (f : Fld) (v : Nat) : (s.set f v).col = s.col := rfl
@[simp] theorem State.set_sup (s : State) (f : Fld) (v : Nat) : (s.set f v).sup = s.sup := rfl
@[simp] theorem State.set_dom (s : State) (f : Fld) (v : Nat) : (s.set f v).dom = s.dom := rfl
@[simp] theorem State.set_cad (s : State) (f : Fld) (v : Nat) : (s.set f v).cad = s.cad := rfl
@[simp] theorem State.set_inst (s : State) (f : Fld) (v : Nat) : (s.set f v).inst = s.inst := rfl
@[simp] theorem State.set_deck (s : State) (f : Fld) (v : Nat) : (s.set f v).deck = s.deck := rfl
@[simp] theorem State.set_deal (s : State) (f : Fld) (v : Nat) : (s.set f v).deal = s.deal := rfl
@[simp] theorem State.set_trust (s : State) (f : Fld) (v : Nat) : (s.set f v).trust = s.trust := rfl
@[simp] theorem State.set_svc (s : State) (f : Fld) (v : Nat) : (s.set f v).svc = s.svc := rfl
@[simp] theorem State.set_dbg (s : State) (f : Fld) (v : Nat) : (s.set f v).dbg = s.dbg := rfl
@[simp] theorem State.set_pools (s : State) (f : Fld) (v : Nat) : (s.set f v).pools = s.pools := rfl
@[simp] theorem State.set_dram (s : State) (f : Fld) (v : Nat) : (s.set f v).dram = s.dram := rfl
@[simp] theorem State.set_buf (s : State) (f : Fld) (v : Nat) : (s.set f v).buf = s.buf := rfl
@[simp] theorem State.set_mac (s : State) (f : Fld) (v : Nat) : (s.set f v).mac = s.mac := rfl
@[simp] theorem State.set_pipe (s : State) (f : Fld) (v : Nat) : (s.set f v).pipe = s.pipe := rfl
@[simp] theorem State.set_tabs (s : State) (f : Fld) (v : Nat) : (s.set f v).tabs = s.tabs := rfl
@[simp] theorem State.set_flow (s : State) (f : Fld) (v : Nat) : (s.set f v).flow = s.flow := rfl
@[simp] theorem State.set_tm (s : State) (f : Fld) (v : Nat) : (s.set f v).tm = s.tm := rfl
@[simp] theorem State.set_time (s : State) (f : Fld) (v : Nat) : (s.set f v).time = s.time := rfl
@[simp] theorem State.set_nel (s : State) (f : Fld) (v : Nat) : (s.set f v).nel = s.nel := rfl
@[simp] theorem State.set_serv (s : State) (f : Fld) (v : Nat) : (s.set f v).serv = s.serv := rfl
@[simp] theorem State.set_mgmt (s : State) (f : Fld) (v : Nat) : (s.set f v).mgmt = s.mgmt := rfl
@[simp] theorem State.set_mem (s : State) (f : Fld) (v : Nat) : (s.set f v).mem = s.mem := rfl

/-! ## `State.setB` -/

@[simp] theorem State.setB_pending (s : State) (f : Fld) (b : Bool) : (s.setB f b).pending = s.pending := rfl
@[simp] theorem State.setB_variant (s : State) (f : Fld) (b : Bool) : (s.setB f b).variant = s.variant := rfl
@[simp] theorem State.setB_now (s : State) (f : Fld) (b : Bool) : (s.setB f b).now = s.now := rfl
@[simp] theorem State.setB_t0 (s : State) (f : Fld) (b : Bool) : (s.setB f b).t0 = s.t0 := rfl
@[simp] theorem State.setB_dealt (s : State) (f : Fld) (b : Bool) : (s.setB f b).dealt = s.dealt := rfl
@[simp] theorem State.setB_caught (s : State) (f : Fld) (b : Bool) : (s.setB f b).caught = s.caught := rfl
@[simp] theorem State.setB_due (s : State) (f : Fld) (b : Bool) : (s.setB f b).due = s.due := rfl
@[simp] theorem State.setB_free (s : State) (f : Fld) (b : Bool) : (s.setB f b).free = s.free := rfl
@[simp] theorem State.setB_col (s : State) (f : Fld) (b : Bool) : (s.setB f b).col = s.col := rfl
@[simp] theorem State.setB_sup (s : State) (f : Fld) (b : Bool) : (s.setB f b).sup = s.sup := rfl
@[simp] theorem State.setB_dom (s : State) (f : Fld) (b : Bool) : (s.setB f b).dom = s.dom := rfl
@[simp] theorem State.setB_cad (s : State) (f : Fld) (b : Bool) : (s.setB f b).cad = s.cad := rfl
@[simp] theorem State.setB_inst (s : State) (f : Fld) (b : Bool) : (s.setB f b).inst = s.inst := rfl
@[simp] theorem State.setB_deck (s : State) (f : Fld) (b : Bool) : (s.setB f b).deck = s.deck := rfl
@[simp] theorem State.setB_deal (s : State) (f : Fld) (b : Bool) : (s.setB f b).deal = s.deal := rfl
@[simp] theorem State.setB_trust (s : State) (f : Fld) (b : Bool) : (s.setB f b).trust = s.trust := rfl
@[simp] theorem State.setB_svc (s : State) (f : Fld) (b : Bool) : (s.setB f b).svc = s.svc := rfl
@[simp] theorem State.setB_dbg (s : State) (f : Fld) (b : Bool) : (s.setB f b).dbg = s.dbg := rfl
@[simp] theorem State.setB_pools (s : State) (f : Fld) (b : Bool) : (s.setB f b).pools = s.pools := rfl
@[simp] theorem State.setB_dram (s : State) (f : Fld) (b : Bool) : (s.setB f b).dram = s.dram := rfl
@[simp] theorem State.setB_buf (s : State) (f : Fld) (b : Bool) : (s.setB f b).buf = s.buf := rfl
@[simp] theorem State.setB_mac (s : State) (f : Fld) (b : Bool) : (s.setB f b).mac = s.mac := rfl
@[simp] theorem State.setB_pipe (s : State) (f : Fld) (b : Bool) : (s.setB f b).pipe = s.pipe := rfl
@[simp] theorem State.setB_tabs (s : State) (f : Fld) (b : Bool) : (s.setB f b).tabs = s.tabs := rfl
@[simp] theorem State.setB_flow (s : State) (f : Fld) (b : Bool) : (s.setB f b).flow = s.flow := rfl
@[simp] theorem State.setB_tm (s : State) (f : Fld) (b : Bool) : (s.setB f b).tm = s.tm := rfl
@[simp] theorem State.setB_time (s : State) (f : Fld) (b : Bool) : (s.setB f b).time = s.time := rfl
@[simp] theorem State.setB_nel (s : State) (f : Fld) (b : Bool) : (s.setB f b).nel = s.nel := rfl
@[simp] theorem State.setB_serv (s : State) (f : Fld) (b : Bool) : (s.setB f b).serv = s.serv := rfl
@[simp] theorem State.setB_mgmt (s : State) (f : Fld) (b : Bool) : (s.setB f b).mgmt = s.mgmt := rfl
@[simp] theorem State.setB_mem (s : State) (f : Fld) (b : Bool) : (s.setB f b).mem = s.mem := rfl

/-! ## `State.add` -/

@[simp] theorem State.add_pending (s : State) (f : Fld) (n : Nat) : (s.add f n).pending = s.pending := rfl
@[simp] theorem State.add_variant (s : State) (f : Fld) (n : Nat) : (s.add f n).variant = s.variant := rfl
@[simp] theorem State.add_now (s : State) (f : Fld) (n : Nat) : (s.add f n).now = s.now := rfl
@[simp] theorem State.add_t0 (s : State) (f : Fld) (n : Nat) : (s.add f n).t0 = s.t0 := rfl
@[simp] theorem State.add_dealt (s : State) (f : Fld) (n : Nat) : (s.add f n).dealt = s.dealt := rfl
@[simp] theorem State.add_caught (s : State) (f : Fld) (n : Nat) : (s.add f n).caught = s.caught := rfl
@[simp] theorem State.add_due (s : State) (f : Fld) (n : Nat) : (s.add f n).due = s.due := rfl
@[simp] theorem State.add_free (s : State) (f : Fld) (n : Nat) : (s.add f n).free = s.free := rfl
@[simp] theorem State.add_col (s : State) (f : Fld) (n : Nat) : (s.add f n).col = s.col := rfl
@[simp] theorem State.add_sup (s : State) (f : Fld) (n : Nat) : (s.add f n).sup = s.sup := rfl
@[simp] theorem State.add_dom (s : State) (f : Fld) (n : Nat) : (s.add f n).dom = s.dom := rfl
@[simp] theorem State.add_cad (s : State) (f : Fld) (n : Nat) : (s.add f n).cad = s.cad := rfl
@[simp] theorem State.add_inst (s : State) (f : Fld) (n : Nat) : (s.add f n).inst = s.inst := rfl
@[simp] theorem State.add_deck (s : State) (f : Fld) (n : Nat) : (s.add f n).deck = s.deck := rfl
@[simp] theorem State.add_deal (s : State) (f : Fld) (n : Nat) : (s.add f n).deal = s.deal := rfl
@[simp] theorem State.add_trust (s : State) (f : Fld) (n : Nat) : (s.add f n).trust = s.trust := rfl
@[simp] theorem State.add_svc (s : State) (f : Fld) (n : Nat) : (s.add f n).svc = s.svc := rfl
@[simp] theorem State.add_dbg (s : State) (f : Fld) (n : Nat) : (s.add f n).dbg = s.dbg := rfl
@[simp] theorem State.add_pools (s : State) (f : Fld) (n : Nat) : (s.add f n).pools = s.pools := rfl
@[simp] theorem State.add_dram (s : State) (f : Fld) (n : Nat) : (s.add f n).dram = s.dram := rfl
@[simp] theorem State.add_buf (s : State) (f : Fld) (n : Nat) : (s.add f n).buf = s.buf := rfl
@[simp] theorem State.add_mac (s : State) (f : Fld) (n : Nat) : (s.add f n).mac = s.mac := rfl
@[simp] theorem State.add_pipe (s : State) (f : Fld) (n : Nat) : (s.add f n).pipe = s.pipe := rfl
@[simp] theorem State.add_tabs (s : State) (f : Fld) (n : Nat) : (s.add f n).tabs = s.tabs := rfl
@[simp] theorem State.add_flow (s : State) (f : Fld) (n : Nat) : (s.add f n).flow = s.flow := rfl
@[simp] theorem State.add_tm (s : State) (f : Fld) (n : Nat) : (s.add f n).tm = s.tm := rfl
@[simp] theorem State.add_time (s : State) (f : Fld) (n : Nat) : (s.add f n).time = s.time := rfl
@[simp] theorem State.add_nel (s : State) (f : Fld) (n : Nat) : (s.add f n).nel = s.nel := rfl
@[simp] theorem State.add_serv (s : State) (f : Fld) (n : Nat) : (s.add f n).serv = s.serv := rfl
@[simp] theorem State.add_mgmt (s : State) (f : Fld) (n : Nat) : (s.add f n).mgmt = s.mgmt := rfl
@[simp] theorem State.add_mem (s : State) (f : Fld) (n : Nat) : (s.add f n).mem = s.mem := rfl

/-! ## `State.bump` -/

@[simp] theorem State.bump_pending (s : State) (f : Fld) : (s.bump f).pending = s.pending := rfl
@[simp] theorem State.bump_variant (s : State) (f : Fld) : (s.bump f).variant = s.variant := rfl
@[simp] theorem State.bump_now (s : State) (f : Fld) : (s.bump f).now = s.now := rfl
@[simp] theorem State.bump_t0 (s : State) (f : Fld) : (s.bump f).t0 = s.t0 := rfl
@[simp] theorem State.bump_dealt (s : State) (f : Fld) : (s.bump f).dealt = s.dealt := rfl
@[simp] theorem State.bump_caught (s : State) (f : Fld) : (s.bump f).caught = s.caught := rfl
@[simp] theorem State.bump_due (s : State) (f : Fld) : (s.bump f).due = s.due := rfl
@[simp] theorem State.bump_free (s : State) (f : Fld) : (s.bump f).free = s.free := rfl
@[simp] theorem State.bump_col (s : State) (f : Fld) : (s.bump f).col = s.col := rfl
@[simp] theorem State.bump_sup (s : State) (f : Fld) : (s.bump f).sup = s.sup := rfl
@[simp] theorem State.bump_dom (s : State) (f : Fld) : (s.bump f).dom = s.dom := rfl
@[simp] theorem State.bump_cad (s : State) (f : Fld) : (s.bump f).cad = s.cad := rfl
@[simp] theorem State.bump_inst (s : State) (f : Fld) : (s.bump f).inst = s.inst := rfl
@[simp] theorem State.bump_deck (s : State) (f : Fld) : (s.bump f).deck = s.deck := rfl
@[simp] theorem State.bump_deal (s : State) (f : Fld) : (s.bump f).deal = s.deal := rfl
@[simp] theorem State.bump_trust (s : State) (f : Fld) : (s.bump f).trust = s.trust := rfl
@[simp] theorem State.bump_svc (s : State) (f : Fld) : (s.bump f).svc = s.svc := rfl
@[simp] theorem State.bump_dbg (s : State) (f : Fld) : (s.bump f).dbg = s.dbg := rfl
@[simp] theorem State.bump_pools (s : State) (f : Fld) : (s.bump f).pools = s.pools := rfl
@[simp] theorem State.bump_dram (s : State) (f : Fld) : (s.bump f).dram = s.dram := rfl
@[simp] theorem State.bump_buf (s : State) (f : Fld) : (s.bump f).buf = s.buf := rfl
@[simp] theorem State.bump_mac (s : State) (f : Fld) : (s.bump f).mac = s.mac := rfl
@[simp] theorem State.bump_pipe (s : State) (f : Fld) : (s.bump f).pipe = s.pipe := rfl
@[simp] theorem State.bump_tabs (s : State) (f : Fld) : (s.bump f).tabs = s.tabs := rfl
@[simp] theorem State.bump_flow (s : State) (f : Fld) : (s.bump f).flow = s.flow := rfl
@[simp] theorem State.bump_tm (s : State) (f : Fld) : (s.bump f).tm = s.tm := rfl
@[simp] theorem State.bump_time (s : State) (f : Fld) : (s.bump f).time = s.time := rfl
@[simp] theorem State.bump_nel (s : State) (f : Fld) : (s.bump f).nel = s.nel := rfl
@[simp] theorem State.bump_serv (s : State) (f : Fld) : (s.bump f).serv = s.serv := rfl
@[simp] theorem State.bump_mgmt (s : State) (f : Fld) : (s.bump f).mgmt = s.mgmt := rfl
@[simp] theorem State.bump_mem (s : State) (f : Fld) : (s.bump f).mem = s.mem := rfl

/-! ## `State.orIn` -/

@[simp] theorem State.orIn_pending (s : State) (f : Fld) (m : Nat) : (s.orIn f m).pending = s.pending := rfl
@[simp] theorem State.orIn_variant (s : State) (f : Fld) (m : Nat) : (s.orIn f m).variant = s.variant := rfl
@[simp] theorem State.orIn_now (s : State) (f : Fld) (m : Nat) : (s.orIn f m).now = s.now := rfl
@[simp] theorem State.orIn_t0 (s : State) (f : Fld) (m : Nat) : (s.orIn f m).t0 = s.t0 := rfl
@[simp] theorem State.orIn_dealt (s : State) (f : Fld) (m : Nat) : (s.orIn f m).dealt = s.dealt := rfl
@[simp] theorem State.orIn_caught (s : State) (f : Fld) (m : Nat) : (s.orIn f m).caught = s.caught := rfl
@[simp] theorem State.orIn_due (s : State) (f : Fld) (m : Nat) : (s.orIn f m).due = s.due := rfl
@[simp] theorem State.orIn_free (s : State) (f : Fld) (m : Nat) : (s.orIn f m).free = s.free := rfl
@[simp] theorem State.orIn_col (s : State) (f : Fld) (m : Nat) : (s.orIn f m).col = s.col := rfl
@[simp] theorem State.orIn_sup (s : State) (f : Fld) (m : Nat) : (s.orIn f m).sup = s.sup := rfl
@[simp] theorem State.orIn_dom (s : State) (f : Fld) (m : Nat) : (s.orIn f m).dom = s.dom := rfl
@[simp] theorem State.orIn_cad (s : State) (f : Fld) (m : Nat) : (s.orIn f m).cad = s.cad := rfl
@[simp] theorem State.orIn_inst (s : State) (f : Fld) (m : Nat) : (s.orIn f m).inst = s.inst := rfl
@[simp] theorem State.orIn_deck (s : State) (f : Fld) (m : Nat) : (s.orIn f m).deck = s.deck := rfl
@[simp] theorem State.orIn_deal (s : State) (f : Fld) (m : Nat) : (s.orIn f m).deal = s.deal := rfl
@[simp] theorem State.orIn_trust (s : State) (f : Fld) (m : Nat) : (s.orIn f m).trust = s.trust := rfl
@[simp] theorem State.orIn_svc (s : State) (f : Fld) (m : Nat) : (s.orIn f m).svc = s.svc := rfl
@[simp] theorem State.orIn_dbg (s : State) (f : Fld) (m : Nat) : (s.orIn f m).dbg = s.dbg := rfl
@[simp] theorem State.orIn_pools (s : State) (f : Fld) (m : Nat) : (s.orIn f m).pools = s.pools := rfl
@[simp] theorem State.orIn_dram (s : State) (f : Fld) (m : Nat) : (s.orIn f m).dram = s.dram := rfl
@[simp] theorem State.orIn_buf (s : State) (f : Fld) (m : Nat) : (s.orIn f m).buf = s.buf := rfl
@[simp] theorem State.orIn_mac (s : State) (f : Fld) (m : Nat) : (s.orIn f m).mac = s.mac := rfl
@[simp] theorem State.orIn_pipe (s : State) (f : Fld) (m : Nat) : (s.orIn f m).pipe = s.pipe := rfl
@[simp] theorem State.orIn_tabs (s : State) (f : Fld) (m : Nat) : (s.orIn f m).tabs = s.tabs := rfl
@[simp] theorem State.orIn_flow (s : State) (f : Fld) (m : Nat) : (s.orIn f m).flow = s.flow := rfl
@[simp] theorem State.orIn_tm (s : State) (f : Fld) (m : Nat) : (s.orIn f m).tm = s.tm := rfl
@[simp] theorem State.orIn_time (s : State) (f : Fld) (m : Nat) : (s.orIn f m).time = s.time := rfl
@[simp] theorem State.orIn_nel (s : State) (f : Fld) (m : Nat) : (s.orIn f m).nel = s.nel := rfl
@[simp] theorem State.orIn_serv (s : State) (f : Fld) (m : Nat) : (s.orIn f m).serv = s.serv := rfl
@[simp] theorem State.orIn_mgmt (s : State) (f : Fld) (m : Nat) : (s.orIn f m).mgmt = s.mgmt := rfl
@[simp] theorem State.orIn_mem (s : State) (f : Fld) (m : Nat) : (s.orIn f m).mem = s.mem := rfl

/-! ## `State.clrIn` -/

@[simp] theorem State.clrIn_pending (s : State) (f : Fld) (m : Nat) : (s.clrIn f m).pending = s.pending := rfl
@[simp] theorem State.clrIn_variant (s : State) (f : Fld) (m : Nat) : (s.clrIn f m).variant = s.variant := rfl
@[simp] theorem State.clrIn_now (s : State) (f : Fld) (m : Nat) : (s.clrIn f m).now = s.now := rfl
@[simp] theorem State.clrIn_t0 (s : State) (f : Fld) (m : Nat) : (s.clrIn f m).t0 = s.t0 := rfl
@[simp] theorem State.clrIn_dealt (s : State) (f : Fld) (m : Nat) : (s.clrIn f m).dealt = s.dealt := rfl
@[simp] theorem State.clrIn_caught (s : State) (f : Fld) (m : Nat) : (s.clrIn f m).caught = s.caught := rfl
@[simp] theorem State.clrIn_due (s : State) (f : Fld) (m : Nat) : (s.clrIn f m).due = s.due := rfl
@[simp] theorem State.clrIn_free (s : State) (f : Fld) (m : Nat) : (s.clrIn f m).free = s.free := rfl
@[simp] theorem State.clrIn_col (s : State) (f : Fld) (m : Nat) : (s.clrIn f m).col = s.col := rfl
@[simp] theorem State.clrIn_sup (s : State) (f : Fld) (m : Nat) : (s.clrIn f m).sup = s.sup := rfl
@[simp] theorem State.clrIn_dom (s : State) (f : Fld) (m : Nat) : (s.clrIn f m).dom = s.dom := rfl
@[simp] theorem State.clrIn_cad (s : State) (f : Fld) (m : Nat) : (s.clrIn f m).cad = s.cad := rfl
@[simp] theorem State.clrIn_inst (s : State) (f : Fld) (m : Nat) : (s.clrIn f m).inst = s.inst := rfl
@[simp] theorem State.clrIn_deck (s : State) (f : Fld) (m : Nat) : (s.clrIn f m).deck = s.deck := rfl
@[simp] theorem State.clrIn_deal (s : State) (f : Fld) (m : Nat) : (s.clrIn f m).deal = s.deal := rfl
@[simp] theorem State.clrIn_trust (s : State) (f : Fld) (m : Nat) : (s.clrIn f m).trust = s.trust := rfl
@[simp] theorem State.clrIn_svc (s : State) (f : Fld) (m : Nat) : (s.clrIn f m).svc = s.svc := rfl
@[simp] theorem State.clrIn_dbg (s : State) (f : Fld) (m : Nat) : (s.clrIn f m).dbg = s.dbg := rfl
@[simp] theorem State.clrIn_pools (s : State) (f : Fld) (m : Nat) : (s.clrIn f m).pools = s.pools := rfl
@[simp] theorem State.clrIn_dram (s : State) (f : Fld) (m : Nat) : (s.clrIn f m).dram = s.dram := rfl
@[simp] theorem State.clrIn_buf (s : State) (f : Fld) (m : Nat) : (s.clrIn f m).buf = s.buf := rfl
@[simp] theorem State.clrIn_mac (s : State) (f : Fld) (m : Nat) : (s.clrIn f m).mac = s.mac := rfl
@[simp] theorem State.clrIn_pipe (s : State) (f : Fld) (m : Nat) : (s.clrIn f m).pipe = s.pipe := rfl
@[simp] theorem State.clrIn_tabs (s : State) (f : Fld) (m : Nat) : (s.clrIn f m).tabs = s.tabs := rfl
@[simp] theorem State.clrIn_flow (s : State) (f : Fld) (m : Nat) : (s.clrIn f m).flow = s.flow := rfl
@[simp] theorem State.clrIn_tm (s : State) (f : Fld) (m : Nat) : (s.clrIn f m).tm = s.tm := rfl
@[simp] theorem State.clrIn_time (s : State) (f : Fld) (m : Nat) : (s.clrIn f m).time = s.time := rfl
@[simp] theorem State.clrIn_nel (s : State) (f : Fld) (m : Nat) : (s.clrIn f m).nel = s.nel := rfl
@[simp] theorem State.clrIn_serv (s : State) (f : Fld) (m : Nat) : (s.clrIn f m).serv = s.serv := rfl
@[simp] theorem State.clrIn_mgmt (s : State) (f : Fld) (m : Nat) : (s.clrIn f m).mgmt = s.mgmt := rfl
@[simp] theorem State.clrIn_mem (s : State) (f : Fld) (m : Nat) : (s.clrIn f m).mem = s.mem := rfl

/-! ## `State.arm` -/

@[simp] theorem State.arm_pending (s : State) (t : Tmr) (n : Nat) : (s.arm t n).pending = s.pending := rfl
@[simp] theorem State.arm_variant (s : State) (t : Tmr) (n : Nat) : (s.arm t n).variant = s.variant := rfl
@[simp] theorem State.arm_now (s : State) (t : Tmr) (n : Nat) : (s.arm t n).now = s.now := rfl
@[simp] theorem State.arm_t0 (s : State) (t : Tmr) (n : Nat) : (s.arm t n).t0 = s.t0 := rfl
@[simp] theorem State.arm_regs (s : State) (t : Tmr) (n : Nat) : (s.arm t n).regs = s.regs := rfl
@[simp] theorem State.arm_dealt (s : State) (t : Tmr) (n : Nat) : (s.arm t n).dealt = s.dealt := rfl
@[simp] theorem State.arm_caught (s : State) (t : Tmr) (n : Nat) : (s.arm t n).caught = s.caught := rfl
@[simp] theorem State.arm_free (s : State) (t : Tmr) (n : Nat) : (s.arm t n).free = s.free := rfl
@[simp] theorem State.arm_col (s : State) (t : Tmr) (n : Nat) : (s.arm t n).col = s.col := rfl
@[simp] theorem State.arm_sup (s : State) (t : Tmr) (n : Nat) : (s.arm t n).sup = s.sup := rfl
@[simp] theorem State.arm_dom (s : State) (t : Tmr) (n : Nat) : (s.arm t n).dom = s.dom := rfl
@[simp] theorem State.arm_cad (s : State) (t : Tmr) (n : Nat) : (s.arm t n).cad = s.cad := rfl
@[simp] theorem State.arm_inst (s : State) (t : Tmr) (n : Nat) : (s.arm t n).inst = s.inst := rfl
@[simp] theorem State.arm_deck (s : State) (t : Tmr) (n : Nat) : (s.arm t n).deck = s.deck := rfl
@[simp] theorem State.arm_deal (s : State) (t : Tmr) (n : Nat) : (s.arm t n).deal = s.deal := rfl
@[simp] theorem State.arm_trust (s : State) (t : Tmr) (n : Nat) : (s.arm t n).trust = s.trust := rfl
@[simp] theorem State.arm_svc (s : State) (t : Tmr) (n : Nat) : (s.arm t n).svc = s.svc := rfl
@[simp] theorem State.arm_dbg (s : State) (t : Tmr) (n : Nat) : (s.arm t n).dbg = s.dbg := rfl
@[simp] theorem State.arm_pools (s : State) (t : Tmr) (n : Nat) : (s.arm t n).pools = s.pools := rfl
@[simp] theorem State.arm_dram (s : State) (t : Tmr) (n : Nat) : (s.arm t n).dram = s.dram := rfl
@[simp] theorem State.arm_buf (s : State) (t : Tmr) (n : Nat) : (s.arm t n).buf = s.buf := rfl
@[simp] theorem State.arm_mac (s : State) (t : Tmr) (n : Nat) : (s.arm t n).mac = s.mac := rfl
@[simp] theorem State.arm_pipe (s : State) (t : Tmr) (n : Nat) : (s.arm t n).pipe = s.pipe := rfl
@[simp] theorem State.arm_tabs (s : State) (t : Tmr) (n : Nat) : (s.arm t n).tabs = s.tabs := rfl
@[simp] theorem State.arm_flow (s : State) (t : Tmr) (n : Nat) : (s.arm t n).flow = s.flow := rfl
@[simp] theorem State.arm_tm (s : State) (t : Tmr) (n : Nat) : (s.arm t n).tm = s.tm := rfl
@[simp] theorem State.arm_time (s : State) (t : Tmr) (n : Nat) : (s.arm t n).time = s.time := rfl
@[simp] theorem State.arm_nel (s : State) (t : Tmr) (n : Nat) : (s.arm t n).nel = s.nel := rfl
@[simp] theorem State.arm_serv (s : State) (t : Tmr) (n : Nat) : (s.arm t n).serv = s.serv := rfl
@[simp] theorem State.arm_mgmt (s : State) (t : Tmr) (n : Nat) : (s.arm t n).mgmt = s.mgmt := rfl
@[simp] theorem State.arm_mem (s : State) (t : Tmr) (n : Nat) : (s.arm t n).mem = s.mem := rfl

/-! ## `State.armAt` -/

@[simp] theorem State.armAt_pending (s : State) (t : Tmr) (n : Nat) : (s.armAt t n).pending = s.pending := rfl
@[simp] theorem State.armAt_variant (s : State) (t : Tmr) (n : Nat) : (s.armAt t n).variant = s.variant := rfl
@[simp] theorem State.armAt_now (s : State) (t : Tmr) (n : Nat) : (s.armAt t n).now = s.now := rfl
@[simp] theorem State.armAt_t0 (s : State) (t : Tmr) (n : Nat) : (s.armAt t n).t0 = s.t0 := rfl
@[simp] theorem State.armAt_regs (s : State) (t : Tmr) (n : Nat) : (s.armAt t n).regs = s.regs := rfl
@[simp] theorem State.armAt_dealt (s : State) (t : Tmr) (n : Nat) : (s.armAt t n).dealt = s.dealt := rfl
@[simp] theorem State.armAt_caught (s : State) (t : Tmr) (n : Nat) : (s.armAt t n).caught = s.caught := rfl
@[simp] theorem State.armAt_free (s : State) (t : Tmr) (n : Nat) : (s.armAt t n).free = s.free := rfl
@[simp] theorem State.armAt_col (s : State) (t : Tmr) (n : Nat) : (s.armAt t n).col = s.col := rfl
@[simp] theorem State.armAt_sup (s : State) (t : Tmr) (n : Nat) : (s.armAt t n).sup = s.sup := rfl
@[simp] theorem State.armAt_dom (s : State) (t : Tmr) (n : Nat) : (s.armAt t n).dom = s.dom := rfl
@[simp] theorem State.armAt_cad (s : State) (t : Tmr) (n : Nat) : (s.armAt t n).cad = s.cad := rfl
@[simp] theorem State.armAt_inst (s : State) (t : Tmr) (n : Nat) : (s.armAt t n).inst = s.inst := rfl
@[simp] theorem State.armAt_deck (s : State) (t : Tmr) (n : Nat) : (s.armAt t n).deck = s.deck := rfl
@[simp] theorem State.armAt_deal (s : State) (t : Tmr) (n : Nat) : (s.armAt t n).deal = s.deal := rfl
@[simp] theorem State.armAt_trust (s : State) (t : Tmr) (n : Nat) : (s.armAt t n).trust = s.trust := rfl
@[simp] theorem State.armAt_svc (s : State) (t : Tmr) (n : Nat) : (s.armAt t n).svc = s.svc := rfl
@[simp] theorem State.armAt_dbg (s : State) (t : Tmr) (n : Nat) : (s.armAt t n).dbg = s.dbg := rfl
@[simp] theorem State.armAt_pools (s : State) (t : Tmr) (n : Nat) : (s.armAt t n).pools = s.pools := rfl
@[simp] theorem State.armAt_dram (s : State) (t : Tmr) (n : Nat) : (s.armAt t n).dram = s.dram := rfl
@[simp] theorem State.armAt_buf (s : State) (t : Tmr) (n : Nat) : (s.armAt t n).buf = s.buf := rfl
@[simp] theorem State.armAt_mac (s : State) (t : Tmr) (n : Nat) : (s.armAt t n).mac = s.mac := rfl
@[simp] theorem State.armAt_pipe (s : State) (t : Tmr) (n : Nat) : (s.armAt t n).pipe = s.pipe := rfl
@[simp] theorem State.armAt_tabs (s : State) (t : Tmr) (n : Nat) : (s.armAt t n).tabs = s.tabs := rfl
@[simp] theorem State.armAt_flow (s : State) (t : Tmr) (n : Nat) : (s.armAt t n).flow = s.flow := rfl
@[simp] theorem State.armAt_tm (s : State) (t : Tmr) (n : Nat) : (s.armAt t n).tm = s.tm := rfl
@[simp] theorem State.armAt_time (s : State) (t : Tmr) (n : Nat) : (s.armAt t n).time = s.time := rfl
@[simp] theorem State.armAt_nel (s : State) (t : Tmr) (n : Nat) : (s.armAt t n).nel = s.nel := rfl
@[simp] theorem State.armAt_serv (s : State) (t : Tmr) (n : Nat) : (s.armAt t n).serv = s.serv := rfl
@[simp] theorem State.armAt_mgmt (s : State) (t : Tmr) (n : Nat) : (s.armAt t n).mgmt = s.mgmt := rfl
@[simp] theorem State.armAt_mem (s : State) (t : Tmr) (n : Nat) : (s.armAt t n).mem = s.mem := rfl

/-! ## `State.disarm` -/

@[simp] theorem State.disarm_pending (s : State) (t : Tmr) : (s.disarm t).pending = s.pending := rfl
@[simp] theorem State.disarm_variant (s : State) (t : Tmr) : (s.disarm t).variant = s.variant := rfl
@[simp] theorem State.disarm_now (s : State) (t : Tmr) : (s.disarm t).now = s.now := rfl
@[simp] theorem State.disarm_t0 (s : State) (t : Tmr) : (s.disarm t).t0 = s.t0 := rfl
@[simp] theorem State.disarm_regs (s : State) (t : Tmr) : (s.disarm t).regs = s.regs := rfl
@[simp] theorem State.disarm_dealt (s : State) (t : Tmr) : (s.disarm t).dealt = s.dealt := rfl
@[simp] theorem State.disarm_caught (s : State) (t : Tmr) : (s.disarm t).caught = s.caught := rfl
@[simp] theorem State.disarm_free (s : State) (t : Tmr) : (s.disarm t).free = s.free := rfl
@[simp] theorem State.disarm_col (s : State) (t : Tmr) : (s.disarm t).col = s.col := rfl
@[simp] theorem State.disarm_sup (s : State) (t : Tmr) : (s.disarm t).sup = s.sup := rfl
@[simp] theorem State.disarm_dom (s : State) (t : Tmr) : (s.disarm t).dom = s.dom := rfl
@[simp] theorem State.disarm_cad (s : State) (t : Tmr) : (s.disarm t).cad = s.cad := rfl
@[simp] theorem State.disarm_inst (s : State) (t : Tmr) : (s.disarm t).inst = s.inst := rfl
@[simp] theorem State.disarm_deck (s : State) (t : Tmr) : (s.disarm t).deck = s.deck := rfl
@[simp] theorem State.disarm_deal (s : State) (t : Tmr) : (s.disarm t).deal = s.deal := rfl
@[simp] theorem State.disarm_trust (s : State) (t : Tmr) : (s.disarm t).trust = s.trust := rfl
@[simp] theorem State.disarm_svc (s : State) (t : Tmr) : (s.disarm t).svc = s.svc := rfl
@[simp] theorem State.disarm_dbg (s : State) (t : Tmr) : (s.disarm t).dbg = s.dbg := rfl
@[simp] theorem State.disarm_pools (s : State) (t : Tmr) : (s.disarm t).pools = s.pools := rfl
@[simp] theorem State.disarm_dram (s : State) (t : Tmr) : (s.disarm t).dram = s.dram := rfl
@[simp] theorem State.disarm_buf (s : State) (t : Tmr) : (s.disarm t).buf = s.buf := rfl
@[simp] theorem State.disarm_mac (s : State) (t : Tmr) : (s.disarm t).mac = s.mac := rfl
@[simp] theorem State.disarm_pipe (s : State) (t : Tmr) : (s.disarm t).pipe = s.pipe := rfl
@[simp] theorem State.disarm_tabs (s : State) (t : Tmr) : (s.disarm t).tabs = s.tabs := rfl
@[simp] theorem State.disarm_flow (s : State) (t : Tmr) : (s.disarm t).flow = s.flow := rfl
@[simp] theorem State.disarm_tm (s : State) (t : Tmr) : (s.disarm t).tm = s.tm := rfl
@[simp] theorem State.disarm_time (s : State) (t : Tmr) : (s.disarm t).time = s.time := rfl
@[simp] theorem State.disarm_nel (s : State) (t : Tmr) : (s.disarm t).nel = s.nel := rfl
@[simp] theorem State.disarm_serv (s : State) (t : Tmr) : (s.disarm t).serv = s.serv := rfl
@[simp] theorem State.disarm_mgmt (s : State) (t : Tmr) : (s.disarm t).mgmt = s.mgmt := rfl
@[simp] theorem State.disarm_mem (s : State) (t : Tmr) : (s.disarm t).mem = s.mem := rfl

/-! ## `State.usedFree` -/

@[simp] theorem State.usedFree_pending (s : State) : (s.usedFree).pending = s.pending := rfl
@[simp] theorem State.usedFree_variant (s : State) : (s.usedFree).variant = s.variant := rfl
@[simp] theorem State.usedFree_now (s : State) : (s.usedFree).now = s.now := rfl
@[simp] theorem State.usedFree_t0 (s : State) : (s.usedFree).t0 = s.t0 := rfl
@[simp] theorem State.usedFree_regs (s : State) : (s.usedFree).regs = s.regs := rfl
@[simp] theorem State.usedFree_dealt (s : State) : (s.usedFree).dealt = s.dealt := rfl
@[simp] theorem State.usedFree_caught (s : State) : (s.usedFree).caught = s.caught := rfl
@[simp] theorem State.usedFree_due (s : State) : (s.usedFree).due = s.due := rfl
@[simp] theorem State.usedFree_col (s : State) : (s.usedFree).col = s.col := rfl
@[simp] theorem State.usedFree_sup (s : State) : (s.usedFree).sup = s.sup := rfl
@[simp] theorem State.usedFree_dom (s : State) : (s.usedFree).dom = s.dom := rfl
@[simp] theorem State.usedFree_cad (s : State) : (s.usedFree).cad = s.cad := rfl
@[simp] theorem State.usedFree_inst (s : State) : (s.usedFree).inst = s.inst := rfl
@[simp] theorem State.usedFree_deck (s : State) : (s.usedFree).deck = s.deck := rfl
@[simp] theorem State.usedFree_deal (s : State) : (s.usedFree).deal = s.deal := rfl
@[simp] theorem State.usedFree_trust (s : State) : (s.usedFree).trust = s.trust := rfl
@[simp] theorem State.usedFree_svc (s : State) : (s.usedFree).svc = s.svc := rfl
@[simp] theorem State.usedFree_dbg (s : State) : (s.usedFree).dbg = s.dbg := rfl
@[simp] theorem State.usedFree_pools (s : State) : (s.usedFree).pools = s.pools := rfl
@[simp] theorem State.usedFree_dram (s : State) : (s.usedFree).dram = s.dram := rfl
@[simp] theorem State.usedFree_buf (s : State) : (s.usedFree).buf = s.buf := rfl
@[simp] theorem State.usedFree_mac (s : State) : (s.usedFree).mac = s.mac := rfl
@[simp] theorem State.usedFree_pipe (s : State) : (s.usedFree).pipe = s.pipe := rfl
@[simp] theorem State.usedFree_tabs (s : State) : (s.usedFree).tabs = s.tabs := rfl
@[simp] theorem State.usedFree_flow (s : State) : (s.usedFree).flow = s.flow := rfl
@[simp] theorem State.usedFree_tm (s : State) : (s.usedFree).tm = s.tm := rfl
@[simp] theorem State.usedFree_time (s : State) : (s.usedFree).time = s.time := rfl
@[simp] theorem State.usedFree_nel (s : State) : (s.usedFree).nel = s.nel := rfl
@[simp] theorem State.usedFree_serv (s : State) : (s.usedFree).serv = s.serv := rfl
@[simp] theorem State.usedFree_mgmt (s : State) : (s.usedFree).mgmt = s.mgmt := rfl
@[simp] theorem State.usedFree_mem (s : State) : (s.usedFree).mem = s.mem := rfl

/-! ## `State.usedFrees` -/

@[simp] theorem State.usedFrees_pending (s : State) (n : Nat) : (s.usedFrees n).pending = s.pending := rfl
@[simp] theorem State.usedFrees_variant (s : State) (n : Nat) : (s.usedFrees n).variant = s.variant := rfl
@[simp] theorem State.usedFrees_now (s : State) (n : Nat) : (s.usedFrees n).now = s.now := rfl
@[simp] theorem State.usedFrees_t0 (s : State) (n : Nat) : (s.usedFrees n).t0 = s.t0 := rfl
@[simp] theorem State.usedFrees_regs (s : State) (n : Nat) : (s.usedFrees n).regs = s.regs := rfl
@[simp] theorem State.usedFrees_dealt (s : State) (n : Nat) : (s.usedFrees n).dealt = s.dealt := rfl
@[simp] theorem State.usedFrees_caught (s : State) (n : Nat) : (s.usedFrees n).caught = s.caught := rfl
@[simp] theorem State.usedFrees_due (s : State) (n : Nat) : (s.usedFrees n).due = s.due := rfl
@[simp] theorem State.usedFrees_col (s : State) (n : Nat) : (s.usedFrees n).col = s.col := rfl
@[simp] theorem State.usedFrees_sup (s : State) (n : Nat) : (s.usedFrees n).sup = s.sup := rfl
@[simp] theorem State.usedFrees_dom (s : State) (n : Nat) : (s.usedFrees n).dom = s.dom := rfl
@[simp] theorem State.usedFrees_cad (s : State) (n : Nat) : (s.usedFrees n).cad = s.cad := rfl
@[simp] theorem State.usedFrees_inst (s : State) (n : Nat) : (s.usedFrees n).inst = s.inst := rfl
@[simp] theorem State.usedFrees_deck (s : State) (n : Nat) : (s.usedFrees n).deck = s.deck := rfl
@[simp] theorem State.usedFrees_deal (s : State) (n : Nat) : (s.usedFrees n).deal = s.deal := rfl
@[simp] theorem State.usedFrees_trust (s : State) (n : Nat) : (s.usedFrees n).trust = s.trust := rfl
@[simp] theorem State.usedFrees_svc (s : State) (n : Nat) : (s.usedFrees n).svc = s.svc := rfl
@[simp] theorem State.usedFrees_dbg (s : State) (n : Nat) : (s.usedFrees n).dbg = s.dbg := rfl
@[simp] theorem State.usedFrees_pools (s : State) (n : Nat) : (s.usedFrees n).pools = s.pools := rfl
@[simp] theorem State.usedFrees_dram (s : State) (n : Nat) : (s.usedFrees n).dram = s.dram := rfl
@[simp] theorem State.usedFrees_buf (s : State) (n : Nat) : (s.usedFrees n).buf = s.buf := rfl
@[simp] theorem State.usedFrees_mac (s : State) (n : Nat) : (s.usedFrees n).mac = s.mac := rfl
@[simp] theorem State.usedFrees_pipe (s : State) (n : Nat) : (s.usedFrees n).pipe = s.pipe := rfl
@[simp] theorem State.usedFrees_tabs (s : State) (n : Nat) : (s.usedFrees n).tabs = s.tabs := rfl
@[simp] theorem State.usedFrees_flow (s : State) (n : Nat) : (s.usedFrees n).flow = s.flow := rfl
@[simp] theorem State.usedFrees_tm (s : State) (n : Nat) : (s.usedFrees n).tm = s.tm := rfl
@[simp] theorem State.usedFrees_time (s : State) (n : Nat) : (s.usedFrees n).time = s.time := rfl
@[simp] theorem State.usedFrees_nel (s : State) (n : Nat) : (s.usedFrees n).nel = s.nel := rfl
@[simp] theorem State.usedFrees_serv (s : State) (n : Nat) : (s.usedFrees n).serv = s.serv := rfl
@[simp] theorem State.usedFrees_mgmt (s : State) (n : Nat) : (s.usedFrees n).mgmt = s.mgmt := rfl
@[simp] theorem State.usedFrees_mem (s : State) (n : Nat) : (s.usedFrees n).mem = s.mem := rfl

/-! ## `State.putByte` -/

@[simp] theorem State.putByte_pending (s : State) (a : Nat) (b : Byte) : (s.putByte a b).pending = s.pending := rfl
@[simp] theorem State.putByte_variant (s : State) (a : Nat) (b : Byte) : (s.putByte a b).variant = s.variant := rfl
@[simp] theorem State.putByte_now (s : State) (a : Nat) (b : Byte) : (s.putByte a b).now = s.now := rfl
@[simp] theorem State.putByte_t0 (s : State) (a : Nat) (b : Byte) : (s.putByte a b).t0 = s.t0 := rfl
@[simp] theorem State.putByte_regs (s : State) (a : Nat) (b : Byte) : (s.putByte a b).regs = s.regs := rfl
@[simp] theorem State.putByte_dealt (s : State) (a : Nat) (b : Byte) : (s.putByte a b).dealt = s.dealt := rfl
@[simp] theorem State.putByte_caught (s : State) (a : Nat) (b : Byte) : (s.putByte a b).caught = s.caught := rfl
@[simp] theorem State.putByte_due (s : State) (a : Nat) (b : Byte) : (s.putByte a b).due = s.due := rfl
@[simp] theorem State.putByte_free (s : State) (a : Nat) (b : Byte) : (s.putByte a b).free = s.free := rfl
@[simp] theorem State.putByte_col (s : State) (a : Nat) (b : Byte) : (s.putByte a b).col = s.col := rfl
@[simp] theorem State.putByte_sup (s : State) (a : Nat) (b : Byte) : (s.putByte a b).sup = s.sup := rfl
@[simp] theorem State.putByte_dom (s : State) (a : Nat) (b : Byte) : (s.putByte a b).dom = s.dom := rfl
@[simp] theorem State.putByte_cad (s : State) (a : Nat) (b : Byte) : (s.putByte a b).cad = s.cad := rfl
@[simp] theorem State.putByte_inst (s : State) (a : Nat) (b : Byte) : (s.putByte a b).inst = s.inst := rfl
@[simp] theorem State.putByte_deck (s : State) (a : Nat) (b : Byte) : (s.putByte a b).deck = s.deck := rfl
@[simp] theorem State.putByte_deal (s : State) (a : Nat) (b : Byte) : (s.putByte a b).deal = s.deal := rfl
@[simp] theorem State.putByte_trust (s : State) (a : Nat) (b : Byte) : (s.putByte a b).trust = s.trust := rfl
@[simp] theorem State.putByte_svc (s : State) (a : Nat) (b : Byte) : (s.putByte a b).svc = s.svc := rfl
@[simp] theorem State.putByte_dbg (s : State) (a : Nat) (b : Byte) : (s.putByte a b).dbg = s.dbg := rfl
@[simp] theorem State.putByte_pools (s : State) (a : Nat) (b : Byte) : (s.putByte a b).pools = s.pools := rfl
@[simp] theorem State.putByte_dram (s : State) (a : Nat) (b : Byte) : (s.putByte a b).dram = s.dram := rfl
@[simp] theorem State.putByte_buf (s : State) (a : Nat) (b : Byte) : (s.putByte a b).buf = s.buf := rfl
@[simp] theorem State.putByte_mac (s : State) (a : Nat) (b : Byte) : (s.putByte a b).mac = s.mac := rfl
@[simp] theorem State.putByte_pipe (s : State) (a : Nat) (b : Byte) : (s.putByte a b).pipe = s.pipe := rfl
@[simp] theorem State.putByte_tabs (s : State) (a : Nat) (b : Byte) : (s.putByte a b).tabs = s.tabs := rfl
@[simp] theorem State.putByte_flow (s : State) (a : Nat) (b : Byte) : (s.putByte a b).flow = s.flow := rfl
@[simp] theorem State.putByte_tm (s : State) (a : Nat) (b : Byte) : (s.putByte a b).tm = s.tm := rfl
@[simp] theorem State.putByte_time (s : State) (a : Nat) (b : Byte) : (s.putByte a b).time = s.time := rfl
@[simp] theorem State.putByte_nel (s : State) (a : Nat) (b : Byte) : (s.putByte a b).nel = s.nel := rfl
@[simp] theorem State.putByte_serv (s : State) (a : Nat) (b : Byte) : (s.putByte a b).serv = s.serv := rfl
@[simp] theorem State.putByte_mgmt (s : State) (a : Nat) (b : Byte) : (s.putByte a b).mgmt = s.mgmt := rfl

/-! ## `State.setThr` -/

@[simp] theorem State.setThr_pending (s : State) (t : Nat) (h : Thread) : (s.setThr t h).pending = s.pending := rfl
@[simp] theorem State.setThr_variant (s : State) (t : Nat) (h : Thread) : (s.setThr t h).variant = s.variant := rfl
@[simp] theorem State.setThr_now (s : State) (t : Nat) (h : Thread) : (s.setThr t h).now = s.now := rfl
@[simp] theorem State.setThr_t0 (s : State) (t : Nat) (h : Thread) : (s.setThr t h).t0 = s.t0 := rfl
@[simp] theorem State.setThr_regs (s : State) (t : Nat) (h : Thread) : (s.setThr t h).regs = s.regs := rfl
@[simp] theorem State.setThr_dealt (s : State) (t : Nat) (h : Thread) : (s.setThr t h).dealt = s.dealt := rfl
@[simp] theorem State.setThr_caught (s : State) (t : Nat) (h : Thread) : (s.setThr t h).caught = s.caught := rfl
@[simp] theorem State.setThr_due (s : State) (t : Nat) (h : Thread) : (s.setThr t h).due = s.due := rfl
@[simp] theorem State.setThr_free (s : State) (t : Nat) (h : Thread) : (s.setThr t h).free = s.free := rfl
@[simp] theorem State.setThr_col (s : State) (t : Nat) (h : Thread) : (s.setThr t h).col = s.col := rfl
@[simp] theorem State.setThr_sup (s : State) (t : Nat) (h : Thread) : (s.setThr t h).sup = s.sup := rfl
@[simp] theorem State.setThr_dom (s : State) (t : Nat) (h : Thread) : (s.setThr t h).dom = s.dom := rfl
@[simp] theorem State.setThr_cad (s : State) (t : Nat) (h : Thread) : (s.setThr t h).cad = s.cad := rfl
@[simp] theorem State.setThr_inst (s : State) (t : Nat) (h : Thread) : (s.setThr t h).inst = s.inst := rfl
@[simp] theorem State.setThr_deck (s : State) (t : Nat) (h : Thread) : (s.setThr t h).deck = s.deck := rfl
@[simp] theorem State.setThr_deal (s : State) (t : Nat) (h : Thread) : (s.setThr t h).deal = s.deal := rfl
@[simp] theorem State.setThr_trust (s : State) (t : Nat) (h : Thread) : (s.setThr t h).trust = s.trust := rfl
@[simp] theorem State.setThr_dbg (s : State) (t : Nat) (h : Thread) : (s.setThr t h).dbg = s.dbg := rfl
@[simp] theorem State.setThr_pools (s : State) (t : Nat) (h : Thread) : (s.setThr t h).pools = s.pools := rfl
@[simp] theorem State.setThr_dram (s : State) (t : Nat) (h : Thread) : (s.setThr t h).dram = s.dram := rfl
@[simp] theorem State.setThr_buf (s : State) (t : Nat) (h : Thread) : (s.setThr t h).buf = s.buf := rfl
@[simp] theorem State.setThr_mac (s : State) (t : Nat) (h : Thread) : (s.setThr t h).mac = s.mac := rfl
@[simp] theorem State.setThr_pipe (s : State) (t : Nat) (h : Thread) : (s.setThr t h).pipe = s.pipe := rfl
@[simp] theorem State.setThr_tabs (s : State) (t : Nat) (h : Thread) : (s.setThr t h).tabs = s.tabs := rfl
@[simp] theorem State.setThr_flow (s : State) (t : Nat) (h : Thread) : (s.setThr t h).flow = s.flow := rfl
@[simp] theorem State.setThr_tm (s : State) (t : Nat) (h : Thread) : (s.setThr t h).tm = s.tm := rfl
@[simp] theorem State.setThr_time (s : State) (t : Nat) (h : Thread) : (s.setThr t h).time = s.time := rfl
@[simp] theorem State.setThr_nel (s : State) (t : Nat) (h : Thread) : (s.setThr t h).nel = s.nel := rfl
@[simp] theorem State.setThr_serv (s : State) (t : Nat) (h : Thread) : (s.setThr t h).serv = s.serv := rfl
@[simp] theorem State.setThr_mgmt (s : State) (t : Nat) (h : Thread) : (s.setThr t h).mgmt = s.mgmt := rfl
@[simp] theorem State.setThr_mem (s : State) (t : Nat) (h : Thread) : (s.setThr t h).mem = s.mem := rfl

/-! ## `State.modThr` -/

@[simp] theorem State.modThr_pending (s : State) (t : Nat) (f : Thread → Thread) : (s.modThr t f).pending = s.pending := rfl
@[simp] theorem State.modThr_variant (s : State) (t : Nat) (f : Thread → Thread) : (s.modThr t f).variant = s.variant := rfl
@[simp] theorem State.modThr_now (s : State) (t : Nat) (f : Thread → Thread) : (s.modThr t f).now = s.now := rfl
@[simp] theorem State.modThr_t0 (s : State) (t : Nat) (f : Thread → Thread) : (s.modThr t f).t0 = s.t0 := rfl
@[simp] theorem State.modThr_regs (s : State) (t : Nat) (f : Thread → Thread) : (s.modThr t f).regs = s.regs := rfl
@[simp] theorem State.modThr_dealt (s : State) (t : Nat) (f : Thread → Thread) : (s.modThr t f).dealt = s.dealt := rfl
@[simp] theorem State.modThr_caught (s : State) (t : Nat) (f : Thread → Thread) : (s.modThr t f).caught = s.caught := rfl
@[simp] theorem State.modThr_due (s : State) (t : Nat) (f : Thread → Thread) : (s.modThr t f).due = s.due := rfl
@[simp] theorem State.modThr_free (s : State) (t : Nat) (f : Thread → Thread) : (s.modThr t f).free = s.free := rfl
@[simp] theorem State.modThr_col (s : State) (t : Nat) (f : Thread → Thread) : (s.modThr t f).col = s.col := rfl
@[simp] theorem State.modThr_sup (s : State) (t : Nat) (f : Thread → Thread) : (s.modThr t f).sup = s.sup := rfl
@[simp] theorem State.modThr_dom (s : State) (t : Nat) (f : Thread → Thread) : (s.modThr t f).dom = s.dom := rfl
@[simp] theorem State.modThr_cad (s : State) (t : Nat) (f : Thread → Thread) : (s.modThr t f).cad = s.cad := rfl
@[simp] theorem State.modThr_inst (s : State) (t : Nat) (f : Thread → Thread) : (s.modThr t f).inst = s.inst := rfl
@[simp] theorem State.modThr_deck (s : State) (t : Nat) (f : Thread → Thread) : (s.modThr t f).deck = s.deck := rfl
@[simp] theorem State.modThr_deal (s : State) (t : Nat) (f : Thread → Thread) : (s.modThr t f).deal = s.deal := rfl
@[simp] theorem State.modThr_trust (s : State) (t : Nat) (f : Thread → Thread) : (s.modThr t f).trust = s.trust := rfl
@[simp] theorem State.modThr_dbg (s : State) (t : Nat) (f : Thread → Thread) : (s.modThr t f).dbg = s.dbg := rfl
@[simp] theorem State.modThr_pools (s : State) (t : Nat) (f : Thread → Thread) : (s.modThr t f).pools = s.pools := rfl
@[simp] theorem State.modThr_dram (s : State) (t : Nat) (f : Thread → Thread) : (s.modThr t f).dram = s.dram := rfl
@[simp] theorem State.modThr_buf (s : State) (t : Nat) (f : Thread → Thread) : (s.modThr t f).buf = s.buf := rfl
@[simp] theorem State.modThr_mac (s : State) (t : Nat) (f : Thread → Thread) : (s.modThr t f).mac = s.mac := rfl
@[simp] theorem State.modThr_pipe (s : State) (t : Nat) (f : Thread → Thread) : (s.modThr t f).pipe = s.pipe := rfl
@[simp] theorem State.modThr_tabs (s : State) (t : Nat) (f : Thread → Thread) : (s.modThr t f).tabs = s.tabs := rfl
@[simp] theorem State.modThr_flow (s : State) (t : Nat) (f : Thread → Thread) : (s.modThr t f).flow = s.flow := rfl
@[simp] theorem State.modThr_tm (s : State) (t : Nat) (f : Thread → Thread) : (s.modThr t f).tm = s.tm := rfl
@[simp] theorem State.modThr_time (s : State) (t : Nat) (f : Thread → Thread) : (s.modThr t f).time = s.time := rfl
@[simp] theorem State.modThr_nel (s : State) (t : Nat) (f : Thread → Thread) : (s.modThr t f).nel = s.nel := rfl
@[simp] theorem State.modThr_serv (s : State) (t : Nat) (f : Thread → Thread) : (s.modThr t f).serv = s.serv := rfl
@[simp] theorem State.modThr_mgmt (s : State) (t : Nat) (f : Thread → Thread) : (s.modThr t f).mgmt = s.mgmt := rfl
@[simp] theorem State.modThr_mem (s : State) (t : Nat) (f : Thread → Thread) : (s.modThr t f).mem = s.mem := rfl

/-! ## `State.setChan` -/

@[simp] theorem State.setChan_pending (s : State) (n : Nat) (c : Chan) : (s.setChan n c).pending = s.pending := rfl
@[simp] theorem State.setChan_variant (s : State) (n : Nat) (c : Chan) : (s.setChan n c).variant = s.variant := rfl
@[simp] theorem State.setChan_now (s : State) (n : Nat) (c : Chan) : (s.setChan n c).now = s.now := rfl
@[simp] theorem State.setChan_t0 (s : State) (n : Nat) (c : Chan) : (s.setChan n c).t0 = s.t0 := rfl
@[simp] theorem State.setChan_regs (s : State) (n : Nat) (c : Chan) : (s.setChan n c).regs = s.regs := rfl
@[simp] theorem State.setChan_dealt (s : State) (n : Nat) (c : Chan) : (s.setChan n c).dealt = s.dealt := rfl
@[simp] theorem State.setChan_caught (s : State) (n : Nat) (c : Chan) : (s.setChan n c).caught = s.caught := rfl
@[simp] theorem State.setChan_due (s : State) (n : Nat) (c : Chan) : (s.setChan n c).due = s.due := rfl
@[simp] theorem State.setChan_free (s : State) (n : Nat) (c : Chan) : (s.setChan n c).free = s.free := rfl
@[simp] theorem State.setChan_col (s : State) (n : Nat) (c : Chan) : (s.setChan n c).col = s.col := rfl
@[simp] theorem State.setChan_sup (s : State) (n : Nat) (c : Chan) : (s.setChan n c).sup = s.sup := rfl
@[simp] theorem State.setChan_dom (s : State) (n : Nat) (c : Chan) : (s.setChan n c).dom = s.dom := rfl
@[simp] theorem State.setChan_cad (s : State) (n : Nat) (c : Chan) : (s.setChan n c).cad = s.cad := rfl
@[simp] theorem State.setChan_inst (s : State) (n : Nat) (c : Chan) : (s.setChan n c).inst = s.inst := rfl
@[simp] theorem State.setChan_deck (s : State) (n : Nat) (c : Chan) : (s.setChan n c).deck = s.deck := rfl
@[simp] theorem State.setChan_deal (s : State) (n : Nat) (c : Chan) : (s.setChan n c).deal = s.deal := rfl
@[simp] theorem State.setChan_trust (s : State) (n : Nat) (c : Chan) : (s.setChan n c).trust = s.trust := rfl
@[simp] theorem State.setChan_dbg (s : State) (n : Nat) (c : Chan) : (s.setChan n c).dbg = s.dbg := rfl
@[simp] theorem State.setChan_pools (s : State) (n : Nat) (c : Chan) : (s.setChan n c).pools = s.pools := rfl
@[simp] theorem State.setChan_dram (s : State) (n : Nat) (c : Chan) : (s.setChan n c).dram = s.dram := rfl
@[simp] theorem State.setChan_buf (s : State) (n : Nat) (c : Chan) : (s.setChan n c).buf = s.buf := rfl
@[simp] theorem State.setChan_mac (s : State) (n : Nat) (c : Chan) : (s.setChan n c).mac = s.mac := rfl
@[simp] theorem State.setChan_pipe (s : State) (n : Nat) (c : Chan) : (s.setChan n c).pipe = s.pipe := rfl
@[simp] theorem State.setChan_tabs (s : State) (n : Nat) (c : Chan) : (s.setChan n c).tabs = s.tabs := rfl
@[simp] theorem State.setChan_flow (s : State) (n : Nat) (c : Chan) : (s.setChan n c).flow = s.flow := rfl
@[simp] theorem State.setChan_tm (s : State) (n : Nat) (c : Chan) : (s.setChan n c).tm = s.tm := rfl
@[simp] theorem State.setChan_time (s : State) (n : Nat) (c : Chan) : (s.setChan n c).time = s.time := rfl
@[simp] theorem State.setChan_nel (s : State) (n : Nat) (c : Chan) : (s.setChan n c).nel = s.nel := rfl
@[simp] theorem State.setChan_serv (s : State) (n : Nat) (c : Chan) : (s.setChan n c).serv = s.serv := rfl
@[simp] theorem State.setChan_mgmt (s : State) (n : Nat) (c : Chan) : (s.setChan n c).mgmt = s.mgmt := rfl
@[simp] theorem State.setChan_mem (s : State) (n : Nat) (c : Chan) : (s.setChan n c).mem = s.mem := rfl

/-! ## `State.setSlice` -/

@[simp] theorem State.setSlice_pending (s : State) (i : Nat) (x : Slice) : (s.setSlice i x).pending = s.pending := rfl
@[simp] theorem State.setSlice_variant (s : State) (i : Nat) (x : Slice) : (s.setSlice i x).variant = s.variant := rfl
@[simp] theorem State.setSlice_now (s : State) (i : Nat) (x : Slice) : (s.setSlice i x).now = s.now := rfl
@[simp] theorem State.setSlice_t0 (s : State) (i : Nat) (x : Slice) : (s.setSlice i x).t0 = s.t0 := rfl
@[simp] theorem State.setSlice_regs (s : State) (i : Nat) (x : Slice) : (s.setSlice i x).regs = s.regs := rfl
@[simp] theorem State.setSlice_dealt (s : State) (i : Nat) (x : Slice) : (s.setSlice i x).dealt = s.dealt := rfl
@[simp] theorem State.setSlice_caught (s : State) (i : Nat) (x : Slice) : (s.setSlice i x).caught = s.caught := rfl
@[simp] theorem State.setSlice_due (s : State) (i : Nat) (x : Slice) : (s.setSlice i x).due = s.due := rfl
@[simp] theorem State.setSlice_free (s : State) (i : Nat) (x : Slice) : (s.setSlice i x).free = s.free := rfl
@[simp] theorem State.setSlice_col (s : State) (i : Nat) (x : Slice) : (s.setSlice i x).col = s.col := rfl
@[simp] theorem State.setSlice_sup (s : State) (i : Nat) (x : Slice) : (s.setSlice i x).sup = s.sup := rfl
@[simp] theorem State.setSlice_dom (s : State) (i : Nat) (x : Slice) : (s.setSlice i x).dom = s.dom := rfl
@[simp] theorem State.setSlice_cad (s : State) (i : Nat) (x : Slice) : (s.setSlice i x).cad = s.cad := rfl
@[simp] theorem State.setSlice_inst (s : State) (i : Nat) (x : Slice) : (s.setSlice i x).inst = s.inst := rfl
@[simp] theorem State.setSlice_deck (s : State) (i : Nat) (x : Slice) : (s.setSlice i x).deck = s.deck := rfl
@[simp] theorem State.setSlice_deal (s : State) (i : Nat) (x : Slice) : (s.setSlice i x).deal = s.deal := rfl
@[simp] theorem State.setSlice_trust (s : State) (i : Nat) (x : Slice) : (s.setSlice i x).trust = s.trust := rfl
@[simp] theorem State.setSlice_svc (s : State) (i : Nat) (x : Slice) : (s.setSlice i x).svc = s.svc := rfl
@[simp] theorem State.setSlice_dbg (s : State) (i : Nat) (x : Slice) : (s.setSlice i x).dbg = s.dbg := rfl
@[simp] theorem State.setSlice_pools (s : State) (i : Nat) (x : Slice) : (s.setSlice i x).pools = s.pools := rfl
@[simp] theorem State.setSlice_dram (s : State) (i : Nat) (x : Slice) : (s.setSlice i x).dram = s.dram := rfl
@[simp] theorem State.setSlice_buf (s : State) (i : Nat) (x : Slice) : (s.setSlice i x).buf = s.buf := rfl
@[simp] theorem State.setSlice_mac (s : State) (i : Nat) (x : Slice) : (s.setSlice i x).mac = s.mac := rfl
@[simp] theorem State.setSlice_pipe (s : State) (i : Nat) (x : Slice) : (s.setSlice i x).pipe = s.pipe := rfl
@[simp] theorem State.setSlice_tabs (s : State) (i : Nat) (x : Slice) : (s.setSlice i x).tabs = s.tabs := rfl
@[simp] theorem State.setSlice_tm (s : State) (i : Nat) (x : Slice) : (s.setSlice i x).tm = s.tm := rfl
@[simp] theorem State.setSlice_time (s : State) (i : Nat) (x : Slice) : (s.setSlice i x).time = s.time := rfl
@[simp] theorem State.setSlice_nel (s : State) (i : Nat) (x : Slice) : (s.setSlice i x).nel = s.nel := rfl
@[simp] theorem State.setSlice_serv (s : State) (i : Nat) (x : Slice) : (s.setSlice i x).serv = s.serv := rfl
@[simp] theorem State.setSlice_mgmt (s : State) (i : Nat) (x : Slice) : (s.setSlice i x).mgmt = s.mgmt := rfl
@[simp] theorem State.setSlice_mem (s : State) (i : Nat) (x : Slice) : (s.setSlice i x).mem = s.mem := rfl

/-! ## `State.setBit` -/

@[simp] theorem State.setBit_pending (s : State) (f : Fld) (j : Nat) (b : Bool) : (s.setBit f j b).pending = s.pending := by cases b <;> rfl
@[simp] theorem State.setBit_variant (s : State) (f : Fld) (j : Nat) (b : Bool) : (s.setBit f j b).variant = s.variant := by cases b <;> rfl
@[simp] theorem State.setBit_now (s : State) (f : Fld) (j : Nat) (b : Bool) : (s.setBit f j b).now = s.now := by cases b <;> rfl
@[simp] theorem State.setBit_t0 (s : State) (f : Fld) (j : Nat) (b : Bool) : (s.setBit f j b).t0 = s.t0 := by cases b <;> rfl
@[simp] theorem State.setBit_dealt (s : State) (f : Fld) (j : Nat) (b : Bool) : (s.setBit f j b).dealt = s.dealt := by cases b <;> rfl
@[simp] theorem State.setBit_caught (s : State) (f : Fld) (j : Nat) (b : Bool) : (s.setBit f j b).caught = s.caught := by cases b <;> rfl
@[simp] theorem State.setBit_due (s : State) (f : Fld) (j : Nat) (b : Bool) : (s.setBit f j b).due = s.due := by cases b <;> rfl
@[simp] theorem State.setBit_free (s : State) (f : Fld) (j : Nat) (b : Bool) : (s.setBit f j b).free = s.free := by cases b <;> rfl
@[simp] theorem State.setBit_col (s : State) (f : Fld) (j : Nat) (b : Bool) : (s.setBit f j b).col = s.col := by cases b <;> rfl
@[simp] theorem State.setBit_sup (s : State) (f : Fld) (j : Nat) (b : Bool) : (s.setBit f j b).sup = s.sup := by cases b <;> rfl
@[simp] theorem State.setBit_dom (s : State) (f : Fld) (j : Nat) (b : Bool) : (s.setBit f j b).dom = s.dom := by cases b <;> rfl
@[simp] theorem State.setBit_cad (s : State) (f : Fld) (j : Nat) (b : Bool) : (s.setBit f j b).cad = s.cad := by cases b <;> rfl
@[simp] theorem State.setBit_inst (s : State) (f : Fld) (j : Nat) (b : Bool) : (s.setBit f j b).inst = s.inst := by cases b <;> rfl
@[simp] theorem State.setBit_deck (s : State) (f : Fld) (j : Nat) (b : Bool) : (s.setBit f j b).deck = s.deck := by cases b <;> rfl
@[simp] theorem State.setBit_deal (s : State) (f : Fld) (j : Nat) (b : Bool) : (s.setBit f j b).deal = s.deal := by cases b <;> rfl
@[simp] theorem State.setBit_trust (s : State) (f : Fld) (j : Nat) (b : Bool) : (s.setBit f j b).trust = s.trust := by cases b <;> rfl
@[simp] theorem State.setBit_svc (s : State) (f : Fld) (j : Nat) (b : Bool) : (s.setBit f j b).svc = s.svc := by cases b <;> rfl
@[simp] theorem State.setBit_dbg (s : State) (f : Fld) (j : Nat) (b : Bool) : (s.setBit f j b).dbg = s.dbg := by cases b <;> rfl
@[simp] theorem State.setBit_pools (s : State) (f : Fld) (j : Nat) (b : Bool) : (s.setBit f j b).pools = s.pools := by cases b <;> rfl
@[simp] theorem State.setBit_dram (s : State) (f : Fld) (j : Nat) (b : Bool) : (s.setBit f j b).dram = s.dram := by cases b <;> rfl
@[simp] theorem State.setBit_buf (s : State) (f : Fld) (j : Nat) (b : Bool) : (s.setBit f j b).buf = s.buf := by cases b <;> rfl
@[simp] theorem State.setBit_mac (s : State) (f : Fld) (j : Nat) (b : Bool) : (s.setBit f j b).mac = s.mac := by cases b <;> rfl
@[simp] theorem State.setBit_pipe (s : State) (f : Fld) (j : Nat) (b : Bool) : (s.setBit f j b).pipe = s.pipe := by cases b <;> rfl
@[simp] theorem State.setBit_tabs (s : State) (f : Fld) (j : Nat) (b : Bool) : (s.setBit f j b).tabs = s.tabs := by cases b <;> rfl
@[simp] theorem State.setBit_flow (s : State) (f : Fld) (j : Nat) (b : Bool) : (s.setBit f j b).flow = s.flow := by cases b <;> rfl
@[simp] theorem State.setBit_tm (s : State) (f : Fld) (j : Nat) (b : Bool) : (s.setBit f j b).tm = s.tm := by cases b <;> rfl
@[simp] theorem State.setBit_time (s : State) (f : Fld) (j : Nat) (b : Bool) : (s.setBit f j b).time = s.time := by cases b <;> rfl
@[simp] theorem State.setBit_nel (s : State) (f : Fld) (j : Nat) (b : Bool) : (s.setBit f j b).nel = s.nel := by cases b <;> rfl
@[simp] theorem State.setBit_serv (s : State) (f : Fld) (j : Nat) (b : Bool) : (s.setBit f j b).serv = s.serv := by cases b <;> rfl
@[simp] theorem State.setBit_mgmt (s : State) (f : Fld) (j : Nat) (b : Bool) : (s.setBit f j b).mgmt = s.mgmt := by cases b <;> rfl
@[simp] theorem State.setBit_mem (s : State) (f : Fld) (j : Nat) (b : Bool) : (s.setBit f j b).mem = s.mem := by cases b <;> rfl

/-! ## What they change -/

@[simp] theorem State.set_regs (s : State) (f : Fld) (v : Nat) : (s.set f v).regs = s.regs.put f.reset f.key (v % 2 ^ f.width) := rfl
@[simp] theorem State.usedFree_free (s : State) : s.usedFree.free = s.free + 1 := rfl
@[simp] theorem State.usedFrees_free (s : State) (n : Nat) : (s.usedFrees n).free = s.free + n := rfl
@[simp] theorem State.putByte_mem (s : State) (a : Nat) (b : Byte) : (s.putByte a b).mem = s.mem.put (memDefault a) a b := rfl

end Sys2Proof.Machine
end

