-- ==== Sys2Proof/Laws/Memory.lean ====
section
/-! SUPPORT. Memory: a read after a write, and that every operation on memory keeps its canonical form. -/
namespace Sys2Proof.Machine

theorem State.byteAt_putByte (s : State) (a x : Nat) (b : Byte) :
    (s.putByte a b).byteAt x = if x = a then b else s.byteAt x := by
  unfold State.byteAt State.putByte
  by_cases h : x = a
  · subst h; simp
  · rw [if_neg h]; exact Tbl.get_put_ne _ _ _ _ h

/-- Bytes below the span that a write covers, and above it, read as before; within it they read as written. -/
theorem State.byteAt_putBytes (s : State) (a x : Nat) (l : List Byte) :
    (s.putBytes a l).byteAt x = if a ≤ x ∧ x < a + l.length then l.getD (x - a) 0 else s.byteAt x := by
  induction l generalizing s a with
  | nil => simp [State.putBytes, show ¬ (a ≤ x ∧ x < a) from by omega]
  | cons b t ih =>
    rw [State.putBytes, ih, State.byteAt_putByte]
    by_cases h : x = a
    · subst h
      rw [if_neg (by omega), if_pos rfl, if_pos (by simp), Nat.sub_self]
      rfl
    · by_cases h2 : a + 1 ≤ x ∧ x < a + 1 + t.length
      · rw [if_pos h2, if_pos (by simp; omega)]
        obtain ⟨k, hk⟩ : ∃ k, x - a = k + 1 := ⟨x - a - 1, by omega⟩
        rw [hk, show x - (a + 1) = k by omega]
        rfl
      · rw [if_neg h2, if_neg h, if_neg (by simp; omega)]

theorem State.bytesAt_putBytes_same (s : State) (a : Nat) (l : List Byte) : (s.putBytes a l).bytesAt a l.length = l := by
  apply List.ext_getElem
  · simp [State.bytesAt]
  · intro i h1 h2
    simp [State.bytesAt, State.byteAt_putBytes, h2]

theorem State.putBytes_keeps (s : State) (a : Nat) (l : List Byte) {β : Type} (g : State → β)
    (h : ∀ (s : State) (a : Nat) (b : Byte), g (s.putByte a b) = g s) : g (s.putBytes a l) = g s := by
  induction l generalizing s a with
  | nil => rfl
  | cons b t ih => rw [State.putBytes, ih, h]

@[simp] theorem State.putBytes_regs (s : State) (a : Nat) (l : List Byte) : (s.putBytes a l).regs = s.regs :=
  s.putBytes_keeps a l _ fun _ _ _ => rfl
@[simp] theorem State.putBytes_svc (s : State) (a : Nat) (l : List Byte) : (s.putBytes a l).svc = s.svc :=
  s.putBytes_keeps a l _ fun _ _ _ => rfl
@[simp] theorem State.putBytes_col (s : State) (a : Nat) (l : List Byte) : (s.putBytes a l).col = s.col :=
  s.putBytes_keeps a l _ fun _ _ _ => rfl
@[simp] theorem State.putBytes_dram (s : State) (a : Nat) (l : List Byte) : (s.putBytes a l).dram = s.dram :=
  s.putBytes_keeps a l _ fun _ _ _ => rfl
@[simp] theorem State.putBytes_variant (s : State) (a : Nat) (l : List Byte) : (s.putBytes a l).variant = s.variant :=
  s.putBytes_keeps a l _ fun _ _ _ => rfl
@[simp] theorem State.putBytes_dbg (s : State) (a : Nat) (l : List Byte) : (s.putBytes a l).dbg = s.dbg :=
  s.putBytes_keeps a l _ fun _ _ _ => rfl

/-- A write of bytes changes memory alone. -/
theorem State.putBytes_eq (s : State) (a : Nat) (l : List Byte) : s.putBytes a l = { s with mem := (s.putBytes a l).mem } := by
  induction l generalizing s a with
  | nil => rfl
  | cons b t ih => rw [State.putBytes, ih]; rfl

/-! ## The canonical form -/

theorem State.memory_wf_reset : Memory.wf State.reset.mem = true := rfl

theorem State.memory_wf_putByte {s : State} (a : Nat) (b : Byte) (h : Memory.wf s.mem = true) :
    Memory.wf (s.putByte a b).mem = true := Tbl.wf_put a b h

theorem State.memory_wf_putBytes {s : State} (a : Nat) (l : List Byte) (h : Memory.wf s.mem = true) :
    Memory.wf (s.putBytes a l).mem = true := by
  induction l generalizing s a with
  | nil => exact h
  | cons b t ih => exact ih _ (State.memory_wf_putByte a b h)

/-- Memory that is re-initialised or cleared within an area (R451, R558) keeps the form. -/
theorem State.memory_wf_drop {s : State} (p : Nat → Bool) (h : Memory.wf s.mem = true) : Memory.wf (s.mem.drop p) = true :=
  Tbl.wf_drop p h

/-- The reads within partial writes change no byte. -/
@[simp] theorem State.partCorrected_mem (s : State) (a n : Nat) : (s.partCorrected a n).mem = s.mem := by
  have h : ∀ (l : List Nat) (s : State), (s.each l fun s b => s.readCorrected (64 * b)).mem = s.mem := by
    intro l
    induction l with
    | nil => exact fun _ => rfl
    | cons b t ih => exact fun s => (ih _).trans rfl
  exact h _ _

theorem State.memory_wf_memWrite {s : State} (a : Nat) (l : List Byte) (h : Memory.wf s.mem = true)
    (hw : (s.memWrite a l).2 = true) : Memory.wf (s.memWrite a l).1.mem = true := by
  unfold State.memWrite at *
  split at hw
  · simp at hw
  · exact State.memory_wf_putBytes a l (show Memory.wf (s.partCorrected a l.length).mem = true by simpa using h)

end Sys2Proof.Machine
end

