-- ==== Sys2Proof/Laws/Regs.lean ====
section
/-! SUPPORT. The register store: what a read returns after a write, for each named operation on a field. -/
namespace Sys2Proof.Machine

@[simp] theorem State.fld_set (s : State) (f : Fld) (v : Nat) : (s.set f v).fld f = v % 2 ^ f.width := by
  simp [State.fld, State.set]

theorem State.fld_set_ne (s : State) {f g : Fld} (v : Nat) (h : g.key ≠ f.key) : (s.set f v).fld g = s.fld g :=
  congrArg (· % 2 ^ g.width) (Tbl.get_put_ne _ _ _ _ h)

/-- A field reads as a value of its width. -/
theorem State.fld_lt (s : State) (f : Fld) : s.fld f < 2 ^ f.width := Nat.mod_lt _ (Nat.two_pow_pos _)

@[simp] theorem State.fld_setB (s : State) (f : Fld) (b : Bool) : (s.setB f b).fld f = b2n b % 2 ^ f.width := State.fld_set ..

theorem State.fld_setB_ne (s : State) {f g : Fld} (b : Bool) (h : g.key ≠ f.key) : (s.setB f b).fld g = s.fld g :=
  State.fld_set_ne _ _ h

@[simp] theorem State.fld_add (s : State) (f : Fld) (n : Nat) : (s.add f n).fld f = (s.fld f + n) % 2 ^ f.width := State.fld_set ..

theorem State.fld_add_ne (s : State) {f g : Fld} (n : Nat) (h : g.key ≠ f.key) : (s.add f n).fld g = s.fld g :=
  State.fld_set_ne _ _ h

@[simp] theorem State.fld_bump (s : State) (f : Fld) : (s.bump f).fld f = (s.fld f + 1) % 2 ^ f.width := State.fld_set ..

theorem State.fld_bump_ne (s : State) {f g : Fld} (h : g.key ≠ f.key) : (s.bump f).fld g = s.fld g :=
  State.fld_set_ne _ _ h

@[simp] theorem State.fld_orIn (s : State) (f : Fld) (m : Nat) : (s.orIn f m).fld f = (s.fld f ||| m) % 2 ^ f.width := State.fld_set ..

theorem State.fld_orIn_ne (s : State) {f g : Fld} (m : Nat) (h : g.key ≠ f.key) : (s.orIn f m).fld g = s.fld g :=
  State.fld_set_ne _ _ h

@[simp] theorem State.fld_clrIn (s : State) (f : Fld) (m : Nat) :
    (s.clrIn f m).fld f = (s.fld f &&& (2 ^ f.width - 1 - m % 2 ^ f.width)) % 2 ^ f.width := State.fld_set ..

theorem State.fld_clrIn_ne (s : State) {f g : Fld} (m : Nat) (h : g.key ≠ f.key) : (s.clrIn f m).fld g = s.fld g :=
  State.fld_set_ne _ _ h

theorem State.fld_setBit_ne (s : State) {f g : Fld} (j : Nat) (b : Bool) (h : g.key ≠ f.key) : (s.setBit f j b).fld g = s.fld g := by
  cases b
  · exact State.fld_clrIn_ne _ _ h
  · exact State.fld_orIn_ne _ _ h

/-- A set bit of a field reads 1, for a bit within its width. -/
theorem State.bit_setBit_true (s : State) (f : Fld) {j : Nat} (h : j < f.width) : (s.setBit f j true).bit f j = true := by
  simp [State.bit, State.setBit, Nat.testBit_mod_two_pow, h, Nat.testBit_two_pow_self]

/-- A cleared bit of a field reads 0. -/
theorem State.bit_setBit_false (s : State) (f : Fld) (j : Nat) : (s.setBit f j false).bit f j = false := by
  simp only [State.bit, State.setBit, Bool.false_eq_true, if_false, State.fld_clrIn, Nat.testBit_mod_two_pow, Nat.testBit_and]
  by_cases h : j < f.width
  · rw [show 2 ^ f.width - 1 - 2 ^ j % 2 ^ f.width = 2 ^ f.width - (2 ^ j % 2 ^ f.width + 1) by omega,
      Nat.testBit_two_pow_sub_succ (Nat.mod_lt _ (Nat.two_pow_pos _)), Nat.mod_eq_of_lt (Nat.pow_lt_pow_right (by decide) h),
      Nat.testBit_two_pow_self]
    simp
  · rw [decide_eq_false h, Bool.false_and]

@[simp] theorem State.on_setB (s : State) (f : Fld) (b : Bool) (h : 0 < f.width) : (s.setB f b).on f = b := by
  have h2 : 2 ^ 1 ≤ 2 ^ f.width := Nat.pow_le_pow_right (by decide) h
  cases b
  · simp [State.on, b2n]
  · simp [State.on, b2n, Nat.mod_eq_of_lt (show 1 < 2 ^ f.width by omega)]

/-- The register store of a state after a write differs in no other field. -/
theorem State.on_set_ne (s : State) {f g : Fld} (v : Nat) (h : g.key ≠ f.key) : (s.set f v).on g = s.on g := by
  simp [State.on, State.fld_set_ne _ _ h]

end Sys2Proof.Machine
end

