-- ==== Sys2Proof/Laws/Elvon.lean ====
section
/-! SUPPORT. Service threads: what their updates leave unchanged, the issue of an instruction whose checks pass, and the shape of an
instruction with one result. -/
namespace Sys2Proof.Machine

/-! ## The end of a command -/

theorem State.settle_of_settled {s : State} (h : s.Settled) : s.settle = s := by
  simp [State.settle, State.foldNow, h.1, h.2]

theorem fin_of_settled {s : State} (h : s.Settled) : fin s = .next s := by rw [fin, State.settle_of_settled h]

theorem State.Settled.of_col {s u : State} (h : s.Settled) (hc : u.col = s.col) : u.Settled := by
  rw [State.Settled, hc]; exact h

/-! ## Threads and registers -/

@[simp] theorem State.thr_setThr_same (s : State) (t : Nat) (h : Thread) : (s.setThr t h).thr t = h := by
  simp [State.thr, State.setThr]
theorem State.thr_setThr_ne (s : State) {t k : Nat} (h : Thread) (hk : k ≠ t) : (s.setThr t h).thr k = s.thr k := by
  simp only [State.thr, State.setThr]; exact Tbl.get_put_ne _ _ _ _ hk
@[simp] theorem State.thr_modThr_same (s : State) (t : Nat) (f : Thread → Thread) : (s.modThr t f).thr t = f (s.thr t) := by
  simp [State.modThr]
theorem State.thr_modThr_ne (s : State) {t k : Nat} (f : Thread → Thread) (hk : k ≠ t) : (s.modThr t f).thr k = s.thr k :=
  State.thr_setThr_ne _ _ hk
@[simp] theorem State.thr_set (s : State) (f : Fld) (v k : Nat) : (s.set f v).thr k = s.thr k := rfl
@[simp] theorem State.thr_slots (s : State) (t n k : Nat) : (s.slots t n).thr k = s.thr k := rfl
@[simp] theorem State.reg_set (s : State) (f : Fld) (v t : Nat) (r : Reg) : (s.set f v).reg t r = s.reg t r := rfl
@[simp] theorem State.reg_slots (s : State) (k n t : Nat) (r : Reg) : (s.slots k n).reg t r = s.reg t r := rfl

theorem State.reg_modThr (s : State) (t : Nat) (f : Thread → Thread) (r : Reg) (hf : (f (s.thr t)).g = (s.thr t).g) :
    (s.modThr t f).reg t r = s.reg t r := by
  simp [State.reg, hf]

/-- A write of a general register: g0 keeps reading 0, and no other register changes (R454). -/
theorem State.reg_setReg (s : State) (t : Nat) (rd r : Reg) (v : Word64) :
    (s.setReg t rd v).reg t r = if r = rd then (if rd.val = 0 then 0 else v) else s.reg t r := by
  by_cases h0 : rd.val = 0
  · by_cases hr : r = rd
    · subst hr; simp [State.reg, h0]
    · simp [State.setReg, h0, hr]
  · by_cases hr0 : r.val = 0
    · have : r ≠ rd := fun h => h0 (h ▸ hr0)
      simp [State.reg, hr0, this]
    · have : (r.val = rd.val) = (r = rd) := by simp [Fin.ext_iff]
      simp [State.reg, State.setReg, h0, hr0, Tbl.get_put, this]

theorem State.thr_setReg (s : State) (t : Nat) (r : Reg) (v : Word64) :
    ∃ g, (s.setReg t r v).thr t = { s.thr t with g := g } := by
  unfold State.setReg; split
  · exact ⟨_, rfl⟩
  · exact ⟨_, State.thr_modThr_same ..⟩

@[simp] theorem State.setReg_st (s : State) (t : Nat) (r : Reg) (v : Word64) : ((s.setReg t r v).thr t).st = (s.thr t).st := by
  obtain ⟨g, h⟩ := s.thr_setReg t r v; rw [h]
@[simp] theorem State.setReg_pc (s : State) (t : Nat) (r : Reg) (v : Word64) : ((s.setReg t r v).thr t).pc = (s.thr t).pc := by
  obtain ⟨g, h⟩ := s.thr_setReg t r v; rw [h]

/-! ## The frame of one thread -/

theorem State.OnlyThread.refl (s : State) (t : Nat) : s.OnlyThread s t := ⟨fun _ _ => rfl, fun _ _ => rfl, rfl⟩

theorem State.OnlyThread.trans {s u w : State} {t : Nat} (h : s.OnlyThread u t) (k : u.OnlyThread w t) : s.OnlyThread w t := by
  refine ⟨fun f hf => (k.1 f hf).trans (h.1 f hf), fun j hj => (k.2.1 j hj).trans (h.2.1 j hj), ?_⟩
  have h3 := h.2.2
  have k3 := k.2.2
  rw [h3] at k3
  exact k3

theorem State.onlyThread_modThr (s : State) (t : Nat) (f : Thread → Thread) : s.OnlyThread (s.modThr t f) t :=
  ⟨fun _ _ => rfl, fun _ hk => State.thr_modThr_ne _ _ hk, rfl⟩

theorem State.onlyThread_setReg (s : State) (t : Nat) (r : Reg) (v : Word64) : s.OnlyThread (s.setReg t r v) t := by
  unfold State.setReg; split
  · exact .refl s t
  · exact s.onlyThread_modThr t _

theorem State.onlyThread_slots (s : State) (t n : Nat) : s.OnlyThread (s.slots t n) t :=
  ⟨fun _ hf => State.fld_add_ne _ _ hf, fun _ _ => rfl, rfl⟩

theorem State.OnlyThread.col {s u : State} {t : Nat} (h : s.OnlyThread u t) : u.col = s.col := by rw [h.2.2]
theorem State.OnlyThread.mem {s u : State} {t : Nat} (h : s.OnlyThread u t) : u.mem = s.mem := by rw [h.2.2]
theorem State.OnlyThread.settled {s u : State} {t : Nat} (h : s.OnlyThread u t) (hs : s.Settled) : u.Settled := hs.of_col h.col

/-! ## Issue -/

theorem State.memRead_of_clean {s : State} {a n : Nat} (h : s.CleanAt a n) : s.memRead a n = (s, true) := by
  have h1 : s.badSpan a n = none := by
    simp only [State.badSpan, List.find?_eq_none]
    intro b hb; simp [(h b hb).1]
  have h2 : (blocksOf a n).filter (fun b => decide (b ∈ s.dram.soft)) = [] := by
    simp only [List.filter_eq_nil_iff]
    intro b hb; simp [(h b hb).2]
  simp [State.memRead, h1, h2, State.each]

theorem State.issue_of_issues {s : State} {t : Nat} (h : s.Issues t) (e : Elv) : s.issue t e = s.run t e := by
  obtain ⟨h1, h2, h3, h4⟩ := h
  have hb : (if ((s.thr t).skipBp || (s.thr t).midLong) = true then none else s.breakAt t) = none := by
    rcases h2 with h2 | h2 | h2 <;> simp [h2]
  simp only [State.issue, h1, Bool.not_true, Bool.false_eq_true, if_false, hb, h3, State.memRead_of_clean h4]

theorem State.Issues.ready {s : State} {t : Nat} (h : s.Issues t) : (s.thr t).st = .ready := by
  have := h.1
  simp [State.canIssue] at this
  exact this.1.1.2

theorem State.run_of_ready {s : State} {t : Nat} {e : Elv} (h : ((s.doElv t e).thr t).st = .ready) :
    s.run t e = (s.doElv t e).slots t (slotsOf e) := by
  simp [State.run, Thread.waits, h]

/-- An instruction that leaves its thread READY completes, and its slots are counted. -/
theorem State.fin_issue {s u : State} {t : Nat} {e : Elv} (hs : s.Settled) (hi : s.Issues t) (hu : s.doElv t e = u)
    (hr : (u.thr t).st = .ready) (hc : u.col = s.col) : fin (s.issue t e) = .next (u.slots t (slotsOf e)) := by
  rw [State.issue_of_issues hi, State.run_of_ready (by rw [hu]; exact hr), hu, fin_of_settled (hs.of_col (by simp [State.slots, hc]))]

/-- A register write followed by a move of the PC is what an instruction with one result does. -/
theorem State.computes_of {s : State} {t : Nat} (h : (s.thr t).st = .ready) (rd : Reg) (v : Word64) (pc : Addr) (n : Nat)
    (f : Thread → Thread) (h1 : ∀ h, (f h).st = h.st) (h2 : ∀ h, (f h).g = h.g) (hpc : ∀ h, h.pc = (s.thr t).pc → (f h).pc = pc) :
    s.Computes (((s.setReg t rd v).modThr t f).slots t n) t rd v pc := by
  refine ⟨⟨?_, ?_, ?_, ?_⟩, ?_⟩
  · simp [h1, h]
  · simp [hpc]
  · rw [State.reg_slots, State.reg_modThr _ _ _ _ (h2 _), State.reg_setReg]; simp
  · intro r hr
    rw [State.reg_slots, State.reg_modThr _ _ _ _ (h2 _), State.reg_setReg]; simp [hr]
  · exact (s.onlyThread_setReg t rd v).trans ((State.onlyThread_modThr _ t f).trans (State.onlyThread_slots _ t n))

end Sys2Proof.Machine
end

