-- ==== Sys2Proof/WellFormed.lean ====
section
/-! DEFINITION. The well-formed commands: those whose operands are such as the spec lets a sender give.  No meaning asks for it: a command
that is not well-formed has a meaning too. -/
namespace Sys2Proof

/-- A register access is of a word in the register range (R459, R586, R591). -/
def regAligned (a : BitVec 32) : Bool := decide (0x10000000 ≤ a.toNat ∧ a.toNat < 0x11000000 ∧ a.toNat % 4 = 0)

/-- A page of the Deck has 4,096 bytes (R68). -/
def pageOk : Option (List Byte) → Bool
  | none => true
  | some d => decide (d.length = 4096)

/-- The words of an update-port command begin with its OP (R228). -/
def opIs (op : Nat) : List Word64 → Bool
  | [] => false
  | h :: t => decide (bitsOf h.toNat 56 8 = op) && decide (t.length ≤ 16)

/-- The operands of a command are such as the spec's rows allow: the register range (R591), nine junction sensors (R548), pages of 4,096
bytes (R68), heads of 1 to 388 bytes (R186), sixteen metronomes (R29), VCORE of 10 bits (R44), OP of an update-port command (R228), blocks
of 512 bytes (R360), four consist subnets (R272), DRAM from its base on (R586), and the DATA and ADDR of a debug packet (R571). -/
def Instr.wf : Instr → Bool
  | .registerWrite _ a _ => regAligned a
  | .unmappedAccess _ a _ => regAligned a
  | .offDomainAccess _ a _ => regAligned a
  | .counterLowRead _ a => regAligned a
  | .powerSample _ _ _ => true
  | .junctionSample l => decide (l.length = 9)
  | .railOutOfWindow _ => true
  | .thermAlertChange _ => true
  | .tamperNAssert _ => true
  | .dealerStart _ _ _ _ _ _ _ _ => true
  | .deckReadFrame _ d _ => decide (d.length = 4096)
  | .dramInitComplete _ => true
  | .memtestComplete _ => true
  | .bucketClearComplete _ => true
  | .signatureCheckComplete _ => true
  | .deckProgramComplete _ => true
  | .deckEraseComplete _ => true
  | .headEnterFifo _ _ b => !b.isEmpty && decide (b.length ≤ 388)
  | .frameEndReceived _ _ _ _ => true
  | .linkFaultDetect _ _ => true
  | .linkDownDeclare _ => true
  | .linkUpDeclare _ _ => true
  | .portDisable _ _ => true
  | .portEnable _ _ => true
  | .portDrainTimeout _ => true
  | .portQuiesced _ => true
  | .pipelineTakeHead _ => true
  | .flowDramReadComplete _ => true
  | .flowLookupRetry _ => true
  | .flowDeadline _ => true
  | .flowStageExit _ => true
  | .exceptionCopy _ _ _ => true
  | .flowPlace _ => true
  | .freeIndexRefill _ => true
  | .flowCacheWriteback _ _ _ => true
  | .flowCacheHalfDisable _ _ => true
  | .flowSliceDisable _ _ => true
  | .flowSliceEnable _ _ => true
  | .sweeperVisit _ _ => true
  | .flowExpiry _ => true
  | .flowKill _ _ => true
  | .flowFlush _ _ _ => true
  | .flowPeekRead _ => true
  | .tmSelect _ => true
  | .frameTransmitStart _ _ _ _ => true
  | .frameTransmitEnd _ => true
  | .headAgeTest _ => true
  | .recircServe _ _ _ => true
  | .gateEntryChange _ => true
  | .gateListSwap _ => true
  | .gateRestart _ => true
  | .gateArm _ _ => true
  | .gateCancel _ _ => true
  | .gateArmCancel _ _ => true
  | .streamGateEntry _ => true
  | .sfUnblock _ _ => true
  | .meterClearRed _ _ => true
  | .frerReset _ _ => true
  | .metronomeUpdate p v => decide (p.length = 16 ∧ v.length = 4)
  | .vcoreRangeFault mv => decide (mv < 1024)
  | .refLockLoss _ => true
  | .oscTrimWrite _ _ => true
  | .rateWrite _ _ _ => true
  | .instSet _ _ => true
  | .instAddOffset _ _ => true
  | .captureGo _ => true
  | .etsPop _ => true
  | .uportWrite _ _ w => opIs 1 w
  | .uportClear _ _ w => opIs 2 w
  | .uportInsert _ _ w => opIs 3 w
  | .uportDelete _ _ w => opIs 4 w
  | .uportRead _ _ w => opIs 5 w
  | .uportSwap _ _ w => opIs 6 w
  | .uportFlush _ _ w => opIs 7 w
  | .uportBankClear _ _ w => opIs 8 w
  | .uportCompletionReady _ => true
  | .rulesetActiveWrite _ _ => true
  | .bankDrainLimit _ => true
  | .bankTestRequest _ _ => true
  | .wholeBufferTest _ => true
  | .nelyanBlockReceive _ b => decide (b.length = 512)
  | .nelyanBlockSend _ _ _ => true
  | .nelyanAckTimeout _ => true
  | .nelyanLockAcquire _ => true
  | .nelyanStop _ _ => true
  | .nelyanDownTimeout _ => true
  | .helloRetry _ => true
  | .handshakeMessage _ _ => true
  | .handshakeTimeout _ => true
  | .refusedRetry _ => true
  | .rekeyStart _ => true
  | .guardTimeout _ => true
  | .rtEntryWrite _ _ => true
  | .nlinkDisable _ _ => true
  | .nlinkDisableComplete _ => true
  | .nlinkEnable _ _ => true
  | .faultSourceDetect _ _ _ => true
  | .countdownExpiry _ => true
  | .stickyClear _ _ _ => true
  | .faultInject _ _ _ => true
  | .foldReq _ => true
  | .foldExit _ => true
  | .faultNMismatch _ => true
  | .bypassMismatch _ => true
  | .bypForceWrite _ _ => true
  | .add _ _ _ _ => true
  | .sub _ _ _ _ => true
  | .and _ _ _ _ => true
  | .or _ _ _ _ => true
  | .xor _ _ _ _ => true
  | .sll _ _ _ _ => true
  | .srl _ _ _ _ => true
  | .sra _ _ _ _ => true
  | .slt _ _ _ _ => true
  | .sltu _ _ _ _ => true
  | .mul _ _ _ _ => true
  | .mulhu _ _ _ _ => true
  | .min _ _ _ _ => true
  | .minu _ _ _ _ => true
  | .bswap _ _ _ => true
  | .popc _ _ _ => true
  | .addi _ _ _ _ => true
  | .andi _ _ _ _ => true
  | .ori _ _ _ _ => true
  | .xori _ _ _ _ => true
  | .shiftiSll _ _ _ _ => true
  | .shiftiSrl _ _ _ _ => true
  | .shiftiSra _ _ _ _ => true
  | .lui _ _ _ => true
  | .lhi _ _ _ _ => true
  | .slti _ _ _ _ => true
  | .lb _ _ _ _ => true
  | .lh _ _ _ _ => true
  | .lw _ _ _ _ => true
  | .ld _ _ _ _ => true
  | .lbu _ _ _ _ => true
  | .lhu _ _ _ _ => true
  | .lwu _ _ _ _ => true
  | .sb _ _ _ _ => true
  | .sh _ _ _ _ => true
  | .sw _ _ _ _ => true
  | .sd _ _ _ _ => true
  | .beq _ _ _ _ => true
  | .bne _ _ _ _ => true
  | .blt _ _ _ _ => true
  | .bge _ _ _ _ => true
  | .bltu _ _ _ _ => true
  | .bgeu _ _ _ _ => true
  | .jal _ _ _ => true
  | .jalr _ _ _ _ => true
  | .aadd _ _ _ _ _ => true
  | .aand _ _ _ _ _ => true
  | .aor _ _ _ _ _ => true
  | .axor _ _ _ _ _ => true
  | .aswap _ _ _ _ _ => true
  | .acas _ _ _ _ _ => true
  | .chin _ _ _ _ => true
  | .chout _ _ _ => true
  | .chend _ _ => true
  | .exceptionPin _ _ _ _ => true
  | .poolTake _ _ _ => true
  | .poolTakeResult _ _ _ _ => true
  | .poolGive _ _ _ => true
  | .timerArm _ _ _ => true
  | .timerCancel _ _ _ => true
  | .timerPin _ _ _ _ => true
  | .uportCompletionPin _ _ _ _ => true
  | .sendRequest _ _ _ _ => true
  | .bcopy _ _ _ _ _ => true
  | .bfill _ _ _ _ _ => true
  | .crc32c _ _ _ _ _ => true
  | .hash _ _ _ _ _ => true
  | .tsearch _ _ _ _ _ => true
  | .await _ => true
  | .fence _ _ => true
  | .trap _ _ => true
  | .sleep _ _ => true
  | .self _ _ => true
  | .reservedInstruction _ _ => true
  | .threadRelease _ => true
  | .timerExpiry _ => true
  | .serviceRestart _ => true
  | .restartServicesStart _ => true
  | .threadRestartCmd _ _ => true
  | .threadStopCmd _ _ => true
  | .claimRead _ _ => true
  | .doneWrite _ _ _ => true
  | .pendSet _ _ _ => true
  | .pendClr _ _ _ => true
  | .maskSet _ _ _ => true
  | .maskClr _ _ _ => true
  | .routeWrite _ _ _ => true
  | .coreSleep _ => true
  | .coreWake _ _ => true
  | .dramRequestComplete _ a _ => decide (0x1000000000 ≤ a.toNat)
  | .refreshDue _ _ => true
  | .bandTaskTick _ => true
  | .scrubBlock _ => true
  | .dramCtrlDisable _ _ => true
  | .pwrOnClr _ _ _ => true
  | .pwrOnSet _ _ _ => true
  | .quiesceAcknowledge _ => true
  | .quiesceTimeout _ => true
  | .domainOnComplete _ => true
  | .debugBadPacket _ => true
  | .debugStatus _ => true
  | .debugChallenge _ => true
  | .debugResponse _ b => decide (b.length = 108)
  | .debugAttest _ b => decide (b.length = 40)
  | .debugBufRead _ a n => decide (a.toNat % 4 = 0 ∧ 1 ≤ n.val)
  | .debugRelock _ => true
  | .debugRootKey _ k => decide (k.length = 97)
  | .debugHalt _ _ => true
  | .debugResume _ _ => true
  | .debugStep _ _ _ => true
  | .debugStepComplete _ => true
  | .debugRegRead _ _ _ => true
  | .debugRegWrite _ _ _ _ => true
  | .debugBreak _ a _ => decide (a.toNat % 4 = 0)
  | .debugWatch _ _ _ _ => true
  | .debugFreeze _ _ => true
  | .debugMemRead _ _ n => decide (1 ≤ n.val)
  | .debugMemWrite _ _ w => decide (1 ≤ w.length ∧ w.length ≤ 64)
  | .debugChStatus _ _ => true
  | .debugChAbandon _ _ => true
  | .debugSvcRestart _ => true
  | .debugSvcRelease _ => true
  | .tablePortRead _ _ _ _ => true
  | .tablePortWrite _ _ _ _ => true
  | .mdioC22Write _ _ _ _ _ => true
  | .mdioC22Read _ _ _ _ => true
  | .mdioC45Address _ _ _ _ _ => true
  | .mdioC45Write _ _ _ _ _ => true
  | .mdioC45ReadIncrement _ _ _ _ => true
  | .mdioC45Read _ _ _ _ => true
  | .mdioFrameComplete _ _ => true
  | .i2cWrite _ _ _ _ => true
  | .i2cRead _ _ _ _ => true
  | .i2cWriteRead _ _ _ _ _ => true
  | .i2cComplete _ _ _ => true
  | .i2cStretchTimeout _ => true
  | .gpioOutSet _ _ => true
  | .gpioOutClr _ _ => true
  | .linkFaultClear _ => true
  | .quiesceDrainTimeout _ => true
  | .powerValidT0 => true
  | .sysRstAssert => true
  | .sysRstRelease => true
  | .vinAbsent => true
  | .vinPresent => true
  | .holdBelow12v => true
  | .holdChargeTimeout => true
  | .imageStaged => true
  | .dealApply => true
  | .dealCommit => true
  | .dealWatchdog => true
  | .vendorThreadsStart => true
  | .ownerThreadsStart => true
  | .deckOvercurrent => true
  | .deckRemoved => true
  | .deckPowerReturn => true
  | .journalAppend => true
  | .journalBudgetTick => true
  | .attestSign => true
  | .challengeExpiry => true
  | .unlockExpiry => true
  | .unlockBackoffEnd => true
  | .macLearn => true
  | .twinInsert => true
  | .exportBatchSend => true
  | .exportFlushTimer => true
  | .exportStall => true
  | .governorLoop => true
  | .ceilingAdjust => true
  | .boostEnd => true
  | .metroSpreadFault => true
  | .refLock => true
  | .tcxoFailure => true
  | .ppsOutEdge => true
  | .ppsOutPulseEnd => true
  | .ppsInEdge => true
  | .ppsInGap => true
  | .macAgerPass => true
  | .bankRotationTimer => true
  | .bankDrainComplete => true
  | .bankDrainTimeout => true
  | .faultPulseEnd => true
  | .deadlockDetect => true
  | .ceRateCheck => true
  | .debugStepPending => true
  | .debugDetach => true
  | .lldpTransmit => true
  | .dhcpRequest => true
  | .ipfixBatchExport => true
  | .snmpRequest => true
  | .syslogPoll => true
  | .arpResolveTimeout => true
  | .lsaFlood => true
  | .routeCompute => true
  | .endpointNonce => true
  | .cmdRulesetSwap => true
  | .cmdUpdateBegin => true
  | .cmdRestartServices => true
  | .endpointAttest => true
  | .endpointData => true
  | .endpointStatus => true
  | .stagingTimeout => true
  | .deckLost => true
  | .exceptionPathNoBuffer => true
  | .foldExitComplete => true
  | .holdCharged => true
  | .powerCycle => true
  | .debugAttach => true
  | .linkStateAgeout => true
  | .lldpNeighbourAgeout => true
  | .tamperMonitorTrip _ _ => true
  | .deckIdentityCheck p => pageOk p
  | .floorAdvanceTimed _ => true
  | .saInstall _ _ _ => true
  | .flowSliceRebuildDone _ => true
  | .sampleStepTimer _ => true
  | .sampleRelaxTimer _ => true
  | .insertDeferStart _ => true
  | .frerTakeAnyTimeout _ => true
  | .marchTestComplete _ => true
  | .nelyanFmRepeat _ => true
  | .mr4Read _ _ => true
  | .zqCalibration _ _ => true
  | .inaugurationEnd m _ n => decide (m.length ≤ 4 ∧ 1 ≤ n)
  | .servoUpdate _ _ => true
  | .tsEntryDispatch _ => true
  | .mkaSakDistribute _ _ p => decide (p.length ≤ 7)
  | .cmdFloorAdvance _ => true
  | .wholeBufferTestComplete _ => true
  | .announceReceiptTimeout _ => true
  | .routeHoldExpiry _ => true

end Sys2Proof
end

