-- ==== Sys2Proof/Tests/Slice0.lean ====
section
/-! SUPPORT. The package's own tests: ill-formed commands, words of Elvon instructions, one step on small states, and for every
obligation states and operands that meet the hypotheses of each of its clauses.  Expected results come from the spec's rules and
examples, or from hand calculation with them. -/
namespace Sys2Proof.Tests
set_option Elab.async false
open Sys2Proof.Machine

/-- The state after a command. -/
def after (c : Instr) (s : State) : State :=
  match exec c s with
  | .next u => u
  | .fault _ => s
  | .refused _ => s

/-- The service complex runs, its cores are on, and thread `t` is READY at PC 0x100 with 5 in g1, 0x200 in g2 and 0x400 in g3. -/
def running (t : Nat) : State :=
  let s : State := { State.reset with svc := { Svc.init with vendorUp := true, ownerUp := true },
                                      col := { Collector.init with windows := [], staticOut := false } }
  let s1 := ((((s.set (R.POWER.DOM_STATE_k.STATE 9 10) 1).set (R.POWER.DOM_STATE_k.STATE 9 11) 1).set (R.POWER.DOM_STATE_k.STATE 9 12) 1).set
    (R.POWER.DOM_STATE_k.STATE 9 13) 1)
  s1.setThr t { Thread.init with st := .ready, pc := 0x100, entry := 0x40, g := [(1, 5), (2, 0x200), (3, 0x400)] }

/-! ## Service threads -/

/-- The conditions under which an instruction issues, on a thread of each mode (O1-O3, O8, O9). -/
theorem witness_issues : (running 0).Settled ∧ (running 0).Issues 0 ∧ (running 0).NoWatch ∧ (running 0).writing 0 = [] := by
  unfold State.Settled State.Issues State.CleanAt State.NoWatch; decide +kernel
theorem test_add : ((after (.add 0 4 1 2) (running 0)).reg 0 4, ((after (.add 0 4 1 2) (running 0)).thr 0).pc) = (0x205, 0x104) := by
  decide +kernel
theorem test_add_g0 : (after (.add 0 0 1 2) (running 0)).reg 0 0 = 0 := by decide +kernel
theorem test_sub_wraps : (after (.sub 0 4 1 2) (running 0)).reg 0 4 = 0xFFFFFFFFFFFFFE05 := by decide +kernel
theorem test_sra : (after (.sra 0 4 2 1) ((running 0).setReg 0 2 0x8000000000000000)).reg 0 4 = 0xFC00000000000000 := by decide +kernel
theorem test_bswap : (after (.bswap 0 4 1) (running 0)).reg 0 4 = 0x0500000000000000 := by decide +kernel
theorem test_popc : (after (.popc 0 4 1) (running 0)).reg 0 4 = 2 := by decide +kernel
theorem test_mulhu : (after (.mulhu 0 4 1 1) ((running 0).setReg 0 1 0x8000000000000000)).reg 0 4 = 0x4000000000000000 := by decide +kernel
theorem test_addi_negative : (after (.addi 0 4 1 0xFFFF) (running 0)).reg 0 4 = 4 := by decide +kernel
theorem test_andi_zero_extends : (after (.andi 0 4 1 0xFFFF) ((running 0).setReg 0 1 0xFFFFFFFFFFFFFFFF)).reg 0 4 = 0xFFFF := by decide +kernel
theorem test_lui : (after (.lui 0 4 0x8000) (running 0)).reg 0 4 = 0xFFFFFFFF80000000 := by decide +kernel
theorem test_lhi : (after (.lhi 0 4 1 0x1234) (running 0)).reg 0 4 = 0x123400000005 := by decide +kernel
theorem test_self : (after (.self 0 4) (running 0)).reg 0 4 = 0x100 := by decide +kernel
theorem test_bltu_back : ((after (.bltu 0 1 2 0xFFFF) (running 0)).thr 0).pc = 0xFC := by decide +kernel
theorem test_beq_falls_through : ((after (.beq 0 1 2 0xFFFF) (running 0)).thr 0).pc = 0x104 := by decide +kernel
theorem test_jal : (((after (.jal 0 4 0x1FFFFF) (running 0)).thr 0).pc, (after (.jal 0 4 0x1FFFFF) (running 0)).reg 0 4) = (0xFC, 0x104) := by
  decide +kernel
theorem witness_jalr : (((running 0).reg 0 2).toInt + (4 : BitVec 16).toInt) % 4 = 0 ∧
    ((after (.jalr 0 4 2 4) (running 0)).thr 0).pc = 0x204 := by decide +kernel
theorem test_jalr_misaligned_traps : ((after (.jalr 0 4 1 0) (running 0)).thr 0).trapCause = 4 := by decide +kernel

/-- A load and a store of each width (O4), and an atomic of each width (O5), which `refuses` allows. -/
theorem witness_reaches : (∀ n ∈ [1, 2, 4, 8], (running 0).Reaches 0 0x200 n .load true ∧ (running 0).Reaches 0 0x200 n .store true) ∧
    ∀ n ∈ [4, 8], (running 0).Reaches 0 0x200 n .atomic true := by
  unfold State.Reaches State.CleanAt; decide +kernel
/-- Bytes 0x81, 0x82, ... at 0x200. -/
def filled : State := (running 0).putBytes 0x200 [0x81, 0x82, 0x83, 0x84, 0x85, 0x86, 0x87, 0x88]
theorem test_lh : (after (.lh 0 4 2 0) filled).reg 0 4 = 0xFFFFFFFFFFFF8281 := by decide +kernel
theorem test_lwu : (after (.lwu 0 4 2 4) filled).reg 0 4 = 0x88878685 := by decide +kernel
theorem test_sh : (after (.sh 0 3 2 2) filled).bytesAt 0x200 6 = [0x81, 0x82, 0, 4, 0x85, 0x86] := by decide +kernel
theorem test_lw_misaligned : ((after (.lw 0 4 2 2) filled).thr 0).trapCause = 4 := by decide +kernel
theorem test_aadd : ((after (.aadd 0 true 4 2 1) filled).reg 0 4, (after (.aadd 0 true 4 2 1) filled).bytesAt 0x200 5) =
    (0x84838281, [0x86, 0x82, 0x83, 0x84, 0x85]) := by decide +kernel
theorem test_acas_fails : ((after (.acas 0 false 4 2 1) filled).reg 0 4, (after (.acas 0 false 4 2 1) filled).byteAt 0x200) =
    (0x8887868584838281, 0x81) := by decide +kernel

/-- Each long instruction with its operands in their places (O6). -/
theorem witness_long : longOk .bcopy 3 2 1 0 = true ∧ longOk .bfill 3 2 1 0 = true ∧ longOk .crc32c 2 0 1 4 = true ∧
    longOk .tsearch 2 5 1 4 = true ∧ (running 0).reg 0 1 ≠ 0 ∧ (running 0).Reaches 0 0x200 5 .load false ∧
    (running 0).Reaches 0 0x400 5 .store false ∧ (running 0).Reaches 0 0x200 64 .load false := by
  unfold State.Reaches State.CleanAt; decide +kernel
theorem test_bcopy : ((after (.bcopy 0 3 2 1 0) filled).bytesAt 0x400 6, (after (.bcopy 0 3 2 1 0) filled).reg 0 1,
    ((after (.bcopy 0 3 2 1 0) filled).thr 0).pc) = ([0x81, 0x82, 0x83, 0x84, 0x85, 0], 0, 0x104) := by decide +kernel
theorem test_bcopy_chunk : ((after (.bcopy 0 3 2 1 0) ((filled.setReg 0 1 100).setReg 0 3 0x43E)).reg 0 1,
    ((after (.bcopy 0 3 2 1 0) ((filled.setReg 0 1 100).setReg 0 3 0x43E)).thr 0).pc) = (98, 0x100) := by decide +kernel
theorem test_bfill : (after (.bfill 0 3 2 1 0) ((running 0).setReg 0 2 0x0102030405060708)).bytesAt 0x400 6 = [8, 7, 6, 5, 4, 0] := by decide +kernel
/-- The CRC-32C of "123456789" is 0xE3069283, from a start of all ones and with its complement taken. -/
theorem test_crc32c : (after (.crc32c 0 2 0 1 4) ((((running 0).putBytes 0x200 [0x31, 0x32, 0x33, 0x34, 0x35, 0x36, 0x37, 0x38, 0x39]).setReg 0 1 9).setReg
    0 4 0xFFFFFFFF)).reg 0 4 ^^^ 0xFFFFFFFF = 0xE3069283 := by decide +kernel
theorem test_hash : (after (.hash 0 2 0 1 4) ((((running 0).putBytes 0x200 [0x31, 0x32, 0x33, 0x34, 0x35, 0x36, 0x37, 0x38, 0x39]).setReg 0 1 9).setReg
    0 4 0xFFFFFFFF)).reg 0 4 ^^^ 0xFFFFFFFF = 0xCBF43926 := by decide +kernel
/-- A table of two entries: keys 7 and 9. -/
def table : State := ((running 0).putBytes 0x200 (leBytes 8 7 ++ leBytes 8 70 ++ leBytes 8 9 ++ leBytes 8 90)).setReg 0 1 2
theorem test_tsearch_hit : ((after (.tsearch 0 2 5 1 4) (table.setReg 0 5 9)).reg 0 4, (after (.tsearch 0 2 5 1 4) (table.setReg 0 5 9)).reg 0 1) =
    (90, 1) := by decide +kernel
theorem test_tsearch_miss : ((after (.tsearch 0 2 5 1 4) (table.setReg 0 5 8)).reg 0 2, (after (.tsearch 0 2 5 1 4) (table.setReg 0 5 8)).reg 0 1) =
    (0x220, 0) := by decide +kernel

/-! ## Channels and ports -/

/-- Channel `n`. -/
def ch (n : BitVec 10) : CNum := ⟨false, 0, n⟩
/-- A message of two words waits on channel 40; thread 0 writes channel 41 and reads channel 42. -/
def talking : State :=
  (((running 0).setChan 40 { Chan.init with msgs := [{ words := [7, 8], hw := false }] }).setChan 41 { Chan.init with owner := some (0, 0x80), part := [1] }).setChan
    42 { Chan.init with reader := some (0, [9]) }
/-- Each clause of O7. -/
theorem witness_channels : (talking.chan 40).words < 16 ∧ (talking.chan 41).writes 0 = true ∧ (talking.chan 43).owner = none ∧
    talking.othersWait 0 .waitChannel 43 false = false ∧ (talking.chan 42).writes 0 = false ∧ (talking.chan 42).reads 0 = true ∧
    (talking.chan 40).reader = none ∧ talking.othersWait 0 .waitChannel 40 true = false ∧ (talking.chan 42).reader = some (0, [9]) := by
  decide +kernel
theorem test_chout_begins : (((after (.chout 0 1 (ch 511)) talking).chan 511).owner, ((after (.chout 0 1 (ch 511)) talking).chan 511).part) =
    (some (0, 0x100), [5]) := by decide +kernel
theorem test_chend_completes : (((after (.chend 0 (ch 41)) talking).chan 41).owner, ((after (.chend 0 (ch 41)) talking).chan 41).msgs) =
    (none, [{ words := [1], hw := false }]) := by decide +kernel
theorem test_chend_releases : ((after (.chend 0 (ch 42)) talking).chan 42).reader = none := by decide +kernel
theorem test_chin_first : ((after (.chin 0 4 5 (ch 40)) talking).reg 0 4, (after (.chin 0 4 5 (ch 40)) talking).reg 0 5,
    ((after (.chin 0 4 5 (ch 40)) talking).chan 40).reader) = (7, 1, some (0, [8])) := by decide +kernel
theorem test_chin_last : ((after (.chin 0 4 5 (ch 42)) talking).reg 0 4, ((after (.chin 0 4 5 (ch 42)) talking).chan 42).reader) = (9, none) := by
  decide +kernel
theorem test_owner_channel_traps : ((after (.chend 4 (ch 31)) (running 4)).thr 4).trapCause = 2 := by decide +kernel
/-- Channel 43 belongs to thread 3; channel 44 is full of complete messages; channel 45 holds thread 0's message of 16 words; channel 46
is full of the message that thread 0 writes and a complete one. -/
def crowdedTalk : State :=
  (((talking.setChan 43 { Chan.init with owner := some (3, 0x80), reader := some (3, [1]) }).setChan 44
    { Chan.init with msgs := [{ words := List.replicate 16 7, hw := false }] }).setChan 45
    { Chan.init with owner := some (0, 0x80), part := List.replicate 16 1 }).setChan 46
    { Chan.init with owner := some (0, 0x80), part := [1], msgs := [{ words := List.replicate 15 7, hw := false }] }
theorem witness_channel_waits : (crowdedTalk.chan 46).writes 0 = true ∧ (crowdedTalk.chan 46).part.length < 16 ∧ 16 ≤ (crowdedTalk.chan 46).words ∧
    ((after (.chout 0 1 (ch 46)) crowdedTalk).thr 0).st = .waitChannel ∧ (crowdedTalk.chan 43).writes 0 = false ∧ (crowdedTalk.chan 43).owner ≠ none ∧
    ((after (.chout 0 1 (ch 43)) crowdedTalk).thr 0).wait = 43 ∧ 16 ≤ (crowdedTalk.chan 44).words ∧ (crowdedTalk.chan 44).writes 0 = false ∧
    (crowdedTalk.chan 43).reader = some (3, [1]) ∧ ((after (.chin 0 4 5 (ch 43)) crowdedTalk).thr 0).wait = 43 ∧
    (crowdedTalk.chan 47).reader = none ∧ (crowdedTalk.chan 47).msgs = [] ∧ (crowdedTalk.chan 47).writes 0 = false ∧ (crowdedTalk.chan 47).reads 0 = false ∧
    ((after (.chend 0 (ch 47)) crowdedTalk).thr 0).pc = 0x104 := by decide +kernel
theorem witness_word_17 : (let s := talking.setChan 41 { Chan.init with owner := some (0, 0x80), part := List.replicate 16 1 }
    s.writing 0 = [41] ∧ 16 ≤ (s.chan 41).part.length ∧ ((after (.chout 0 1 (ch 41)) s).thr 0).trapCause = 6 ∧
      ((after (.chout 0 1 (ch 41)) s).thr 0).pc = 0x80 ∧ ((after (.chout 0 1 (ch 41)) s).chan 41).owner = none) := by decide +kernel
theorem witness_chin_same : ((after (.chin 0 4 4 (ch 40)) talking).chan 40).reader = some (0, [8]) := by decide +kernel
theorem witness_channel_number : (running 0).cnum 0 (ch 512) = 512 ∧ ((after (.chin 0 4 5 (ch 512)) (running 0)).thr 0).trapCause = 5 ∧
    (running 4).writing 4 = [] ∧ vendorThr 4 = false := by decide +kernel

/-- Each clause of O8: a trap and a reserved word; AWAIT with its line asserted and not; SLEEP of 0 and of more. -/
def pending8 : State := ((running 0).setBit (R.INTC.PEND_SET_k.PEND 0) 8 true).setBit (R.INTC.MASK_SET_k.MASK 0) 8 false
theorem witness_waits : Elv.decode 0 = .reserved 0 ∧ pending8.holder 0 = none ∧ pending8.line 0 = true ∧
    pending8.othersWait 0 .waitEvent 104 true = false ∧ pending8.othersWait 0 .waitEvent 104 false = false ∧ pending8.Settled ∧
    pending8.Issues 0 ∧ (running 0).holder 0 = none ∧ (running 0).line 0 = false := by
  unfold State.Settled State.Issues State.CleanAt; decide +kernel
theorem test_trap : (((after (.trap 0 0xABC) (running 0)).thr 0).faultAddr, (after (.trap 0 0xABC) (running 0)).isSticky 241) = (0xABC, true) := by
  decide +kernel
theorem test_await : (after (.await 0) pending8).holder 0 = some 0 := by decide +kernel
theorem test_await_blocks : ((after (.await 0) (running 0)).thr 0).st = .waitEvent := by decide +kernel
theorem test_sleep : (after (.sleep 0 1) (running 0)).dueAt (.sleep 0) = some 327680000 := by decide +kernel


/-- The word with 5 in it in g1 as an operand; thread 0 with word `w` in g1. -/
def holding (w : Word64) : State := (running 0).setReg 0 1 w
/-- Each clause of O9 for timers, at the first and at the last port. -/
theorem witness_timers : (holding 1).cnum 0 (ch 32) = 32 ∧ (holding 1).timerOk 0 0 = true ∧ (holding 1).timerOk 0 63 = true ∧
    ((holding 1).reg 0 1).getLsbD 63 = false ∧ ((holding (2 ^ 63)).reg 0 1).getLsbD 63 = true := by decide +kernel
theorem test_timer_arm : (((after (.timerArm 0 1 (ch 95)) (holding (2 ^ 62 + 3))).svc.timers.get ETimer.init 63).periodic,
    (after (.timerArm 0 1 (ch 95)) (holding (2 ^ 62 + 3))).dueAt (.etimer 63)) = (true, some 196608000) := by decide +kernel
theorem test_timer_cancel : (after (.timerCancel 0 1 (ch 32)) ((holding (2 ^ 63)).arm (.etimer 0) 5)).dueAt (.etimer 0) = none := by decide +kernel
/-- Timer 0 has expired twice. -/
def expired : State := { running 0 with svc := { (running 0).svc with timers := [(0, { ETimer.init with thread := 0, count := 2 })] } }
theorem witness_timer_pin : (expired.svc.timers.get ETimer.init 0).count ≠ 0 ∧ (expired.thr 0).pin = none ∧
    expired.othersWait 0 .waitPort 32 true = false ∧ (after (.timerPin 0 4 5 (ch 32)) expired).reg 0 4 = 2 := by decide +kernel

/-- A take by size, at the largest of pool 1, and a take by pool (O9). -/
theorem witness_take : (∀ k ∈ [1, 2], (holding 128).unmet k < (holding 128).freeIn k ∧ 0 < (holding 128).poolCount k ∧ (holding 128).holderOf k 0 = none) ∧
    bitsOf (128 : Nat) 24 32 = 0 ∧ (128 : Nat) ≤ poolSize 1 ∧ poolSize 0 < 128 ∧ bitsOf (2 ^ 62 + 2 * 2 ^ 56) 56 3 = 2 ∧
    bitsOf (2 ^ 62 + 2 * 2 ^ 56) 59 3 = 0 ∧ ((holding 128).thr 0).take = none ∧ ((holding 128).thr 0).takeWaits = false := by decide +kernel
theorem test_take_by_size : (after (.poolTake 0 1 (ch 16)) (holding 128)).holderOf 1 0 = some 3 := by decide +kernel
theorem test_take_by_pool : (after (.poolTake 0 1 (ch 16)) (holding (2 ^ 62 + 2 * 2 ^ 56))).holderOf 2 0 = some 3 := by decide +kernel
/-- The buffer taken is given back, at its start address. -/
def taken : State := after (.poolTake 0 1 (ch 16)) (holding 128)
theorem witness_take_result : (taken.thr 0).take = some 0x200000#64 ∧ (taken.thr 0).pin = none ∧
    (after (.poolTakeResult 0 4 5 (ch 16)) taken).reg 0 4 = 0x200000#64 := by decide +kernel
theorem witness_give : (taken.setReg 0 1 0).bufStart 0 = some (1, 0) ∧
    taken.pools.waiting = [] ∧ vendorThr 0 = true ∧
    (after (.poolGive 0 1 (ch 17)) (taken.setReg 0 1 0x0)).holderOf 1 0 = none := by decide +kernel
/-- A descriptor of two words waits on X15, and a completion of two words on U7. -/
def presented : State :=
  let s := taken
  { s with tm := { s.tm with desc := [(15, [[0x0, 6]])] },
           tabs := { s.tabs with uports := [(7, { cmds := [], comps := [{ words := [1, 2], ready := true, commit := 0 }] })] } }
theorem witness_exception_pin : presented.descs 15 = [[0x0, 6]] ∧ (presented.thr 0).pin = none ∧
    presented.othersWait 0 .waitPort 15 true = false ∧ (after (.exceptionPin 0 4 5 (ch 15)) presented).reg 0 5 = 1 ∧
    (after (.exceptionPin 0 4 5 (ch 15)) presented).holderOf 1 0 = some 3 := by decide +kernel
theorem witness_completion_pin : presented.uportOk 0 7 = true ∧ (presented.uport 7).cmds = [] ∧
    (presented.uport 7).comps = [{ words := [1, 2], ready := true, commit := 0 }] ∧ presented.othersWait 0 .waitPort 103 true = false ∧
    (after (.uportCompletionPin 0 4 5 (ch 103)) presented).reg 0 4 = 1 ∧
    ((after (.uportCompletionPin 0 4 5 (ch 103)) presented).uport 7).comps = [] := by decide +kernel

/-- A send request of 60 bytes to port 0, for the port of variant 32 that exists (O10). -/
theorem witness_send : ((running 0).sendBad 0 (BitVec.ofNat 64 (0x200 * 2 ^ 24 + 60 * 2 ^ 10)) 0 = false) ∧ (running 0).PortFree 0 105 ∧
    (running 0).CleanAt 0x200 60 ∧ (running 0).on R.FAULT.STATE.FOLD = true ∧
    (after (.sendRequest 0 (BitVec.ofNat 64 (0x200 * 2 ^ 24 + 60 * 2 ^ 10)) 0 0) (running 0)).fld R.SVC.INJECT_REFUSED.COUNT = 1 := by
  unfold State.PortFree State.CleanAt; decide +kernel

/-- The header of an update-port command: OP, TABLE, TAG 0xBEEF and INDEX. -/
def hdr (op T i : Nat) : Word64 := BitVec.ofNat 64 (op * 2 ^ 56 + T * 2 ^ 48 + 0xBEEF * 2 ^ 32 + i)
/-- The tables' domains are on, and rule bank 0 has one unit. -/
def tabled : State :=
  let s := running 0
  let s1 := (List.range 8).foldl (fun s k => s.set (R.POWER.DOM_STATE_k.STATE 9 k) 1) s
  (s1.set R.TABLES.RULE_BANKS.SIZE0 1)
/-- A whole command on U0 (O11): READ of a group, WRITE and CLEAR of one at the last index, INSERT of a MAC entry, DELETE, SWAP,
BANK_CLEAR and FLUSH. -/
theorem witness_uport : tabled.PortFree 0 96 ∧ tabled.uportOk 0 0 = true ∧ (tabled.uport 0).cmds = [] ∧ (tabled.uport 0).comps.length < 32 ∧
    tabled.tableShape 0x20 = some (32, 65536) ∧ tabled.rowOff 0x20 65535 = false ∧ tabled.upCheck 0x20 65535 = 0 ∧
    rowOk 0x20 65535 0 = true ∧ tabled.macOn = true ∧ tabled.macFind 1 2 = none ∧ tabled.macFree (macSet 1 2) ≠ none ∧
    tabled.ruleSize 0 ≠ 0 ∧ tabled.bankOff 0 = false ∧ tabled.ruleBank 0 ≠ 2 := by
  unfold State.PortFree; decide +kernel
theorem test_uport_read : (after (.uportRead 0 0 [hdr 5 0x20 65535]) tabled).uport 0 =
    { cmds := [], comps := [{ words := [0x0005BEEF0000FFFF, 0, 0, 0, 0, 0], ready := false, commit := 0 }] } := by decide +kernel
theorem test_uport_swap : ((after (.uportSwap 0 0 [hdr 6 0x10 0]) tabled).isPend 121, (after (.uportSwap 0 0 [hdr 6 0x10 0]) tabled).fld
    R.TABLES.SEQ_LO.COUNT) = (true, 1) := by decide +kernel
/-- A dynamic MAC entry of FID 1 and address 2 on port 3, placed by INSERT. -/
def macIn : State := after (.uportInsert 0 0 [hdr 3 1 0, BitVec.ofNat 64 (2 ^ 63 + 2 ^ 48 + 2), BitVec.ofNat 64 (3 * 2 ^ 48)]) tabled
theorem test_uport_insert : macIn.macFind 1 2 = some (macSet 1 2 * 8) := by decide +kernel
theorem test_uport_delete : (after (.uportDelete 0 0 [hdr 4 1 0, BitVec.ofNat 64 (2 ^ 63 + 2 ^ 48 + 2), 0])
    (after (.uportCompletionReady 0) macIn)).macFind 1 2 = none := by decide +kernel
theorem test_uport_flush : (after (.uportFlush 0 0 [hdr 7 1 0, BitVec.ofNat 64 (2 ^ 47 + 2 ^ 32)])
    (after (.uportCompletionReady 0) macIn)).macFind 1 2 = none := by decide +kernel

theorem test_uport_write_clear : let w := after (.uportWrite 0 0 (hdr 1 0x21 0 :: [16, 2])) tabled
    w.row 0x21 0 ≠ 0 ∧ (after (.uportClear 0 0 [hdr 2 0x21 0]) w).row 0x21 0 = 0 := by decide +kernel
theorem test_uport_bank_clear : (after (.uportBankClear 0 0 [hdr 8 0x10 0]) { tabled with tabs := { tabled.tabs with rows := [(0x1000000003, 7)] } }).row
    0x10 3 = 0 := by decide +kernel

/-! ## Events, threads and cores -/

/-- Sources 9 and 255 wait for core 3 (O12); source 9 is in service on core 0. -/
def events : State :=
  let s := ((running 0).setBit (R.INTC.PEND_SET_k.PEND 7) 31 true).setBit (R.INTC.MASK_SET_k.MASK 7) 31 false
  let s1 := s.set (R.INTC.ROUTE_k.CORE 15 15) 3
  { s1 with svc := { s1.svc with service := [(0, some 9)] } }
theorem witness_claim : events.serving 3 = none ∧ events.qualifies 3 255 = true ∧ (∀ m, m < 255 → events.qualifies 3 m = false) ∧
    lockedSource 255 = false ∧ (after (.claimRead (.thread 60) 3) events).serving 3 = some 255 := by decide +kernel
theorem witness_done : events.serving 0 = some 9 ∧ events.serving 0 ≠ some 8 ∧ (after (.doneWrite (.thread 0) 0 9) events).serving 0 = none ∧
    (after (.doneWrite (.thread 0) 0 8) events).bit R.INTC.STICKY.BAD_DONE 0 = true := by decide +kernel
theorem test_owner_pend_set : ((after (.pendSet (.thread 4) 6 0xFFFFFFFF) (running 0)).isPend 215,
    (after (.pendSet (.thread 4) 6 0xFFFFFFFF) (running 0)).isPend 216) = (false, true) := by decide +kernel

/-- Thread 16, of the TTDP service, and thread 4, an owner's. -/
def owned : State := (running 4).setBit (R.SVC.STATUS.OWNER 0) 4 true
theorem witness_thread_cmds : owned.powered 154 = true ∧ owned.groupUp 4 = true ∧ owned.assigned 4 = true ∧ vendorThr 4 = false ∧
    ((after (.threadRestartCmd (.thread 5) 4) owned).thr 4).pc = 0x40 ∧ ((after (.threadStopCmd (.thread 5) 4) owned).thr 4).st = .stopped := by
  decide +kernel
/-- A sleep that is over, and a CHIN whose message has come. -/
def slept : State := { after (.sleep 0 1) (running 0) with time := { (running 0).time with elapsed := 327680000 } }
def chinWaits : State := (after (.chin 0 4 5 (ch 40)) (running 0)).setChan 40 { Chan.init with msgs := [{ words := [7, 8], hw := false }] }
theorem witness_release : (slept.thr 0).blocked = some (.sleep 1) ∧ slept.isElapsed (.sleep 0) = true ∧ (slept.thr 0).waits = true ∧
    (chinWaits.thr 0).blocked = some (.chin 4 5 (ch 40)) ∧ (chinWaits.thr 0).waits = true ∧
    chinWaits.othersWait 0 .waitChannel 40 true = false ∧ (chinWaits.thr 0).stepping = false ∧ chinWaits.domOn 154 = true ∧
    ((after (.threadRelease 0) slept).thr 0).pc = 0x104 ∧ (after (.threadRelease 0) chinWaits).reg 0 4 = 7 := by decide +kernel
/-- Timer 63, of 2 us, is due. -/
def timerDue : State :=
  let s := (running 0).armAt (.etimer 63) 100
  { s with time := { s.time with elapsed := 101 }, svc := { s.svc with
      timers := [(63, { armed := true, thread := 0, periodic := true, event := true, interval := 2, count := 0 })] } }
theorem witness_timer_expiry : timerDue.dueAt (.etimer 63) = some 100 ∧ (timerDue.svc.timers.get ETimer.init 63).armed = true ∧
    (after (.timerExpiry 63) timerDue).dueAt (.etimer 63) = some 131072100 ∧ (after (.timerExpiry 63) timerDue).isPend 95 = true := by decide +kernel
/-- Core 0 may sleep; it sleeps, and source 8 or source 255, which is in the wake subset, qualifies. -/
def resting : State :=
  (((running 0).setBit R.INTC.SLEEP_CFG.EN 0 true).setThr 0 { (running 0).thr 0 with st := .waitChannel, blocked := some (.chin 4 5 (ch 40)), wait := 40 }).setThr
    1 { Thread.init with st := .waitEvent, blocked := some .await, wait := 104 }
def asleep8 : State := ((resting.setB (R.INTC.LINE_c.SLEEPING 0) true).setBit (R.INTC.PEND_SET_k.PEND 0) 8 true).setBit (R.INTC.MASK_SET_k.MASK 0) 8 false
/-- Core 0 sleeps, and source 255, of the wake subset, qualifies. -/
def asleep255 : State :=
  let s := (resting.setB (R.INTC.LINE_c.SLEEPING 0) true).setBit (R.INTC.PEND_SET_k.PEND 7) 31 true
  ((s.setBit (R.INTC.MASK_SET_k.MASK 7) 31 false).setBit R.INTC.WAKE_EN.EN 31 true).set (R.INTC.WAKE_m.SOURCE 7 3) 255
theorem witness_core_wake : asleep255.qualifies 0 255 = true ∧ asleep255.inWake 255 = true ∧ (after (.coreWake 0 1) asleep255).asleep 0 = false := by
  decide +kernel
theorem witness_core_sleep : resting.maySleep 0 = true ∧ (after (.coreSleep 0) resting).asleep 0 = true ∧ asleep8.asleep 0 = true ∧ asleep8.qualifies 0 8 = true ∧
(after (.coreWake 0 2) asleep8).asleep 0 = false := by decide +kernel

/-- The complex before its start; with the vendors waiting; and deadlocked (O15). -/
def before : State := { (running 0).setB R.DEAL.STATUS.FWD true with svc := Svc.init }
theorem witness_start : before.on R.DEAL.STATUS.FWD = true ∧ before.svc.vendorUp = false ∧ before.on R.FAULT.STATE.SVC_HELD = false ∧
    (after .vendorThreadsStart before).svc.vendorUp = true := by decide +kernel
def waited : State :=
  { running 0 with svc := { (running 0).svc with ownerUp := false, threads := (List.range 64).map fun t => (t, { Thread.init with waited := true }) } }
theorem witness_owner_start : waited.svcRuns = true ∧ waited.svc.restarting = 0 ∧ waited.vendorsWaited = true ∧
    (after .ownerThreadsStart waited).svc.ownerUp = true := by decide +kernel
theorem witness_restart : (running 0).powered 154 = true ∧ (running 0).svcRuns = true ∧ (running 0).svc.restarting = 0 ∧
    (after (.serviceRestart (.thread 0)) (running 0)).svc.restarting = 1 ∧
    (after (.restartServicesStart true) (after (.serviceRestart (.thread 0)) (running 0))).isSticky 248 = true := by decide +kernel
theorem witness_deadlock : resting.deadlockNow = true ∧ (after .deadlockDetect resting).isSticky 240 = true := by decide +kernel


/-! ## Time -/

/-- Field `f` of the running module holds `v`. -/
def having (l : List (Fld × Nat)) : State := l.foldl (fun s e => s.set e.1 e.2) (running 0)
/-- The clauses of O16. -/
theorem witness_ref : (having [(R.TIME.OSC.SRC, 1)]).fld R.TIME.OSC.SRC = 1 ∧ (having [(R.TIME.OSC.SRC, 1)]).on R.TIME.OSC.REF_LOCK = false ∧
    (after .refLock (having [(R.TIME.OSC.SRC, 1)])).isPend 19 = true ∧ (having [(R.TIME.OSC.REF_LOCK, 1)]).on R.TIME.OSC.REF_LOCK = true ∧
    (after (.refLockLoss 0xFFFFFF) (having [(R.TIME.OSC.REF_LOCK, 1)])).fld R.TIME.OSC_TRIM.TRIM = 0xFFFFFF ∧
    (running 0).eff R.TIME.OSC.SRC ≠ 1 ∧ (after (.oscTrimWrite (.thread 0) 0x800000) (running 0)).fld R.TIME.OSC_TRIM.TRIM = 0x800000 := by decide +kernel
theorem test_rate_limit : (after (.rateWrite (.thread 0) 3 0x80000000) (running 0)).on (R.TIME.INST_i.STATUS.RATE_LIMIT 3) = true := by decide +kernel
theorem witness_inst_set : (having [(R.TIME.INST_i.SET_NS.NS 3, 999999999), (R.TIME.INST_i.SET_SEC_HI.SEC 3, 1)]).fld (R.TIME.INST_i.SET_NS.NS 3) < 1000000000 ∧
    ((after (.instSet (.thread 0) 3) (having [(R.TIME.INST_i.SET_NS.NS 3, 999999999), (R.TIME.INST_i.SET_SEC_HI.SEC 3, 1)])).clk 3).sec = 2 ^ 32 := by
  decide +kernel
theorem test_add_offset : ((after (.instAddOffset (.thread 0) 0) (having [(R.TIME.INST_i.OFFSET.NS 0, 0xFFFFFFFF)])).clk 0).ns = 999999999 := by
  decide +kernel
theorem test_capture : (after (.captureGo (.thread 4)) { running 0 with inst := [(2, ⟨5, 6, 7, 0⟩)] }).fld (R.TIME.SNAP_i.NS.NS 2) = 6 := by decide +kernel
theorem test_ets_pop : (after (.etsPop (.thread 0)) (running 0)).on R.TIME.ETS_HEAD.VALID = false := by decide +kernel
/-- Forwarding, with PPS_OUT on and instance 0 at 2 s (O17). -/
def pulsing : State :=
  let s := having [(R.TIME.PPS_OUT.EN, 1), (R.DEAL.STATUS.FWD, 1), (R.TIME.PPS_IN.EN, 1)]
  { s with inst := [(0, ⟨2, 0, 0, 0⟩)] }
theorem witness_pps_out : pulsing.on R.TIME.PPS_OUT.EN = true ∧ pulsing.on R.DEAL.STATUS.FWD = true ∧ (pulsing.time.ppsLast : Int) < pulsing.ppsEdge ∧
    (pulsing.time.ppsAfter : Int) ≤ pulsing.ppsEdge ∧ pulsing.time.ppsHigh = false ∧ (after .ppsOutEdge pulsing).isPend 28 = true := by decide +kernel
theorem witness_pps_end : (let s := after .ppsOutEdge pulsing
    s.time.ppsHigh = true ∧ s.time.ppsAt + msec (s.eff R.TIME.PPS_OUT.WIDTH) ≤ 100000000) ∧
    (after .ppsOutPulseEnd { after .ppsOutEdge pulsing with now := 100000000 }).time.ppsHigh = false := by decide +kernel
/-- The edge after one at period 0: early, and a gap. -/
def edged (n : Nat) : State := { after .ppsInEdge pulsing with now := n }
theorem witness_pps_in : pulsing.time.ppsIn = none ∧ (edged 24999999).time.ppsIn = some 0 ∧ 24999999 < msec 500 ∧
    (after .ppsInEdge (edged 24999999)).fld R.TIME.PPS_IN_IGNORED.COUNT = 1 ∧ (after .ppsInEdge (edged 25000000)).fld R.TIME.PPS_IN_SEQ.COUNT = 2 ∧
    (edged 75000000).time.ppsGap = false ∧ msec 1500 ≤ 75000000 ∧ (after .ppsInGap (edged 75000000)).isSticky 258 = true := by decide +kernel

/-! ## Faults, Fold and supply -/

/-- Sticky source 34 with its countdown over; source 241, which escalates to a restart, and again once escalated (O18). -/
def counting (n : Nat) : State := { (running 0).detect n with now := 100000000 }
theorem witness_detect : sourceExists 303 = true ∧ 303 ∉ levelSources ∧ sourceExists 42 = true ∧ 42 ∈ levelSources ∧
    (after (.faultSourceDetect 303 true 0) (running 0)).isSticky 303 = true ∧ (after (.faultSourceDetect 42 true 0) (running 0)).isPresent 42 = true ∧
    (after (.faultSourceDetect 42 false 0) (after (.faultSourceDetect 42 true 0) (running 0))).isPresent 42 = false := by decide +kernel
theorem witness_countdown : (counting 241).isDue (.countdown 241) = true ∧ (counting 241).isSticky 241 = true ∧ (counting 241).escOf 241 = 1 ∧
    241 ∉ (counting 241).col.escalated ∧ (after (.countdownExpiry 241) (counting 241)).svc.restarting = 1 ∧
    (counting 34).isDue (.countdown 34) = true ∧ (counting 34).escOf 34 ≠ 1 := by decide +kernel
theorem witness_clear : (counting 34).isLatched 34 = false ∧ (counting 34).isPresent 34 = false ∧
    (after (.stickyClear (.thread 4) 1 4) (counting 34)).isSticky 34 = false ∧
    (let s := after (.faultSourceDetect 42 true 0) (running 0)
     s.isPresent 42 = true ∧ s.isLatched 42 = false ∧ (after (.stickyClear (.thread 4) 1 1024) s).isSticky 42 = true) := by decide +kernel
/-- In Fold with nothing against the exit; with a latched grave source; and leaving. -/
def folded : State := having [(R.FAULT.STATE.FOLD, 1), (R.DEAL.STATUS.FWD, 1)]
theorem witness_fold_exit : folded.on R.FAULT.STATE.GRAVE_LATCHED = false ∧ folded.blocksExit = false ∧ folded.sup.sysRstN = true ∧
    folded.on R.FAULT.STATE.EXITING = false ∧ (after (.foldExit (.thread 4)) folded).on R.FAULT.STATE.EXITING = true ∧
    (after (.foldExit (.thread 4)) (folded.setB R.FAULT.STATE.GRAVE_LATCHED true)).fld R.FAULT.EXIT_REFUSED.REASON = 1 ∧
    (after .foldExitComplete (folded.setB R.FAULT.STATE.EXITING true)).isPend 7 = true := by decide +kernel
/-- A Fold that is decided (O20), a detection of each class (O21), and the end of a FAULT_N pulse (O19). -/
def deciding : State := { running 0 with col := { (running 0).col with foldReq := true } }
theorem witness_decided : deciding.col.foldReq = true ∧ deciding.col.restartReq = false ∧ deciding.col.inFold = false := by decide +kernel
theorem witness_classes : (running 0).isSticky 319 = false ∧ (running 0).col.foldReq = false ∧ (running 0).classOf 303 = classNotice ∧
    (running 0).classOf 34 = classHandled ∧ (running 0).forced = false ∧ (running 0).frozenCore ((running 0).evCore 34) = false ∧
    (running 0).classOf 16 = classFold ∧ (running 0).classOf 0 = classGrave ∧ State.reset.classOf 34 = classHandled ∧
    State.reset.forced = true := by decide +kernel
theorem witness_pulse_end : (let s := { (having [(R.FAULT.CTRL.FAULT_PULSE, 1)]).detect 34 with now := 100000000 }
    s.isDue .pulse = true ∧ (after .faultPulseEnd s).isPend 9 = true) ∧ (running 0).isPresent 4 = false := by decide +kernel

/-- The states of the supply (O22): before t0, held in reset, running, in a ride-through and while HOLD charges. -/
def begun : State := after .powerValidT0 State.reset
theorem witness_supply : State.reset.sup.started = false ∧ State.reset.sup.sysRstN = true ∧ State.reset.sup.tamperN = true ∧
    State.reset.sup.thermAlertN = true ∧ begun.sup.started = true ∧ begun.sup.vinPresent = true ∧ begun.sup.sysRstN = true ∧
    (let s := { begun with sup := { begun.sup with sysRstN := false } }
     s.sup.sysRstN = false ∧ (after .sysRstRelease s).t0 = s.now ∧ (after .sysRstRelease s).fld R.DEAL.DEAL_COUNT.COUNT = 2) := by decide +kernel
theorem witness_hold : (after .vinAbsent begun).sup.onHold = true ∧ (after .vinAbsent begun).sup.vinPresent = false ∧
    (after .vinAbsent begun).isSticky 38 = true ∧ (after .vinPresent (after .vinAbsent begun)).sup.onHold = false ∧
    (after .holdBelow12v (after .vinAbsent begun)).sup.brownedOut = true ∧ (after .powerCycle (after .vinAbsent begun)).regs = [] := by decide +kernel
theorem witness_charge : (let s := { begun with now := 10000000000 }
    s.isDue .charge = true ∧ s.on R.POWER.STATUS.HOLD_OK = false ∧ (after .holdChargeTimeout s).isSticky 39 = true) := by decide +kernel
theorem test_start : begun.fld R.DEAL.DEAL_COUNT.COUNT = 1 ∧ begun.deal.running = true := by decide +kernel

/-! ## Samples and domains -/

theorem witness_junction : (1255 : Int) ∈ [200, 1255, -400] ∧ (∀ x ∈ [200, 1255, (-400 : Int)], x ≤ 1255) ∧ (running 0).sup.monSupply = false ∧
    (after (.junctionSample [200, 1250, -400]) (running 0)).isPresent 40 = false ∧ (after (.junctionSample [200, 1255, -400]) (running 0)).isPresent 40 = true := by
  decide +kernel
theorem test_power_sample : (after (.powerSample 10499 1000 46000) begun).on R.POWER.STATUS.LOW_BAND = true ∧
    (after (.powerSample 10500 1000 45999) begun).on R.POWER.STATUS.HOLD_OK = false := by decide +kernel
theorem test_therm_alert : (after (.thermAlertChange true) (running 0)).isPresent 42 = true := by decide +kernel
theorem test_rail_back : (after (.railOutOfWindow 0) (running 0)).isPresent 43 = false := by decide +kernel
theorem test_tamper_released : (after (.tamperNAssert false) (running 0)).on R.SEC.TAMPER.LEVEL = true := by decide +kernel

/-- Domain `d` in state `x`. -/
def dom (d x : Nat) (s : State) : State := s.set (R.POWER.DOM_STATE_k.STATE (d / 16) (d % 16)) x
/-- The clauses of O24: a lane whose port is off; one that carries a port; a port whose lane is off; a port that has drained, and one that
is to come back on; a drain and an acknowledge whose time is over; a domain that comes on. -/
theorem witness_domain_off : (dom 48 1 (running 0)).domState 48 = 1 ∧ (dom 0 0 (dom 48 1 (running 0))).offRule 48 = none ∧
    (dom 0 1 (dom 48 1 (running 0))).offRule 48 = some 1 ∧ (dom 165 1 (running 0)).offRule 165 = some 4 ∧
    (after (.pwrOnClr (.thread 0) 1 0x10000) (dom 0 1 (dom 48 1 (running 0)))).fld R.POWER.REQ_RESULT.REASON = 1 := by decide +kernel
theorem witness_domain_on : (dom 0 0 (dom 48 0 (running 0))).onRule 48 = none ∧ (dom 0 0 (dom 48 0 (running 0))).onRule 0 = some 5 ∧
    (after (.pwrOnSet (.thread 0) 1 0x10000) (dom 0 0 (dom 48 0 (running 0)))).domState 48 = 3 ∧
    (after (.pwrOnSet (.thread 0) 0 1) (dom 0 0 (dom 48 0 (running 0)))).fld R.POWER.REQ_RESULT.REASON = 5 := by decide +kernel
def quiescing : State := dom 153 2 (running 0)
theorem witness_quiesce : quiescing.domState 153 = 2 ∧ (quiescing.lastWork 153).domIdle 153 = true ∧ 153 ∉ quiescing.dom.backOn ∧
    (let s := { quiescing with dom := { quiescing.dom with backOn := [153] } }
     (s.lastWork 153).domIdle 153 = true ∧ (after (.quiesceAcknowledge 153) s).domState 153 = 1) ∧
    (let s := quiescing.arm (.drain 153) 0
     s.isDue (.drain 153) = true ∧ ownDrain 153 = false ∧ (after (.quiesceDrainTimeout 153) s).dueAt (.drain 153) = none) ∧
    (let s := quiescing.arm (.quiesceAck 153) 0
     s.isDue (.quiesceAck 153) = true ∧ (after (.quiesceTimeout 153) s).isSticky 44 = true) := by decide +kernel
theorem witness_coming_on : (let s := { dom 153 3 (running 0) with dom := { (running 0).dom with turningOn := [153] } }
    s.domState 153 = 3 ∧ 153 ∈ s.dom.turningOn ∧ s.running (.switch 153) = false ∧ 153 ∉ s.dom.offNext ∧
      (after (.domainOnComplete 153) s).domState 153 = 1) := by decide +kernel
/-- A package that holds only the owner area may leave service; the first one may not. -/
theorem witness_dram_leave : (let s := (dom 165 1 (dom 158 1 (running 0))).set R.DRAM.MAP.ORDER 2
    s.powered 165 = true ∧ s.on (R.DRAM.CTRL.EN 7) = true ∧ s.dramMayLeave 7 = true ∧ s.dramMayLeave 0 = false ∧
      (after (.dramCtrlDisable (.thread 0) 7) s).on (R.DRAM.CTRL.EN 7) = false ∧
      (after (.dramCtrlDisable (.thread 0) 0) s).on (R.DRAM.STICKY.OFF_REFUSED 0) = true) := by decide +kernel

/-! ## Deal, Deck and trust -/

/-- The Deal at step 4; with DRAM ready; with a slot staged; and with an image accepted (O25). -/
def dealing : State := after (.dealerStart true true true true true true (-400) true) begun
def withDeal (f : Deal → Deal) : State := { dealing with deal := f dealing.deal }
/-- Sixteen bytes of a header with IMG_LEN 16. -/
def header16 : List Byte := [0, 0, 0, 0, 0, 0, 0, 0, 0, 0, 0, 16, 1, 0, 0, 0]
def aboutToStage : State :=
  let s := withDeal fun d => { d with dramReady := true, toTry := [1] }
  { s with deck := { s.deck with pages := [(0x4000, header16)] } }
def stagedOne : State := withDeal fun d => { d with staged := some { slot := 1, bytes := header16, plain := none, code := 0 }, toTry := [1] }
theorem witness_deal_start : begun.fld R.DEAL.STATUS.STEP = 0 ∧ begun.deal.running = true ∧ begun.on R.FAULT.STATE.GRAVE_LATCHED = false ∧
    dealing.fld R.DEAL.STATUS.STEP = 4 ∧ dealing.on R.DEAL.DECK_STATE.PRESENT = true := by decide +kernel
theorem witness_deal_waits : dealing.deal.running = true ∧ dealing.deal.dramReady = false ∧ dealing.deal.memOk = false ∧ dealing.deal.checked = false ∧
    (after (.dramInitComplete true) dealing).deal.dramReady = true ∧ (after (.memtestComplete true) dealing).deal.memOk = true ∧
    (after (.dramInitComplete true) dealing).deal.bucketsClear = false ∧
    (after (.bucketClearComplete true) (after (.dramInitComplete true) dealing)).deal.bucketsClear = true := by decide +kernel
theorem witness_staging : aboutToStage.slotInHand = 1 ∧ imgLen (aboutToStage.slotHeader 1) = 16 ∧ aboutToStage.page (slotPage 1) ≠ [] ∧
    aboutToStage.deal.staged = none ∧ (after .imageStaged aboutToStage).deal.staged.isSome = true := by decide +kernel
theorem witness_check : stagedOne.deal.staged.isSome = true ∧
    (let s := { stagedOne with trust := { stagedOne.trust with otp := { stagedOne.trust.otp with claimedBits := 3 } } }
     s.isClaimed = true ∧ s.deal.checked = false) := by decide +kernel
/-- All is done that applying waits for; it has been applied. -/
def accepted (applied : Bool) : State := withDeal fun d =>
  { d with staged := some { slot := 1, bytes := header16, plain := some [], code := 0 }, checked := true, memOk := true, bucketsClear := true,
           dramReady := true, applied := applied }
theorem witness_apply : (accepted false).deal.staged ≠ none ∧ (accepted false).deal.checked = true ∧ (accepted false).deal.running = true ∧
    (accepted true).deal.applied = true := by decide +kernel
theorem test_commit : (after .dealCommit (accepted true)).on R.DEAL.STATUS.FWD = true := by decide +kernel
theorem witness_watch_and_loss : (let s := { dealing with now := 100000000 }
    s.isDue .dealWatch = true) ∧ 2 ≤ dealing.fld R.DEAL.STATUS.STEP := by decide +kernel

/-- An identity page that meets R73, of serial 7. -/
def identity : List Byte :=
  let h := ascii "AQID" ++ beBytes 2 1 ++ beBytes 2 1 ++ beBytes 16 7 ++ beBytes 2 5 ++ beBytes 2 3000 ++ beBytes 4 600 ++ beBytes 4 0 ++
    List.replicate 216 0
  h ++ beBytes 4 (crc32c h) ++ List.replicate 3840 0
theorem witness_identity : identityOk identity = true ∧ serialOf identity = 7 ∧ dealing.deck.known = false ∧ dealing.deck.retry ≠ some 0 := by
  decide +kernel
theorem witness_page : identity.length = 4096 := by
  unfold identity
  have h : (ascii "AQID").length = 4 := by decide +kernel
  simp only [List.length_append, List.length_replicate, beBytes_length, h, Nat.reduceAdd]
/-- Some CRC is not that of the page, and a page read with it is read once more. -/
theorem witness_bad_crc : ∃ c : BitVec 32, c.toNat ≠ crc32c identity := by
  by_cases h : crc32c identity = 0
  · exact ⟨1, by rw [h]; decide⟩
  · exact ⟨0, fun e => h e.symm⟩
/-- A journal record waits for its page, or for the erase of the block first. -/
def record1 : JRec := { typ := 1, merged := 0, payload := [] }
def journaling (o : Option PortOp) : State :=
  let s := (having [(R.DEAL.DECK_STATE.DEALT, 1), (R.DEAL.DECK_STATE.PRESENT, 1), (R.DEAL.DECK_STATE.PWR_ON, 1), (R.DEAL.JOURNAL.BUDGET, 12)])
  let s1 := { s with sup := { s.sup with started := true } }
  { s1 with deck := { s1.deck with port := o, queue := [record1], known := true } }
theorem witness_deck_ends : (journaling (some (.programJournal 15 record1))).deck.port = some (.programJournal 15 record1) ∧
    (after (.deckProgramComplete false) (journaling (some (.programJournal 15 record1)))).deck.next = 16 ∧
    (after (.deckProgramComplete true) (journaling (some (.programJournal 15 record1)))).isSticky 301 = true ∧
    (after (.deckEraseComplete false) (journaling (some (.eraseJournal 16 record1)))).deck.port = some (.programJournal 16 record1) ∧ record1.typ ≠ 5 := by
  decide +kernel
theorem witness_append : (journaling none).mayAppend = true ∧ (journaling none).deck.queue = [record1] ∧
    (after .journalAppend (journaling none)).deck.port = some (.eraseJournal 0 record1) ∧
    (let s := (journaling none).arm .journal 0
     s.isDue .journal = true ∧ (after .journalBudgetTick s).fld R.DEAL.JOURNAL.BUDGET = 12) := by decide +kernel
theorem witness_removal : (journaling none).deal.running = false ∧ (after .deckRemoved (journaling none)).isSticky 300 = true ∧
    (let s := after .deckRemoved (journaling none)
     s.sup.started = true ∧ s.on R.DEAL.DECK_STATE.PWR_ON = false ∧ (after .deckPowerReturn s).dueAt .deckSettle = some 2500000) := by decide +kernel
theorem witness_overcurrent : (begun.setB R.DEAL.DECK_STATE.PWR_ON true).deal.running = true := by decide +kernel
/-- The Deck of serial 7 comes back, to a module that holds serial 7 and to one that holds 8. -/
def settled (n : Nat) : State := ((after .deckRemoved (journaling none)).arm .deckSettle 0).set (R.DEAL.DECK_SERIAL_k.SERIAL 3) n
theorem witness_return : (settled 7).isDue .deckSettle = true ∧ (settled 7).deck.known = true ∧ serialOf identity = (settled 7).deckSerial ∧
    serialOf identity ≠ (settled 8).deckSerial ∧ (after (.deckIdentityCheck (some identity)) (settled 7)).isPend 201 = true ∧
    (after (.deckIdentityCheck (some identity)) (settled 8)).isSticky 302 = true := by decide +kernel

/-- Forwarding since long with VERSION 3 accepted (O27). -/
def floorDue : State := (having [(R.DEAL.STATUS.FWD, 1), (R.DEAL.IMAGE_VER.VER, 3)]).arm .floorDelay 0
theorem witness_floor : floorDue.on R.DEAL.STATUS.FWD = true ∧ floorDue.isDue .floorDelay = true ∧ floorDue.deal.foldSince = false ∧
    floorDue.deal.maxVersion ≤ 3 ∧ floorDue.trust.otp.floor = 0 ∧ (after (.floorAdvanceTimed 3) floorDue).trust.otp.floor = 3 ∧
    (after (.floorAdvanceTimed 2) floorDue).trust.otp.floor = 2 := by decide +kernel
theorem witness_trust_timers : (let s := (((running 0).arm .challenge 0).arm .unlock 0).arm .backoff 0
    s.isDue .challenge = true ∧ s.isDue .unlock = true ∧ s.isDue .backoff = true ∧ (s.set R.SEC.STATUS.DEBUG 1).unlocked = true) := by decide +kernel

/-! ## Registers -/

/-- SEC.FLOOR's neighbours: a field of each access code (O28), and a field with -V that an owner thread writes. -/
theorem witness_registers : regAddr 0x10FFFFFC = true ∧ regAddr 0x10000000 = true ∧ regAddr 0x0FFFFFFC = false ∧ regAddr 0x11000000 = false ∧
    regAddr 0x10000002 = false := by decide +kernel
/-- The register at an address, with its fields. -/
def hitAt (s : State) (a : Nat) : List FldAt :=
  match s.regAcc a with
  | .reg _ h => h.fields
  | _ => []
/-- Registers with fields of each access code that a write reaches (O28): DEBUG.STICKY (W1C), BUF's scrub and ceiling, SEC.FLOOR, ... -/
theorem witness_register_write : (∀ a ∈ [0x1008003C, 0x100E00F0, 0x1002004C, 0x10020048], hitAt (running 0) a ≠ [] ∧
      ((hitAt (running 0) a).map fun f => f.fld.key).Nodup ∧ (hitAt (running 0) a).all (fun f => !f.vend) = true) ∧
    (hitAt (running 0) 0x10070004).all (fun f => f.vend) = true ∧ hitAt (running 0) 0x10070004 ≠ [] ∧ (running 4).writing 4 = [] ∧
    ((after (.registerWrite (.thread 4) 0x10070004 1) (running 4)).thr 4).trapCause = 3 := by decide +kernel
theorem test_w1c : (after (.registerWrite (.thread 4) 0x1008003C 1) ((running 0).set ⟨0x1008003C, 0, 1, 0, anyCode⟩ 1)).fld ⟨0x1008003C, 0, 1, 0, anyCode⟩ = 0 := by
  decide +kernel
/-- An address that holds no register, and a 64-bit counter: the frames transmitted by port 0 (O29). -/
def captured : State := dom 47 0 (dom 0 1 (running 0))
theorem witness_unmapped : captured.touch 0x10FFFFFC = captured ∧ (match captured.regAcc 0x10FFFFFC with | .unmapped => true | _ => false) = true ∧
    (after (.unmappedAccess (.thread 4) 0x10FFFFFC (some 1)) captured).fld R.TOP.UNMAPPED.COUNT = 1 := by decide +kernel
theorem witness_counter : (match captured.regAcc 0x10030100, captured.regAcc 0x10030104 with
    | .reg p h, .reg p' h' => captures p h && !h.high && captures p' h' && h'.high
    | _, _ => false) = true ∧ captured.touch 0x10030100 = captured ∧ captured.touch 0x10030104 = captured := by decide +kernel
/-- A port whose domain is OFF (O30). -/
theorem witness_off_domain : (match regPlace 0x10AF0000 with
    | some p => match p.dom with
      | some d => decide (d = 47 ∧ captured.domState 47 = 0)
      | none => false
    | none => false) = true ∧ (after (.offDomainAccess (.debug false) 0x10AF0000 none) captured).isSticky 36 = true ∧
    (captured.regRead (.thread 0) 0x10AF0000).2.1 = 0xDEAD0FF0 := by decide +kernel

/-- Table ports at their last rows (O31), and a locked admin list. -/
theorem witness_table_ports : (55 : Fin 57).val < 56 ∧ (running 0).on (R.TM.GATE_STATUS.PENDING 55) = false ∧
    (having [(R.TM.GATE_STATUS.PENDING 55, 1)]).on (R.TM.GATE_STATUS.PENDING 55) = true ∧
    (after (.tablePortWrite (.thread 0) 55 0 1023) (having [(R.TP.TP_DATA_w.DATA (tpBase 55) 1, 5)])).adminEntry 55 1023 = 5 ∧
    (after (.tablePortWrite (.thread 0) 55 0 1023) (having [(R.TM.GATE_STATUS.PENDING 55, 1)])).fld (R.TP.TP_STATUS.RESULT (tpBase 55)) = 4 ∧
    (after (.tablePortRead (.thread 0) 56 3 5) (running 0)).fld (R.TP.TP_STATUS.RESULT (tpBase 56)) = 0 ∧
    (after (.tablePortRead (.thread 0) 56 2 63) (running 0)).fld (R.TP.TP_STATUS.INDEX (tpBase 56)) = 63 := by decide +kernel
/-- The management buses (O32): idle, busy, and a frame and a transaction that end. -/
theorem witness_buses : (running 0).on (R.TOP.MDIO_STATUS_m.BUSY 1) = false ∧ (running 0).on (R.TOP.I2C_STATUS_i.BUSY 1) = false ∧
    (let s := after (.mdioC45Read (.thread 0) 1 31 31) (running 0)
     s.mdioNow 1 = some 0xF3FF0000 ∧ s.on (R.TOP.MDIO_STATUS_m.BUSY 1) = true ∧
       (after (.mdioFrameComplete 1 0x1234) s).fld (R.TOP.MDIO_STATUS_m.DATA 1) = 0x1234 ∧
       (after (.mdioC22Write (.thread 0) 1 0 0 0) s).on R.TOP.STICKY.MGMT_REFUSED = true) ∧
    (let s := after (.i2cRead (.thread 0) 1 4 0x50) (running 0)
     s.i2cNow 1 = some (0xA2500000, 0) ∧ s.on (R.TOP.I2C_STATUS_i.BUSY 1) = true ∧
       (after (.i2cComplete 1 0 0xAABBCCDD) s).i2cNow 1 = none ∧
       (after (.i2cStretchTimeout 1) s).i2cNow 1 = none) := by decide +kernel

/-! ## Ports and frames -/

/-- A forwarding module: the domains that the tests use are on, Fold left, ports 0 and 1 enabled and up. -/
def forwarding : State :=
  let doms := ([0, 1, 7, 47, 48, 49, 103, 111, 138, 141, 142, 149, 154].map fun d => R.POWER.DOM_STATE_k.STATE (d / 16) (d % 16)).filter fun f => decide (f.reset ≠ 1)
  let s : State := { State.reset with col := { Collector.init with windows := [], staticOut := false }, regs := doms.map fun f => (f.key, 1) }
  [(R.FAULT.STATE.FOLD, 0), (R.FAULT.STATE.BYP, 0), (R.DEAL.STATUS.FWD, 1), (R.PORT.CTRL.EN 0, 1), (R.PORT.STATUS.LINK 0, 1), (R.PORT.CTRL.EN 1, 1),
    (R.PORT.STATUS.LINK 1, 1), (R.LANE.CTRL.MODE 0, 1), (R.LANE.CTRL.MODE 1, 1)].foldl (fun s e => s.set e.1 e.2) s
/-- A frame of 64 bytes to address 2 from address 1, with its FCS. -/
def framed (n : Nat) : List Byte :=
  let b := beBytes 6 2 ++ beBytes 6 1 ++ beBytes 2 0x88B5 ++ List.replicate (n - 18) 0
  b ++ leBytes 4 (crc32 b)
def entered : State := after (.headEnterFifo 0 0 (framed 64)) forwarding
def staged1 : State := after (.pipelineTakeHead 0) entered
/-- The frame's decision is to forward it to port 1. -/
def steered : State :=
  match staged1.stage 0 with
  | e :: _ => staged1.setStage 0 [{ e with dec := { e.dec with fwd := 1, group := none, seat := staged1.ownSeat, port := 1, meter := none, mirror := 0, sf := none } }]
  | [] => staged1
def queued : State := after (.flowStageExit 0) steered
def ready1 : State := after (.tmSelect 1) queued
def sent : State := after (.frameTransmitStart 1 0 0 0) ready1
/-- The clauses of O34: a long head; a short frame at its smallest, good and bad; the end of a frame in reception. -/
theorem witness_received : forwarding.receives 0 = true ∧ forwarding.portLive 0 = true ∧ forwarding.secyOn 0 = false ∧ forwarding.rx 0 = none ∧
    (framed 64).length = 64 ∧ crc32 ((framed 64).take 60) = ofLe ((framed 64).drop 60) ∧ beAt (framed 64) 12 2 ≠ 0x8808 ∧ (forwarding.fifo 0).length < 48 ∧
    64 ≤ forwarding.eff (R.PORT.CFG.MAX_LEN 0) ∧ entered.fifo 0 = [0] ∧ entered.fld (R.PORT.RX_BYTES.COUNT 0) = 64 ∧
    crc32 ((List.replicate 64 (0 : Byte)).take 60) ≠ ofLe ((List.replicate 64 (0 : Byte)).drop 60) ∧
    (after (.headEnterFifo 0 0 (List.replicate 64 0)) forwarding).fld (R.PORT.RX_ERR_k.COUNT 0 0) = 1 := by decide +kernel
/-- A frame of 400 bytes whose first 389 have entered. -/
def receiving : State :=
  (entered.modFrame 0 fun f => { f with whole := false, len := none }).setRx 0 (some { bytes := (framed 400).take 389, frame := some 0, dead := false })
theorem witness_long_frame : (receiving.rx 0).map (·.frame) = some (some 0) ∧ (receiving.frame 0).isSome = true ∧ receiving.cutPort 0 = none ∧
    receiving.pipe.held = [] := by decide +kernel
theorem framed_fcs (n : Nat) (h : 18 ≤ n) : (framed n).length = n ∧ crc32 ((framed n).take (n - 4)) = ofLe ((framed n).drop (n - 4)) := by
  have hl : (beBytes 6 2 ++ beBytes 6 1 ++ beBytes 2 0x88B5 ++ List.replicate (n - 18) (0 : Byte)).length = n - 4 := by
    simp only [List.length_append, List.length_replicate, beBytes_length]; omega
  unfold framed
  refine ⟨by simp only [List.length_append, leBytes_length, hl]; omega, ?_⟩
  rw [List.take_left' hl, List.drop_left' hl, ofLe_leBytes, Nat.mod_eq_of_lt (crc32_lt _)]
theorem witness_long_fcs : (framed 400).length = 400 ∧ crc32 ((framed 400).take (400 - 4)) = ofLe ((framed 400).drop (400 - 4)) :=
  framed_fcs 400 (by decide)
theorem witness_ended : (let s := forwarding.setRx 0 (some { bytes := [1, 2], frame := none, dead := false })
    s.rx 0 = some { bytes := [1, 2], frame := none, dead := false } ∧ (after (.frameEndReceived 0 1 0 []) s).fld (R.PORT.RX_ERR_k.COUNT 0 7) = 1) := by
  decide +kernel
/-- The clauses of O35: a head to take, from a port and from a link with a shim, and one to leave the flow stage. -/
def shimmed : State :=
  let s := entered.modFrame 0 fun f => { f with shim := some (64 * 2 ^ 48 + 5 * 2 ^ 32), src := 48 }
  (s.setFifo 0 []).setFifo 48 [0]
theorem witness_take_head : entered.pickSrc 0 = some (0, 0) ∧ entered.fifo ((pipeSrcs 0).getD 0 0) = [0] ∧ (entered.frame 0).isSome = true ∧
    entered.on R.FAULT.STATE.FOLD = false ∧ (entered.frame 0).map (·.shim) = some none ∧ (staged1.stage 0).length = 1 ∧
    (entered.setB R.FAULT.STATE.FOLD true).on R.FAULT.STATE.FOLD = true := by decide +kernel
theorem witness_shim : (match shimmed.pickSrc 0 with
    | some c => decide (shimmed.fifo ((pipeSrcs 0).getD c.1 0) = [0])
    | none => false) = true ∧ shMarker (64 * 2 ^ 48 + 5 * 2 ^ 32) = false ∧ shFlood (64 * 2 ^ 48 + 5 * 2 ^ 32) = false ∧
    ((after (.pipelineTakeHead 0) shimmed).stage 0).map (·.dec.fwd) = [1] := by decide +kernel
/-- Whether every clause about a head that leaves meets its conditions. -/
def leaves (s : State) : Bool :=
  match s.exitHead (s.stage 0) [] with
  | some e => match s.frame e.frame with
    | some f => decide (f.doom = 0) && f.whole && !f.crcBad && e.dec.sf.isNone && decide (e.dec.mirror = 0) && e.dec.group.isNone &&
        decide (e.dec.seat = s.ownSeat) && decide (e.dec.port < 48) && decide (e.dec.port ≠ f.src) && e.dec.meter.isNone && !deferredFails f &&
        s.portTakes e.dec.port false && s.admits f f.cells.length &&
        (s.admitCopy e.dec.port (e.dec.q.getD f.tc) f.cells.length (e.dec.dp.getD f.dp)).isSome && e.dec.qFlow.isNone
    | none => false
  | none => false
theorem witness_leaves : leaves steered = true ∧ (steered.stage 0).map (·.dec.fwd) = [1] ∧ (queued.queue 1 0).length = 1 := by decide +kernel
def discarded1 : State :=
  match steered.stage 0 with
  | e :: _ => steered.setStage 0 [{ e with dec := { e.dec with fwd := 2, cause := 3 } }]
  | [] => steered
theorem witness_discards : leaves discarded1 = true ∧ (after (.flowStageExit 0) discarded1).frame 0 = none ∧
    (after (.flowStageExit 0) discarded1).fld (R.PORT.DISC_c.COUNT 0 3) = 1 := by decide +kernel

/-- The clauses of O36: a request for a new address, for a known one at another port, for a static one, and for a full set. -/
def learning (l : Learn) (s : State) : State := { s with pipe := { s.pipe with learn := [l] } }
def newcomer : Learn := { fid := 1, mac := 2, seat := 1023, port := 63 }
def known1 : State := after .macLearn (learning newcomer forwarding)
theorem witness_learn : forwarding.macFind 1 2 = none ∧ forwarding.macFree (macSet 1 2) = some (macSet 1 2 * 8) ∧
    known1.macFind 1 2 = some (macSet 1 2 * 8) ∧ bitOf (known1.row 1 (macSet 1 2 * 8)) 126 = false ∧
    (after .macLearn (learning { newcomer with port := 5 } known1)).fld R.TABLES.MAC_MOVES.COUNT = 1 := by decide +kernel
def staticRow : State := { forwarding with tabs := { forwarding.tabs with rows := [(2 ^ 32 + macSet 1 2 * 8, macRow true 1 2 0 0)] } }
theorem witness_static : staticRow.macFind 1 2 = some (macSet 1 2 * 8) ∧ bitOf (staticRow.row 1 (macSet 1 2 * 8)) 126 = true ∧
    (after .macLearn (learning newcomer staticRow)).tabs = staticRow.tabs := by decide +kernel
def fullSet : State :=
  { forwarding with tabs := { forwarding.tabs with rows := (List.range 8).map fun k => (2 ^ 32 + macSet 1 2 * 8 + k, macRow true 1 (100 + k) 0 0) } }
theorem witness_full : fullSet.macFind 1 2 = none ∧ fullSet.macFree (macSet 1 2) = none ∧
    (after .macLearn (learning newcomer fullSet)).isSticky 192 = true := by decide +kernel
theorem witness_ager : forwarding.eff R.TABLES.MAC_AGE.TIME ≠ 0 ∧ bitsOf ((after .macAgerPass known1).row 1 (macSet 1 2 * 8)) 45 3 = 1 := by decide +kernel
theorem witness_age_due : known1.agePassDue = true ∧ (after .macAgerPass known1).agePassDue = false := by decide +kernel

/-- The clauses of O37: a head that is eligible; a staged copy; one on the wire; a head for each exception; recirculation. -/
theorem witness_select : (queued.eport 1).ready.length < 2 ∧ queued.gated 1 = false ∧ (queued.settleP 1).eligible 1 0 = true ∧
    ((queued.settleP 1).headCopy 1 0).isSome = true ∧ queued.on R.FAULT.STATE.FOLD = false ∧ (ready1.eport 1).ready.length = 1 ∧
    (match (queued.settleP 1).headCopy 1 0 with
     | some c => !(queued.settleP 1).isStalePath c && !(queued.settleP 1).aged c ((queued.settleP 1).qAge 1 0 * 1000)
     | none => false) = true ∧ 0 < queued.weighted 1 ∧ (queued.eport 1).cur = 0 ∧
    (∀ q ∈ List.range 15, (queued.settleP 1).eligible 1 (q + 1) = false) ∧
    (match (queued.settleP 1).headCopy 1 0 with
     | some c => decide ((queued.settleP 1).chargeLen c ≤ ((queued.settleP 1).qst 1 0).deficit +
         (if ((queued.settleP 1).qst 1 0).topped then 0 else queued.weight 1 0 * queued.eff (R.TM.CTRL.QUANTUM 1)))
     | none => false) = true := by decide +kernel
theorem witness_transmit : (ready1.eport 1).wire = none ∧ ready1.fault 1 = 0 ∧ ready1.linkUp 1 = true ∧ ready1.secyOn 1 = false ∧
    (match ready1.firstStaged 1 with
     | some c => ready1.fitsGate 1 c.q (ready1.chargeLen c) && c.tpl.isNone && (ready1.portTpl c.port).isNone &&
       (match c.frame with
        | some i => match ready1.frame i with
          | some f => f.cells.all fun m => match ready1.cell m with
            | some x => !x.poison
            | none => true
          | none => false
        | none => false)
     | none => false) = true ∧ ((sent.eport 1).wire.map fun w => (w.bytes.length, w.cut)) = some (60, false) := by decide +kernel
theorem witness_lane_port : forwarding.lanePort 1 = 1 ∧ steered.pipe.held = [] ∧ (sent.eport 1).wire.map (·.stomp) = some false := by decide +kernel
theorem test_transmit_end : (after (.frameTransmitEnd 1) sent).fld (R.PORT.TX_BYTES.COUNT 1) = 64 := by decide +kernel
theorem witness_age : forwarding.linkState 7 ≠ 3 := by decide +kernel
/-- The frame in the recirculation queue, and in exception queue 15. -/
def moved (p q : Nat) : State :=
  match queued.queue 1 0 with
  | c :: _ => (queued.setQueue 1 0 []).setQueue p q [{ c with port := p, q := q }]
  | [] => queued
theorem witness_select_strict : (moved 1 15).weighted 1 ≤ 15 ∧ ((moved 1 15).settleP 1).eligible 1 15 = true ∧
    ((after (.tmSelect 1) (moved 1 15)).eport 1).ready.length = 1 := by decide +kernel
theorem witness_recirc : (moved 57 0).tm.recirc.get 0 0 ≤ (moved 57 0).time.elapsed ∧
    (match (moved 57 0).recircNext 0 with
     | some c => !(moved 57 0).aged c ((moved 57 0).qAge 57 c.q * 1000)
     | none => false) = true ∧ (after (.recircServe 0 0 0) (moved 57 0)).fld (R.TM.RECIRC_FRAMES_Pn.COUNT 0) = 1 := by decide +kernel
theorem witness_exception : ((moved 56 15).queue 56 15).length = 1 ∧ (moved 56 15).powered 149 = true ∧
    ((moved 56 15).takePools 64 none).find? ((moved 56 15).mayTake 0) = some 1 ∧ (moved 56 15).lowestFree 1 = some 0 ∧
    (after (.exceptionCopy 15 0 0) (moved 56 15)).holderOf 1 0 = some 0 := by decide +kernel
theorem witness_no_buffer : (let s := { forwarding with now := 500000, tm := { forwarding.tm with excWait := some 0 } }
    s.tm.excWait = some 0 ∧ 0 + msec 10 ≤ s.now ∧ (after .exceptionPathNoBuffer s).isSticky 266 = true) := by decide +kernel
/-- The clauses of O33: a fault on a link that is up; one that stands; the ends of the two holds; a drain; and a port that has drained. -/
def faulted : State := after (.linkFaultDetect 0 3) forwarding
def linkless : State := forwarding.set (R.PORT.STATUS.LINK 0) 0
theorem witness_fault : forwarding.portExists 0 = true ∧ forwarding.linkUp 0 = true ∧ faulted.fault 0 = 3 ∧ faulted.running (.holdDown 0) = true ∧
    linkless.linkUp 0 = false ∧ linkless.on (R.PORT.CTRL.EN 0) = true ∧ linkless.portQuiesce 0 = 0 ∧
    (after (.linkFaultClear 0) faulted).fault 0 = 0 ∧
    (let s := { faulted with now := 100000000 }
     s.isDue (.holdDown 0) = true ∧ s.fault 0 < 12 ∧ (after (.linkDownDeclare 0) s).linkUp 0 = false) := by decide +kernel
theorem witness_link_up : (let s := linkless.arm (.holdUp 0) 0
    s.isDue (.holdUp 0) = true ∧ s.fault 0 = 0 ∧ s.portLive 0 = true ∧ (after (.linkUpDeclare 0 0) s).linkUp 0 = true) := by decide +kernel
def disabled0 : State := after (.portDisable (.thread 4) 0) forwarding
theorem witness_port_switch : forwarding.powered 0 = true ∧ forwarding.on (R.PORT.CTRL.EN 0) = true ∧ disabled0.portQuiesce 0 = 1 ∧
    disabled0.on (R.PORT.CTRL.EN 0) = false ∧ (after (.portEnable (.thread 4) 0) disabled0).portQuiesce 0 = 2 ∧
    (after (.portQuiesced 0) disabled0).portQuiesce 0 = 0 ∧ (disabled0.eport 0).ready = [] ∧ (disabled0.eport 0).wire = none ∧
    (∀ q ∈ List.range 16, disabled0.queue 0 q = []) ∧ (after (.portEnable (.thread 4) 0) (after (.portQuiesced 0) disabled0)).on (R.PORT.STATUS.HOLDING 0) = true ∧
    (let s := { disabled0 with now := 100000000 }
     s.isDue (.portDrain 0) = true ∧ (after (.portDrainTimeout 0) s).isSticky 48 = true) := by decide +kernel
theorem witness_sa : (forwarding.secy 0).rx.length < 7 ∧ (after (.saInstall (.thread 0) 0 (.rx 9 1 [] [] 0 1)) forwarding).secy 0 ≠ SecY.init := by decide +kernel

/-- Thread 0 of a forwarding module sends 60 bytes at 0x200 to port 1. -/
def sending : State :=
  let s := { forwarding with svc := (running 0).svc }
  [10, 11, 12, 13].foldl (fun s k => s.set (R.POWER.DOM_STATE_k.STATE 9 k) 1) s
def toPort (p : Nat) : Word64 := BitVec.ofNat 64 (p * 2 ^ 32 + 3 * 2 ^ 28)
def sendWord (a flags : Nat) : Word64 := BitVec.ofNat 64 (a * 2 ^ 24 + 60 * 2 ^ 10 + flags)
theorem witness_inject : sending.Issues 0 ∧ sending.Settled ∧ sending.PortFree 0 105 ∧ sending.sendBad 0 (sendWord 0x200 0) (toPort 1) = false ∧
    sending.CleanAt 0x200 60 ∧ sending.on R.FAULT.STATE.FOLD = false := by
  unfold State.Settled State.Issues State.CleanAt State.PortFree; decide +kernel
theorem witness_admitted : (let y := sending.usedFree.newFrame { sending.sentFrame 3 with len := some 64 }
    let v := y.1.append y.2 (sending.bytesAt 0x200 60)
    (match v.frame y.2 with
     | some f => !f.crcBad && v.admits f f.cells.length && (match v.sentCopy y.2 f (sendWord 0x200 0) (toPort 1) with
       | some c => decide (c.port = 1 ∧ c.q = 3) && v.portTakes c.port c.uncontrolled && (v.admitCopy c.port 3 f.cells.length 0).isSome
       | none => false) && (match v.sentCopy y.2 f (sendWord 0x200 0) (toPort 2) with
       | some c => !v.portTakes c.port c.uncontrolled
       | none => false)
     | none => false) = true) ∧
    ((after (.sendRequest 0 (sendWord 0x200 0) (toPort 1) 0) sending).queue 1 3).length = 1 ∧
    (after (.sendRequest 0 (sendWord 0x200 0) (toPort 1) 0) sending).fld R.SVC.INJECTED.COUNT = 1 := by decide +kernel
theorem witness_send_free : (sendWord 0 512).getLsbD 9 = true ∧ taken.pools.waiting = [] ∧ taken.bufStart 0 = some (1, 0) ∧
    taken.sendBad 0 (sendWord 0 512) 0 = false ∧ (after (.sendRequest 0 (sendWord 0 512) 0 0) taken).holderOf 1 0 = none ∧
    (running 0).sendBad 0 0 0 = true ∧ ((after (.sendRequest 0 0 0 0) (running 0)).thr 0).trapCause = 8 := by decide +kernel

/-! ## Gates, streams, banks and cadence -/

/-- A legal list of one entry of 1 ms at port 55 (O38): not oper, pending at its time, oper, and waiting to restart. -/
def gated (ch re : Option Nat) (op : Bool) : State :=
  let s := [(R.TM.ADMIN_SEC_HI.COUNT 55, 1), (R.TM.ADMIN_CYCLE.CYCLE 55, 1000000)].foldl (fun s e => s.set e.1 e.2) forwarding
  let s1 := s.setEport 55 { EPort.init with change := ch, restart := re, oper := op }
  { s1 with tm := { s1.tm with admin := [(55 * 1024, 1000000)] } }
theorem witness_gates : (gated none none true).adminOk 55 = true ∧ ((gated none none true).eport 55).oper = true ∧
    ((gated none none true).eport 55).restart = none ∧ ((gated none none false).eport 55).oper = false ∧
    ((gated (some 0) none false).eport 55).change = some 0 ∧ (gated (some 0) none false).gateNs = 0 ∧ (gated (some 0) none false).adminCount 55 ≤ 1024 ∧
    ((after (.gateListSwap 55) (gated (some 0) none false)).eport 55).oper = true ∧
    (after (.gateListSwap 55) (gated (some 0) none false)).operEntry 55 0 = 1000000 ∧
    ((gated (some 1) (some 0) true).eport 55).restart = some 0 ∧ ((after (.gateRestart 55) (gated (some 1) (some 0) true)).eport 55).restart = none := by
  decide +kernel
theorem witness_gate_commands : (gated none none false).on (R.TM.GATE_STATUS.PENDING 55) = false ∧ forwarding.adminOk 55 = false ∧
    ((after (.gateArm (.thread 4) 55) (gated none none false)).eport 55).change = some 1000000 ∧
    (after (.gateArm (.thread 4) 55) (gated none none false)).on (R.TM.GATE_STATUS.PENDING 55) = true ∧
    (after (.gateArm (.thread 4) 55) forwarding).on (R.TM.STICKY.LIST_ERROR 55) = true ∧
    ((after (.gateCancel (.thread 4) 55) (gated (some 5) none false)).eport 55).change = none := by decide +kernel
/-- A stream-gate list of one entry of 8 ns, running and waiting to restart (O39). -/
def streamed (r : Option Nat) : State :=
  { forwarding with tabs := { forwarding.tabs with rows := [(0x31 * 2 ^ 32 + 64 * 255, 2 ^ 63 + 2 ^ 62 + 2 ^ 24)] },
                    pipe := { forwarding.pipe with sg := [(255, { SgSt.init with restart := r })] } }
theorem witness_stream : (streamed none).sgCount 255 = 1 ∧ ((streamed none).sg 255).restart = none ∧ ((streamed (some 0)).sg 255).restart = some 0 ∧
    ((after (.streamGateEntry 255) (streamed (some 0))).sg 255).restart = none := by decide +kernel
theorem witness_frer_timeout : (let s : State := { forwarding with time := { forwarding.time with elapsed := 2 ^ 60 }, now := 10 ^ 12 }
    s.eff R.EDIT.FRER_CFG.RESET_MS * 1000000 ≤ s.mono - (s.frer 4095).lastPass) := by decide +kernel

/-- The clauses of O40: bank 3 in service beside the spare, waiting, draining and in test; and the whole buffer. -/
def testing (b x : Nat) (t : Option Nat) : State :=
  let s := (forwarding.setBank b x).set R.BUF.TEST_STATUS.CURRENT b
  { s with buf := { s.buf with drainAt := t } }
theorem witness_bank_request : forwarding.bankCurrent = 31 ∧ 1 ∉ forwarding.col.windows ∧ forwarding.buf.tests = [] ∧ forwarding.spareBank = 16 ∧
    forwarding.bankState 3 ≤ 1 ∧ forwarding.bankState 16 = 4 ∧ (forwarding.set R.BUF.SPARE.BANK 31).spareBank = 31 := by decide +kernel
theorem test_bank_drains : (after (.bankTestRequest (.thread 0) 3) forwarding).bankState 3 = 2 := by decide +kernel
theorem test_spare_tested : (after (.bankTestRequest (.thread 0) 16) (forwarding.set R.BUF.SPARE.BANK 31)).bankState 16 = 3 := by decide +kernel
theorem witness_bank_queue : (testing 3 2 (some 0)).bankCurrent = 3 ∧ (testing 3 2 (some 0)).buf.tests.length < 4 ∧ (testing 3 2 (some 0)).bankState 5 ≠ 5 ∧
    (after (.bankTestRequest (.thread 0) 5) (testing 3 2 (some 0))).buf.tests = [5] ∧
    (let s := { testing 3 2 (some 0) with buf := { forwarding.buf with tests := [1, 2, 4, 6] } }
     s.buf.tests.length = 4 ∧ 5 ∉ s.buf.tests ∧ (after (.bankTestRequest (.thread 0) 5) s).fld R.BUF.TEST_STATUS.RESULT = 4) ∧
    (after (.bankTestRequest (.thread 0) 30) forwarding).fld R.BUF.TEST_STATUS.RESULT = 5 ∧ (forwarding.setBank 3 5).bankState 3 = 5 := by decide +kernel
theorem witness_whole : folded.on R.FAULT.STATE.FOLD = true ∧ folded.bankCurrent = 31 ∧ 1 ∉ folded.col.windows ∧ folded.buf.tests = [] ∧
    forwarding.on R.FAULT.STATE.FOLD = false ∧ forwarding.maintenance = false ∧
    (after (.wholeBufferTest (.thread 0)) forwarding).fld R.BUF.TEST_STATUS.RESULT = 3 ∧
    (let s := { folded with col := { folded.col with windows := [1] } }
     1 ∈ s.col.windows ∧ s.buf.tests = []) := by decide +kernel
def rotating : State := forwarding.set R.BUF.ROT_CFG.PERIOD 1
theorem witness_rotation : rotating.eff R.BUF.ROT_CFG.PERIOD ≠ 0 ∧ rotating.bankState rotating.spareBank = 4 ∧
    (((List.range 17).map fun j => (rotating.buf.lastRot + 1 + j) % 17).find? rotating.inService).isSome = true ∧
    (after .bankRotationTimer rotating).spareBank = 31 := by decide +kernel
theorem witness_drain : (testing 3 2 (some 0)).bankState 3 = 2 ∧ (∀ e ∈ (testing 3 2 (some 0)).buf.cells, e.1 / 8192 ≠ 3) ∧
    (after .bankDrainComplete (testing 3 2 (some 0))).bankState 3 = 3 ∧ (testing 3 3 none).bankState 3 = 3 ∧ (testing 3 3 none).buf.tests = [] ∧
    1 ∉ (testing 3 3 none).col.windows ∧ (after (.marchTestComplete true) (testing 3 3 none)).bankCurrent = 31 ∧
    (after (.marchTestComplete false) (testing 3 3 none)).isSticky 177 = true ∧
    0 + msec ((testing 3 2 (some 0)).eff R.BUF.ROT_CFG.DRAIN_TO) ≤ ({ testing 3 2 (some 0) with now := 10 ^ 12 } : State).now := by decide +kernel
theorem witness_drain_late : (let s := ({ queued with buf := { queued.buf with drainAt := some 0 }, now := 10 ^ 12 }.setBank 0 2).set R.BUF.TEST_STATUS.CURRENT 0
    (s.buf.cells.any fun e => decide (e.1 / 8192 = 0)) = true ∧ s.bankCurrent = 0 ∧ s.bankState 0 = 2 ∧ s.buf.drainAt = some 0) := by decide +kernel

/-- A completion behind a readable one; a sized bank and one without size; a bank that has drained too long (O41). -/
def twoDone : State :=
  { forwarding with tabs := { forwarding.tabs with uports := [(7, { cmds := [], comps := [⟨[1], true, 0⟩, ⟨[2], false, 0⟩] })] } }
theorem witness_completions : (twoDone.uport 7).comps = [⟨[1], true, 0⟩] ++ ⟨[2], false, 0⟩ :: [] ∧
    ((after (.uportCompletionReady 7) twoDone).uport 7).comps = [⟨[1], true, 0⟩, ⟨[2], true, 0⟩] ∧ tabled.ruleSize 0 ≠ 0 ∧ tabled.bankOff 0 = false ∧
    tabled.ruleSize 1 = 0 ∧ (after (.rulesetActiveWrite (.thread 0) 1) tabled).on R.TABLES.STICKY.SWAP_REFUSED = true ∧
    (after (.rulesetActiveWrite (.thread 0) 0) tabled).isPend 121 = true := by decide +kernel
theorem witness_markers : twoDone.markersPassed 0 = true ∧ staged1.markersPassed (staged1.tabs.nWrites + 1) = false := by decide +kernel
theorem witness_drain_limit : (let s0 := forwarding.set (R.TABLES.RULESET_STATUS.STATE 3) 2
    let s := { s0 with tabs := { s0.tabs with drainAt := [(3, 1)] }, now := 10 ^ 12 }
    s.ruleBank 3 = 2 ∧ s.tabs.drainAt.get 0 3 = 0 + 1 ∧ 0 + usec (s.eff R.TABLES.DRAIN_LIMIT.LIMIT) < s.now ∧
      (after (.bankDrainLimit 3) s).isSticky 193 = true) := by decide +kernel

/-- The clauses of O42. -/
def governed : State := [(R.CADENCE.CTRL.GOV_EN, 1), (R.CADENCE.CTRL.FIXED, 0)].foldl (fun s e => s.set e.1 e.2) forwarding
theorem witness_governor : governed.on R.CADENCE.CTRL.FIXED = false ∧ governed.on R.CADENCE.CTRL.GOV_EN = true ∧ governed.on R.DEAL.STATUS.FWD = true ∧
    governed.on R.CADENCE.STATUS.BOOST = false ∧ 1240 ≤ governed.cad.v ∧ governed.cad.v ≤ 2 * governed.fld R.CADENCE.VCORE.CEILING ∧
    (governed.setB R.CADENCE.CTRL.FIXED true).on R.CADENCE.CTRL.FIXED = true ∧
    (after .governorLoop ((governed.setB R.CADENCE.CTRL.FIXED true).set R.CADENCE.VSET.VSET 0)).cad.v = 1240 ∧
    (after .governorLoop (governed.setB R.CADENCE.STATUS.BOOST true)).cad.v = 1700 := by decide +kernel
theorem test_metronomes : (after (.metronomeUpdate [700, 701, 702, 703, 1, 2, 3, 4, 9, 9, 9, 9, 2000, 2000, 2000, 2000] [1, 2, 3, 300]) governed).fld
    (R.CADENCE.LIVE_Pn.CAPACITY 3) = 1023 := by decide +kernel
theorem witness_ceiling : (let s := [(R.POWER.VIN.MV, 10499), (R.POWER.PIN.CW, 4001)].foldl (fun s e => s.set e.1 e.2) begun
    s.fld R.POWER.VIN.MV < 10500 ∧ s.sup.vinPresent = true ∧ 4000 < s.fld R.POWER.PIN.CW ∧ (after .ceilingAdjust s).cad.powDrop = 5 ∧
      (after .ceilingAdjust (s.set R.POWER.PIN.CW 3800)).cad.powDrop = 0) := by decide +kernel
theorem witness_boost_and_spread : (let s := (governed.setB R.CADENCE.STATUS.BOOST true).arm .boost 0
    s.on R.CADENCE.STATUS.BOOST = true ∧ s.isDue .boost = true ∧ (after .boostEnd s).on R.CADENCE.STATUS.BOOST = false) ∧
    (let s := { governed with cad := { governed.cad with spreadAt := [(2, some 0)] }, now := 50000 }
     s.cad.spreadAt.get none 2 = some 0 ∧ 0 + msec 1 ≤ s.now ∧ (after .metroSpreadFault s).isSticky 34 = true) := by decide +kernel
theorem witness_boost : (let s := (governed.setB R.CADENCE.STATUS.BOOST true).arm .boost 0
    s.fifosFull = false ∧ (let v := { s with pipe := { s.pipe with fifo := [(0, List.range 40)] } }
     v.fifosFull = true ∧ (after .boostEnd v).on R.CADENCE.STATUS.BOOST = true)) := by decide +kernel
theorem test_vcore_low : (after (.vcoreRangeFault 600) forwarding).isPresent 35 = false ∧ (after (.vcoreRangeFault 870) forwarding).isPresent 35 = false := by
  decide +kernel

/-- The clauses of O43: requests, refreshes with and without panic, the bands, and the patrol scrub, at the last block too. -/
def panicking (n : Nat) : State := (forwarding.set (R.DRAM.STATUS.POSTPONED 7) n)
theorem witness_dram : dramBase ≤ 0x1000000040 ∧ 0x1000000040 < forwarding.dramEnd ∧
    (after (.dramRequestComplete 5 0x1000000040 1) forwarding).dram.soft = [0x40000001] ∧
    (after (.dramRequestComplete 5 0x1000000040 3) forwarding).dram.hard = [0x40000001] ∧ forwarding.anyPanic = false ∧
    (let s := { forwarding with dram := { forwarding.dram with want := [(7, 5)] } }
     s.dram.want.get 0 7 = 4 + 1 ∧ (after (.refreshDue 7 true) s).fld (R.DRAM.STATUS.BAND 7) = 4 ∧
       (after (.refreshDue 7 false) s).isSticky 234 = true) := by decide +kernel
theorem witness_panic : (let s := (forwarding.set R.DRAM.PANIC_STATUS.PORTS 1).set (R.DRAM.STATUS.POSTPONED 7) 7
    s.anyPanic = true ∧ s.fld (R.DRAM.STATUS.POSTPONED 7) < 8 ∧ (after (.refreshDue 7 true) s).fld (R.DRAM.STATUS.POSTPONED 7) = 8) ∧
    (let s := (forwarding.set R.DRAM.PANIC_STATUS.PORTS 1).set (R.DRAM.STATUS.POSTPONED 7) 8
     8 ≤ s.fld (R.DRAM.STATUS.POSTPONED 7) ∧ (after (.refreshDue 7 true) s).isSticky 233 = true) := by decide +kernel
theorem witness_scrub : forwarding.eff R.DRAM.SCRUB.HOURS ≠ 0 ∧ forwarding.dram.scrubAt + 1 < forwarding.dramBlocks ∧
    dramBase / 64 ∉ forwarding.dram.hard ∧ dramBase / 64 ∉ forwarding.dram.soft ∧ (after (.scrubBlock 0) forwarding).dram.scrubAt = 1 ∧
    (let s := { forwarding with dram := { forwarding.dram with scrubAt := forwarding.dramBlocks - 1 } }
     s.dramBlocks ≤ s.dram.scrubAt + 1 ∧ (after (.scrubBlock 0) s).isPend 195 = true) := by decide +kernel
theorem test_zq : (after (.zqCalibration 7 true) forwarding).on (R.DRAM.STATUS.PHY_OK 7) = true := by decide +kernel
theorem test_ce_rate : (after .ceRateCheck (forwarding.set (R.DRAM.CE_COUNT.COUNT 7) 0xFFFFFFFF)).isSticky 237 = true := by decide +kernel

/-! ## The flow engine -/

/-- A key of profile 0; it lies in slice 1. -/
def key1 : List Byte := keyArea 0 [1, 2, 3, 4]
/-- Profile 0 inserts (mode 1), exports and holds a record for `idle` seconds; slice 1 may take records 0x1000005 and 0x1000006. -/
def flowing (idle : Nat) : State :=
  let s := { forwarding with tabs := { forwarding.tabs with rows := [(0x60 * 2 ^ 32, 2 ^ 511 + 2 ^ 505 + 2 ^ 494 + idle * 2 ^ 478)] } }
  s.modSlice 1 fun x => { x with free := [0x1000005, 0x1000006] }
/-- The head of frame 0 looks up `key1`, as `l` says. -/
def looking (l : Look) : State :=
  match staged1.stage 0 with
  | e :: _ => { (flowing 10).setStage 0 [{ e with look := l, prof := 0, key := key1, nHit := 1 }] with buf := staged1.buf }
  | [] => staged1
def learned : State := after (.flowDramReadComplete 0) (looking (.reading false false))
/-- The record stands in the stash of slice 1, and then in its bucket. -/
def stashed : State := ((flowing 0).create 1 key1 [] 0 false).1
def placed : State := after (.flowPlace 1) stashed
/-- The clauses of O44: a miss that inserts, a moved lookup, a hit, a profile that does not insert, a retry and a deadline. -/
theorem witness_lookup : ((looking (.reading false false)).headOf 0).map (·.look) = some (.reading false false) ∧ sliceOf key1 = 1 ∧
    (∀ y ∈ (looking (.reading false false)).pipe.stage.flatMap (·.2), y.look ≠ .merged 0) ∧
    (looking (.reading false false)).bit R.FLOW.CTRL.SLICE_EN 1 = true ∧
    (((looking (.reading false false)).rtDone 1 2).findKey key1 0).2 = none ∧ ((looking (.reading false false)).frame 0).isSome = true ∧
    bitsOf ((looking .retry).prof 0) 505 2 = 1 ∧ profKind ((looking .retry).prof 0) = 0 ∧ (looking .retry).poisoned (bucketA key1) = false ∧
    (looking .retry).poisoned (bucketB key1) = false ∧ (looking .retry).hasRoom 1 = true ∧ (looking .retry).deferring 1 = false := by
  decide +kernel
theorem test_insert : (learned.headOf 0).map (·.look) = some (.ended 2) ∧ (learned.slc 1).free = [0x1000006] ∧
    (learned.record 0x1000005).take 48 = key1 := by decide +kernel
theorem witness_hit : (let s := { looking (.reading true false) with flow := stashed.flow }
    ((s.rtDone 1 2).findKey key1 0).2 = some (1, 0x1000005)) := by decide +kernel
theorem witness_no_insert : (let s := { looking (.reading false false) with tabs := forwarding.tabs }
    bitsOf (s.prof 0) 505 2 = 0 ∧ ((s.rtDone 1 2).findKey key1 0).2 = none) := by decide +kernel
theorem witness_retry : ((looking .retry).headOf 0).map (·.look) = some .retry ∧
    ((after (.flowLookupRetry 0) (looking .retry)).headOf 0).map (·.look) = some (.reading false true) := by decide +kernel
theorem witness_deadline : (let s := { looking .retry with now := 10000 }
    (match s.headOf 0 with
     | some e => decide (e.since + usec (s.eff R.FLOW.CFG.DEADLINE) ≤ s.now ∧ (looking .retry).now < e.since + usec (s.eff R.FLOW.CFG.DEADLINE))
     | none => false) = true ∧ ((after (.flowDeadline 0) s).headOf 0).map (·.look) = some (.ended 7)) := by decide +kernel
theorem test_peek : stashed.fld R.FLOW.PEEK_INDEX.INDEX < 4 * stashed.perSlice ∧
    ((after (.flowPeekRead (.thread 0)) (stashed.set R.FLOW.PEEK_INDEX.INDEX 0x1000005)).flow.peek).take 48 = key1 := by decide +kernel
/-- Slice 3 in panic with N as given, and long out of it. -/
def sampling (panic : Bool) (n : Nat) : State :=
  let s := (forwarding.setBit R.FLOW.STATUS.PANIC 3 panic).set (R.FLOW.SAMPLE_STATE.LOG2N 3) n
  { s with time := { s.time with elapsed := 2 ^ 60 } }.modSlice 3 fun x => { x with panicAt := some 0 }
theorem witness_sampling : (sampling true 0).bit R.FLOW.STATUS.PANIC 3 = true ∧ (sampling true 0).nOf 3 < (sampling true 0).eff R.FLOW.SAMPLE_CFG.N_MAX ∧
    ((sampling true 0).slc 3).nAt + 1000 * (sampling true 0).eff R.FLOW.SAMPLE_CFG.STEP ≤ (sampling true 0).mono ∧
    (after (.sampleStepTimer 3) (sampling true 0)).fld (R.FLOW.SAMPLE_STATE.LOG2N 3) = 1 ∧
    (sampling false 1).bit R.FLOW.STATUS.PANIC 3 = false ∧ 1 < (sampling false 1).nOf 3 ∧
    max ((sampling false 1).slc 3).calmAt ((sampling false 1).slc 3).nAt + 1000 * (sampling false 1).eff R.FLOW.SAMPLE_CFG.RELAX ≤
      (sampling false 1).mono ∧ (after (.sampleRelaxTimer 3) (sampling false 1)).fld (R.FLOW.SAMPLE_STATE.LOG2N 3) = 0 := by decide +kernel
theorem witness_defer : (sampling true 6).nOf 3 = (sampling true 6).eff R.FLOW.SAMPLE_CFG.N_MAX ∧ ((sampling true 6).slc 3).panicAt = some 0 ∧
    0 + 1000 * (sampling true 6).eff R.FLOW.DEFER_CFG.DEFER_AFTER ≤ (sampling true 6).mono ∧ (sampling true 6).deferring 3 = false ∧
    (after (.insertDeferStart 3) (sampling true 6)).deferring 3 = true := by decide +kernel

/-- A twin of the record waits; and then its slice has no room, or no free index (O45). -/
def twinned (q : List Nat) : State :=
  { learned with flow := { learned.flow with twins := [{ fwd := 0x1000005, key := key1.reverse, addr := 0, port := 0, pool := 0 }] } }.modSlice 2 fun x =>
    { x with free := q }
theorem witness_twin : sliceOf key1.reverse = 2 ∧ (twinned [0x2000000]).poisoned (bucketA key1.reverse) = false ∧
    (twinned [0x2000000]).keyPresent key1.reverse (beAt key1.reverse 0 1) = false ∧ (twinned []).flow.twins.length = 1 ∧
    (after .twinInsert (twinned [0x2000000])).fld (R.FLOW.SLICE_s_RECORDS.COUNT 2) = 1 ∧ (after .twinInsert (twinned [0x2000000])).flow.twins = [] := by
  decide +kernel
theorem witness_twin_lost : (let s := (twinned []).setBit R.FLOW.CTRL.SLICE_EN 2 false
    s.bit R.FLOW.CTRL.SLICE_EN 2 = false ∧ (after .twinInsert s).fld R.FLOW.TWIN_LOST.COUNT = 1 ∧ (after .twinInsert s).inUse 0x1000005 = false) := by
  decide +kernel
theorem witness_place : (stashed.slc 1).stash.length = 1 ∧ (stashed.slc 1).stuck = false ∧ stashed.freeSlot (bucketA key1) = some 0 ∧
    slotRec (placed.slot (bucketA key1) 0) = 0x1000005 ∧ (placed.slc 1).stash = [] := by decide +kernel
/-- Both buckets of the stash's entry are full, of slots that lead nowhere. -/
def crowded (ks : List Nat) : State :=
  ks.foldl (fun s b => (List.range 4).foldl (fun s k => s.setSlot b k (mkSlot 1 2 b 0)) s) stashed
theorem witness_other_bucket : (crowded [bucketA key1]).freeSlot (bucketA key1) = none ∧ (crowded [bucketA key1]).freeSlot (bucketB key1) = some 0 := by
  decide +kernel
theorem witness_sound : (∀ b ∈ [bucketA key1, bucketB key1], ∀ s ∈ [stashed, crowded [bucketA key1]],
    s.poisoned b = false ∧ s.badBucket b = false ∧ b ∉ s.retryBuckets) := by decide +kernel
theorem witness_no_chain : (let s := crowded [bucketA key1, bucketB key1]
    (s.chain (s.eff R.FLOW.CFG.RELOC_DEPTH) [bucketA key1] (bucketA key1)).2 = none ∧
      (s.chain (s.eff R.FLOW.CFG.RELOC_DEPTH) [bucketB key1] (bucketB key1)).2 = none) := by decide +kernel
theorem test_refill : (((forwarding.refill 3 3 0x3000000).slc 3).free) = [0x3000000, 0x3000001, 0x3000002] := by decide +kernel
theorem witness_write_back : (match stashed.flow.cache.get none (1 * 32768 + setOf key1 * 8) with
    | some c => decide (c.index = 0x1000005 ∧ c.dirty = true)
    | none => false) = true ∧ setOf key1 = 1619 ∧
    (after (.flowCacheWriteback 1 1619 0) stashed).bytesAt (recordAddr 0x1000005) 48 = key1 := by decide +kernel
/-- The sweeper of slice 1 comes to the bucket of the record, whose idle time is over, or flushes it. -/
def sweeping (f : Option (Nat × Nat)) : State :=
  (placed.setInUse 0x1000005 true).modSlice 1 fun x => { x with sweep := bucketA key1 % 2 ^ 23, flush := f }
theorem witness_sweep : (sweeping none).bit R.FLOW.STATUS.PANIC 1 = false ∧ (sweeping none).on R.FLOW.CTRL.SWEEP_EN = true ∧
    1 * 2 ^ 23 + ((sweeping none).slc 1).sweep = bucketA key1 ∧ (sweeping none).poisoned (bucketA key1) = false ∧ (sweeping none).dram.hard = [] ∧
    slotState ((sweeping none).slot (bucketA key1) 0) = 1 ∧ (∀ k ∈ [1, 2, 3], slotState ((sweeping none).slot (bucketA key1) k) = 0) ∧
    (sweeping none).expiryDue 0x1000005 = 1 ∧ ((after (.sweeperVisit 1 false) (sweeping none)).slc 1).expiries.map (·.index) = [0x1000005] := by
  decide +kernel
theorem witness_pass : (sweeping none).passOn 1 = true ∧ (let s := forwarding.modSlice 1 fun x => { x with passAt := some 0 }
    s.passOn 1 = false ∧ s.on R.FLOW.CTRL.SWEEP_EN = true ∧ ((after (.sweeperVisit 1 false) s).slc 1).sweep = 0) := by decide +kernel
theorem witness_flush : (let s := sweeping (some (bucketA key1 % 2 ^ 23, 1))
    (s.slc 1).flush = some (bucketA key1 % 2 ^ 23, 1) ∧ bucketA key1 % 2 ^ 23 + 1 < 2 ^ 23 ∧
      ((after (.sweeperVisit 1 true) s).slc 1).expiries.map (·.forced) = [true]) ∧
    ((after (.sweeperVisit 1 true) (sweeping (some (2 ^ 23 - 1, 0)))).slc 1).flush = none := by decide +kernel
/-- The expiry of the record waits for its turn: idle, forced, and from a slice that is disabled. -/
def expiring (reason : Nat) (forced : Bool) : State :=
  (sweeping none).modSlice 1 fun x => { x with expiries := [{ index := 0x1000005, reason := reason, forced := forced }] }
theorem witness_expiry : ((expiring 3 true).slc ((expiring 3 true).sliceOfRec 0x1000005)).expiries.length = 1 ∧ (expiring 3 true).inTable 0x1000005 = true ∧
    0x1000005 < 4 * (expiring 3 true).perSlice ∧ profExport ((expiring 3 true).recProf 0x1000005) = true ∧
    (expiring 3 true).on R.FLOW.CTRL.EXPORT_EN = true ∧ (expiring 3 true).openExport.isSome = true ∧
    (after (.flowExpiry 0x1000005) (expiring 3 true)).flow.batch = 1 ∧ (after (.flowExpiry 0x1000005) (expiring 3 true)).inUse 0x1000005 = false ∧
    (after (.flowExpiry 0x1000005) (expiring 5 true)).flow.batch = 0 ∧ (forwarding.slc (forwarding.sliceOfRec 5)).expiries = [] := by decide +kernel
theorem witness_no_export : (let s := { expiring 3 true with flow := { (expiring 3 true).flow with batch := 64, exportWait := some 5 }, svc := { (expiring 3 true).svc with openBatch := some 0 } }
    s.openExport = none ∧ (after (.flowExpiry 0x1000005) s).flow.exportWait = some 5 ∧ (after (.flowExpiry 0x1000005) s).inUse 0x1000005 = true) := by decide +kernel

/-- A batch of one record is open and due (O46). -/
def batched : State :=
  let s := after (.flowExpiry 0x1000005) (expiring 3 true)
  { s with flow := { s.flow with batchDue := true } }
theorem witness_batch : batched.svc.openBatch.isSome = true ∧ batched.flow.batch = 1 ∧ batched.hwRoom (batched.eff R.FLOW.EXPORT.CHANNEL) 2 = true ∧
    (after .exportBatchSend batched).flow.batch = 0 ∧ (after .exportBatchSend batched).svc.openBatch = none ∧ forwarding.svc.openBatch = none ∧
    forwarding.flow.exportWait = none := by decide +kernel
theorem witness_no_room : (let ch := batched.eff R.FLOW.EXPORT.CHANNEL
    let s := batched.setChan ch { Chan.init with msgs := [{ words := List.replicate 15 0, hw := true }] }
    s.hwRoom ch 2 = false) := by decide +kernel
theorem witness_stall : (let s := { forwarding with now := 10 ^ 9, flow := { forwarding.flow with exportWait := some 0 } }
    0 + msec (s.eff R.FLOW.EXPORT_STALL.TIME) < s.now ∧ (after .exportStall s).isSticky 205 = true) := by decide +kernel
theorem test_kill : ((after (.flowKill (.thread 4) 0x1000005) (sweeping none)).slc 1).expiries.map (·.reason) = [3] ∧ forwarding.inTable 5 = false := by
  decide +kernel
theorem witness_half : stashed.bit R.FLOW.CTRL.CACHE_EN 0 = true ∧
    (after (.flowCacheHalfDisable (.thread 4) 0) stashed).bytesAt (recordAddr 0x1000005) 48 = key1 := by decide +kernel
theorem witness_slice_off : forwarding.bit R.FLOW.CTRL.SLICE_EN 1 = true ∧ forwarding.bit R.FLOW.STATUS.SLICE_QUIESCED 1 = false ∧
    forwarding.inFlight 1 = [] ∧ (looking .retry).inFlight 1 ≠ [] ∧
    (let s := after (.flowSliceDisable (.thread 4) 1) (sweeping none)
     s.bit R.FLOW.STATUS.SLICE_QUIESCED 1 = true ∧ s.inUse 0x1000005 = false ∧
       ((after (.flowSliceEnable (.thread 4) 1) s).slc 1).rebuilding = true ∧
       (after (.flowSliceRebuildDone 1) (after (.flowSliceEnable (.thread 4) 1) s)).bit R.FLOW.STATUS.SLICE_QUIESCED 1 = false) := by decide +kernel

/-! ## Nelyan links -/

/-- Keys of link 7. -/
def key36 : List Byte := List.replicate 36 1
/-- Link 7 in state `st`, with number 5 next in each direction. -/
def linked (st : Nat) (f : Link → Link) : State :=
  (((forwarding.set (R.NLINK.STATE.STATE 7) st).setB (R.NLINK.CTRL.EN 7) true).setB (R.LANE.STATUS.LOCK 55) true).setLink 7
    (f { Link.init with rxKey := [(0, key36)], txKey := [(0, key36)], rxN := 5, rxCtl := 5, txN := 5 })
/-- A block of type `typ` and number `seq` without payload bytes, sealed under `key36`. -/
def blkHdr (typ seq : Nat) : List Byte := blockHeader typ 0 0 seq 0 false 0 0 0 511
def nonce (typ seq : Nat) : List Byte := key36.drop 32 ++ beBytes 8 (if typ = 0 then seq else 2 ^ 63 + seq)
def tagOf (typ seq : Nat) : List Byte := gcmTag (aesKeys (key36.take 32)) (nonce typ seq) (blkHdr typ seq) (List.replicate 476 0)
def block (typ seq : Nat) : List Byte := withCrc (blkHdr typ seq ++ List.replicate 476 0 ++ tagOf typ seq)
theorem aesRounds_length (ks : List (List Byte)) (s : List Byte) (h : ∀ k ∈ ks, k.length = 16) (hn : ks ≠ []) : (aesRounds ks s).length = 16 := by
  induction ks generalizing s with
  | nil => exact absurd rfl hn
  | cons k t ih =>
    cases t with
    | nil => simp only [aesRounds, xorBytes, shiftRows, List.length_map, List.length_zip, List.length_range, h k (List.mem_cons_self ..), Nat.min_self]
    | cons k2 t2 => exact ih _ (fun x hx => h x (List.mem_cons_of_mem _ hx)) (List.cons_ne_nil _ _)
theorem keys_length : (aesKeys (key36.take 32)).all (fun k => decide (k.length = 16)) = true ∧ 2 ≤ (aesKeys (key36.take 32)).length := by
  decide +kernel
theorem aesBlock_length (ks : List (List Byte)) (b : List Byte) (h : ks.all (fun k => decide (k.length = 16)) = true) (h2 : 2 ≤ ks.length) :
    (aesBlock ks b).length = 16 := by
  cases ks with
  | nil => simp at h2
  | cons k t =>
    have ha := List.all_eq_true.mp h
    refine aesRounds_length t _ (fun x hx => of_decide_eq_true (ha x (List.mem_cons_of_mem _ hx))) ?_
    rintro rfl
    simp at h2
theorem gcmTag_length (ks : List (List Byte)) (iv aad ct : List Byte) (h : ks.all (fun k => decide (k.length = 16)) = true) (h2 : 2 ≤ ks.length) :
    (gcmTag ks iv aad ct).length = 16 := by
  simp only [gcmTag, xorBytes, List.length_map, List.length_zip, beBytes_length, aesBlock_length ks _ h h2, Nat.min_self]
theorem tag_length (iv aad ct : List Byte) : (gcmTag (aesKeys (key36.take 32)) iv aad ct).length = 16 :=
  gcmTag_length _ _ _ _ keys_length.1 keys_length.2
theorem gcmOpen_tag (key iv aad ct : List Byte) : ∃ p, gcmOpen key iv aad ct (gcmTag (aesKeys key) iv aad ct) = some p := ⟨_, if_pos rfl⟩
theorem withCrc_sound (b : List Byte) (hb : b.length = 508) : (withCrc b).length = 512 ∧ (withCrc b).take 508 = b ∧
    ofBe ((withCrc b).drop 508) = crc32c ((withCrc b).take 508) := by
  unfold withCrc
  rw [List.drop_left' hb, List.take_left' hb, ofBe_beBytes, Nat.mod_eq_of_lt (crc32c_lt _)]
  exact ⟨by rw [List.length_append, hb, beBytes_length], rfl, rfl⟩
theorem block_opens (typ seq : Nat) : (block typ seq).length = 512 ∧
    ofBe ((block typ seq).drop 508) = crc32c ((block typ seq).take 508) ∧ (block typ seq).take 16 = blkHdr typ seq ∧
    ∃ p, gcmOpen (key36.take 32) (nonce typ seq) ((block typ seq).take 16) (slice (block typ seq) 16 476) (slice (block typ seq) 492 16) = some p := by
  have ht : (tagOf typ seq).length = 16 := tag_length ..
  have hh : (blkHdr typ seq).length = 16 := beBytes_length ..
  have hb : (blkHdr typ seq ++ List.replicate 476 (0 : Byte) ++ tagOf typ seq).length = 508 := by
    simp only [List.length_append, List.length_replicate, hh, ht]
  have h16 : (block typ seq).take 16 = blkHdr typ seq := by
    simp only [block, withCrc, List.append_assoc]; exact List.take_left' hh
  have hd16 : (block typ seq).drop 16 = List.replicate 476 (0 : Byte) ++ (tagOf typ seq ++ beBytes 4 (crc32c
      (blkHdr typ seq ++ List.replicate 476 (0 : Byte) ++ tagOf typ seq))) := by
    simp only [block, withCrc, List.append_assoc]; exact List.drop_left' hh
  refine ⟨(withCrc_sound _ hb).1, (withCrc_sound _ hb).2.2, h16, ?_⟩
  · have h1 : slice (block typ seq) 16 476 = List.replicate 476 0 := by
      rw [slice, hd16]; exact List.take_left' (List.length_replicate ..)
    have h2 : slice (block typ seq) 492 16 = tagOf typ seq := by
      rw [slice, show 492 = 16 + 476 from rfl, ← List.drop_drop, hd16, List.drop_left' (List.length_replicate ..)]
      exact List.take_left' ht
    rw [h16, h1, h2]
    exact gcmOpen_tag ..
/-- Blocks of each type meet the conditions of O47 on a link that holds their key and their number. -/
theorem witness_blocks : (∀ e ∈ [(0, 5), (0, 6), (1, 5), (3, 5)], let h := ofBe (blkHdr e.1 e.2)
      let l := (linked 3 id).link_ 7
      bitsOf h 124 4 = e.1 ∧ bitsOf h 31 9 = 0 ∧ bitOf h 71 = false ∧ l.rxKey.get [] (bitsOf h 120 1) = key36 ∧
        near24 (if e.1 = 0 then l.rxN else l.rxCtl) (bitsOf h 96 24) = e.2) ∧
    (linked 3 id).linkState 7 = 3 ∧ (linked 2 id).linkState 7 = 2 ∧ ((linked 3 id).link_ 7).rxN = 5 := by decide +kernel
/-- A block without a good CRC; one of no known type; a handshake block; and one for which no key is held. -/
def plainBlock (typ : Nat) (p : List Byte) : List Byte := withCrc (blockHeader typ 0 0 5 0 false 0 0 0 511 ++ pad476 p ++ List.replicate 16 0)
theorem plainBlock_length (typ : Nat) (p : List Byte) (h : p.length ≤ 476) :
    (blockHeader typ 0 0 5 0 false 0 0 0 511 ++ pad476 p ++ List.replicate 16 (0 : Byte)).length = 508 := by
  simp only [blockHeader, pad476, List.length_append, List.length_replicate, beBytes_length]; omega
theorem witness_plain_blocks (typ : Nat) (p : List Byte) (h : p.length ≤ 476) : (plainBlock typ p).length = 512 ∧
    ofBe ((plainBlock typ p).drop 508) = crc32c ((plainBlock typ p).take 508) ∧
    (plainBlock typ p).take 16 = blockHeader typ 0 0 5 0 false 0 0 0 511 := by
  have hs := withCrc_sound _ (plainBlock_length typ p h)
  refine ⟨hs.1, hs.2.2, ?_⟩
  simp only [plainBlock, withCrc, List.append_assoc]
  exact List.take_left' (beBytes_length ..)
theorem witness_block_bad_crc (b : List Byte) (hb : b.length = 508) : (b ++ beBytes 4 (crc32c b ^^^ 1)).length = 512 ∧
    ofBe ((b ++ beBytes 4 (crc32c b ^^^ 1)).drop 508) ≠ crc32c ((b ++ beBytes 4 (crc32c b ^^^ 1)).take 508) := by
  rw [List.drop_left' hb, List.take_left' hb, ofBe_beBytes, Nat.mod_eq_of_lt (Nat.xor_lt_two_pow (crc32c_lt b) (by decide))]
  refine ⟨by rw [List.length_append, hb, beBytes_length], fun h => ?_⟩
  have h2 : crc32c b ^^^ (crc32c b ^^^ 1) = crc32c b ^^^ crc32c b := by rw [h]
  rw [← Nat.xor_assoc, Nat.xor_self, Nat.zero_xor] at h2
  exact absurd h2 (by decide)
theorem witness_no_key : (∀ t ∈ [0, 1, 2, 5], bitsOf (ofBe (blockHeader t 0 0 5 0 false 0 0 0 511)) 124 4 = t) ∧
    ((linked 3 fun l => { l with rxKey := [], authRun := 15 }).link_ 7).rxKey.get [] 0 = [] ∧ (linked 3 id).inSession 7 = true := by decide +kernel

/-- The clauses of O48: what link 7 holds before it sends, and each of its timers, due. -/
def pack7 : Pack := { cls := 7, src := some 0, frame := true, left := List.replicate 600 1 }
def blk5 (a : Nat) : Blk512 := { n := 5, bytes := List.replicate 512 2, attempts := a, sentAt := 0, starts := [], cont := none, ends := 0 }
def later (s : State) : State := { s with now := 10 ^ 12 }
theorem witness_block_send : (linked 2 fun l => { l with outbox := [(2, [1, 0, 1, 0, 0, 1, 9])] }).linkState 7 = 2 ∧ (linked 3 id).nextCls 7 = none ∧
    (linked 3 id).on (R.NLINK.STATE.LONG_WINDOW 7) = false ∧
    (let s := linked 3 fun l => { l with packing := some pack7, grant := [(7, 1)] }
     s.on (R.NLINK.CTRL.EN 7) = true ∧ s.credit 7 7 = true ∧ (s.link_ 7).unacked.length < s.window 7 ∧ 476 < pack7.left.length ∧ (s.link_ 7).rewind = none ∧
       (s.link_ 7).outbox = []) ∧
    ((linked 3 fun l => { l with unacked := [blk5 1], rewind := some 5 }).link_ 7).unacked.find? (fun x => decide (x.n = 5)) = some (blk5 1) := by
  decide +kernel
theorem test_handshake_sent : ((after (.nelyanBlockSend 7 0 0) (linked 2 fun l => { l with outbox := [(2, [])] })).link_ 7).outbox = [] := by
  decide +kernel
theorem test_key_exhausted : (after (.nelyanBlockSend 7 0 0) (linked 3 fun l => { l with sealedN := 2 ^ 30 })).fld (R.NLINK.STATE.LAST_CAUSE 7) = 5 := by
  decide +kernel
theorem test_resend : (after (.nelyanBlockSend 7 0 0) (linked 3 fun l => { l with unacked := [blk5 1], rewind := some 5 })).fld
    (R.NLINK.RESENT.COUNT 7) = 1 := by decide +kernel
theorem witness_ack : (let s := later (linked 3 fun l => { l with unacked := [blk5 7] })
    0 + s.ackTo 7 ≤ s.now ∧ ((after (.nelyanAckTimeout 7) s).link_ 7).rewind = some 5) ∧
    (after (.nelyanAckTimeout 7) (later (linked 3 fun l => { l with unacked := [blk5 8] }))).fld (R.NLINK.STATE.LAST_CAUSE 7) = 3 := by decide +kernel
theorem test_fm_repeat : ((after (.nelyanFmRepeat 7) (later (linked 3 fun l => { l with fmGap := true }))).link_ 7).fmDue = true := by decide +kernel
/-- Link 7 in state `st`, with the key store open and the Table service on its thread. -/
def shaking (st : Nat) (f : Link → Link) : State :=
  let s := (linked st f).set R.SEC.STATUS.KEYSTORE_OK 1
  { s with svc := { Svc.init with vendorUp := true, ownerUp := true, threads := [(svcThread 9, { Thread.init with st := .ready })] },
           deal := { s.deal with params := [(0x90000, [1])] } }
theorem witness_lock : (shaking 1 id).linkState 7 = 1 ∧ (shaking 1 id).keysOk = true ∧ (shaking 1 id).svcLive 9 = true ∧ (shaking 1 id).mayShake 7 = true ∧
    (shaking 1 id).on (R.NLINK.CTRL.EN 7) = true ∧ (linked 1 id).svcLive 9 = false ∧ (linked 3 id).on R.FAULT.STATE.FOLD = false ∧
    ((linked 3 id).setB R.FAULT.STATE.FOLD true).on R.FAULT.STATE.FOLD = true ∧ (after (.nelyanLockAcquire 7) (shaking 1 id)).linkState 7 = 2 ∧
    (after (.nelyanLockAcquire 7) ((linked 3 id).setB (R.LANE.STATUS.LOCK 55) false)).on (R.LANE.STATUS.LOCK 55) = true := by decide +kernel
theorem witness_stop : (after (.nelyanStop 7 true) (linked 3 id)).linkState 7 = 4 ∧ (after (.nelyanStop 7 true) (linked 2 id)).linkState 7 = 1 ∧
    0 + usec ((later (linked 3 id)).eff (R.NLINK.TIMERS.STOP_TO 7)) ≤ (later (linked 3 id)).now ∧
    ¬ 0 + usec ((linked 3 id).eff (R.NLINK.TIMERS.STOP_TO 7)) ≤ (linked 3 id).now ∧ (after (.nelyanStop 7 false) (later (linked 3 id))).linkState 7 = 4 := by
  decide +kernel
theorem witness_down : 0 + msec ((later (linked 4 id)).eff (R.NLINK.TIMERS.DOWN_TO 7)) ≤ (later (linked 4 id)).now ∧
    ¬ 0 + msec ((linked 4 id).eff (R.NLINK.TIMERS.DOWN_TO 7)) ≤ (linked 4 id).now ∧
    (after (.nelyanDownTimeout 7) (later (linked 4 id))).linkState 7 = 1 := by decide +kernel
theorem witness_hello : (let s := later (shaking 2 fun l => { l with hello := [1] })
    s.svcLive 9 = true ∧ (s.link_ 7).peerHello = [] ∧ 0 + msec 1 ≤ s.now ∧ ((after (.helloRetry 7) s).link_ 7).outbox = [(2, [1, 0, 1, 0, 0, 1, 1])]) ∧ (linked 3 id).linkState 7 ≠ 2 := by
  decide +kernel
theorem witness_refused : (let s := shaking 2 fun l => { l with inbox := [(4, [9])] }
    s.svcLive 9 = true ∧ (s.link_ 7).inbox = [(4, [9])] ∧ (after (.handshakeMessage 7 0) s).linkState 7 = 5 ∧
      (after (.handshakeMessage 7 0) s).fld (R.NLINK.STATE.LAST_CAUSE 7) = 9 ∧
      (after (.handshakeMessage 7 0) (shaking 2 fun l => { l with inbox := [(4, [14])] })).fld (R.NLINK.STATE.LAST_CAUSE 7) = 0) ∧
    ((linked 2 fun l => { l with inbox := [(1, [])] }).link_ 7).peerHello = [] ∧ ((linked 2 id).link_ 7).inbox = [] := by decide +kernel
def keyed (st : Nat) (f : Link → Link) : State := later (shaking st f)
theorem witness_handshake_timers : (keyed 2 id).keysOk = true ∧ (keyed 5 id).mayShake 7 = true ∧ (linked 5 id).mayShake 7 = false ∧
    (after (.refusedRetry 7) (keyed 5 id)).linkState 7 = 2 ∧ (after (.handshakeTimeout 7) (later (linked 2 id))).linkState 7 = 1 ∧ (keyed 2 id).linkState 7 = 2 ∧ 0 + msec 100 ≤ (keyed 2 id).now ∧ (keyed 5 id).linkState 7 = 5 ∧
    0 + secs 10 ≤ (keyed 5 id).now ∧ (keyed 3 fun l => { l with sealedN := 2 ^ 29 }).keysOk = true ∧
    ((keyed 3 fun l => { l with sealedN := 2 ^ 29 }).link_ 7).offer = none ∧ ((keyed 3 fun l => { l with sealedN := 2 ^ 29 }).link_ 7).nextTx = none := by
  decide +kernel

/-- Seat 1023's guard runs, and its route leads through link 7, then through link 6 (O49). -/
def guarded : State :=
  let s := { forwarding with nel := { forwarding.nel with guards := [(1023, some { holds := [(7, 0)], since := 0, id := 0, echoes := none })], routes := [(1023, 2 ^ 31 + 7 * 2 ^ 28)] } }
  s.set R.NLINK.RT_INDEX.SEAT 1023
def lateGuard : State := { guarded with time := { guarded.time with elapsed := 2 ^ 60 }, now := 10 ^ 12 }
theorem witness_guard : (guarded.guard 1023).isSome = true ∧ 0 + 1000 * lateGuard.eff R.NLINK.GUARD_TO.US ≤ lateGuard.mono ∧
    guarded.mono < 0 + 1000 * guarded.eff R.NLINK.GUARD_TO.US ∧ (after (.guardTimeout 1023) lateGuard).guard 1023 = none ∧
    forwarding.guard 1023 = none := by decide +kernel
theorem witness_route : linkOf (guarded.routeEntry 1023) = some 7 ∧ linkOf ((after (.rtEntryWrite (.thread 0) 0xE0000000) guarded).routeEntry 1023) = some 6 ∧
    (Who.thread 0).vendor = true ∧ (Who.thread 4).vendor = false ∧ ((after (.rtEntryWrite (.thread 4) 0xE0000000) guarded).thr 4).trapCause = 3 := by
  decide +kernel
theorem witness_disable : (linked 3 id).powered 111 = true ∧ (linked 3 id).on (R.NLINK.CTRL.EN 7) = true ∧
    (after (.nlinkDisable (.thread 0) 7) (linked 3 id)).on (R.NLINK.CTRL.EN 7) = false ∧ ((linked 3 id).setB (R.NLINK.CTRL.EN 7) false).on (R.NLINK.CTRL.EN 7) = false := by decide +kernel
theorem witness_disable_end : (let s := linked 3 fun l => { l with offAt := some 0, unacked := [blk5 1] }
    s.inSession 7 = true ∧ (s.link_ 7).unacked ≠ [] ∧ s.now < 0 + 2 * s.ackTo 7 ∧ 0 + 2 * (later s).ackTo 7 ≤ (later s).now ∧
      (after (.nlinkDisableComplete 7) (later s)).linkState 7 = 0) ∧ ((linked 3 id).link_ 7).offAt = none := by decide +kernel
theorem witness_enable : (linked 0 id).linkState 7 = 0 ∧ (linked 0 id).powered 103 = true ∧ (linked 0 id).col.inFold = false ∧ (linked 0 id).laneLock 7 = true ∧
    (shaking 0 id).mayShake 7 = true ∧ (linked 0 id).mayShake 7 = false ∧ (after (.nlinkEnable (.thread 0) 7) (shaking 0 id)).linkState 7 = 2 ∧
    (after (.nlinkEnable (.thread 0) 7) ((linked 0 id).setB (R.LANE.STATUS.LOCK 55) false)).linkState 7 = 1 ∧
    (after (.nlinkEnable (.thread 0) 7) (linked 4 id)).linkState 7 = 4 := by decide +kernel

/-! ## The built-in services -/

/-- The service complex runs, with parameters `ps` (service x 65,536 + parameter), on every thread that runs a service. -/
def serving (ps : List (Nat × List Byte)) : State :=
  let h : Thread := { Thread.init with st := .ready }
  let s : State := { forwarding with svc := { Svc.init with vendorUp := true, ownerUp := true, threads := [0, 2, 3, 16, 18, 19, 32, 34, 48, 49, 50].map fun t => (t, h) } }
  { s with deal := { s.deal with params := ps } }
/-- TTDP with profile 15 to flush and one subnet (O50). -/
def ttdp : State := serving [(0x10000, [1]), (0x10005, [0x80, 0]), (0x10007, [10, 0, 0, 0])]
theorem witness_inauguration : ttdp.svcLive 1 = true ∧ ttdp.serv.inaug = none ∧ ttdp.paramNat 1 6 1000 ≠ 0 ∧ forwarding.svcLive 1 = false ∧
    ((List.range 16).filter fun k => (ttdp.paramNat 1 5 0).testBit k) = [15] ∧
    (after (.inaugurationEnd [(0x0A800000, 18)] 1 2) ttdp).fld (R.FLOW.RNAT_m.LEN.LEN 0) = 18 ∧
    (let s := serving [(0x10000, [1])]
     s.svcLive 1 = true ∧ ((List.range 16).filter fun k => (s.paramNat 1 5 0).testBit k) = [] ∧
       (after (.inaugurationEnd [] 1 1) s).serv.inaug.map (·.sent) = some true) := by decide +kernel
/-- PTP runs on clock instance 3. -/
def ptp : State := serving [(0x20000, [1]), (0x20013, [1])]
theorem witness_ptp : ptp.ptpOn 3 = true ∧ ptp.ptpOn 2 = false ∧ ptp.paramNat 2 0x27 100000 < (100001 : Int).natAbs ∧
    (after (.servoUpdate 3 (some 100001)) ptp).fld (R.TIME.INST_i.STEPS.COUNT 3) = 1 ∧ ¬ ptp.paramNat 2 0x27 100000 < (-100000 : Int).natAbs ∧
    (after (.announceReceiptTimeout 3) (ptp.setB (R.TIME.INST_i.STATUS.SYNC 3) true)).on (R.TIME.INST_i.STATUS.SYNC 3) = false ∧
    (after (.servoUpdate 3 none) (ptp.setB R.TIME.OSC.REF_LOCK true)).on (R.TIME.INST_i.STATUS.SYNC 3) = true := by decide +kernel
theorem witness_timestamps : (let s0 := serving [(0x20000, [1]), (0x20030, [0, 7])]
    let s := { s0 with time := { s0.time with ets := [{ port := 47, inst := 3, tag := 5, sec := 6, ns := 7 }] } }
    s.svcLive 2 = true ∧ s.time.ets.length = 1 ∧ s.paramNat 2 0x30 0xFFFF = 7 ∧ s.hwRoom 7 2 = true ∧
      ((after (.tsEntryDispatch false) s).chan 7).msgs = [{ words := [0xBF00000000000005, 0x600000007], hw := false }] ∧
      (s.setChan 7 { Chan.init with msgs := [{ words := List.replicate 15 0, hw := true }] }).hwRoom 7 2 = false) ∧
    forwarding.svcLive 2 = false ∧ ptp.paramNat 2 0x30 0xFFFF = 0xFFFF := by decide +kernel
theorem witness_mka : (let s := ((serving [(0x30000, [1]), (0x3003F, List.replicate 16 1)]).set R.SEC.STATUS.KEYSTORE_OK 1).set (R.PORT.SECY_CTRL.EN 47) 1
    s.svcLive 3 = true ∧ s.keysOk = true ∧ s.secyOn 47 = true ∧ s.powered 47 = true ∧
      (s.param 3 (0x10 + 47)).getD [] ++ (s.param 3 (0x40 + 47)).getD [] ≠ []) ∧ forwarding.svcLive 3 = false := by decide +kernel
/-- The Table service, with a link-state message of seat 9 that is old, and routes to compute. -/
def table9 : State :=
  let s := later (serving [(0x90000, [1])])
  { s with serv := { s.serv with lsdb := [{ seat := 9, dev := 1, seq := 1, since := 0, links := [] }], routesDue := true, routeHold := [(7, 1)] } }
theorem witness_table_service : table9.svcLive 9 = true ∧ table9.serv.lsaAt + msec table9.lsaInterval ≤ table9.now ∧ table9.serv.routesDue = true ∧
    forwarding.svcLive 9 = false ∧ forwarding.serv.routesDue = false ∧ (after .linkStateAgeout table9).serv.lsdb = [] ∧
    (after .lsaFlood table9).serv.lsaSeq = 1 ∧ (after (.routeHoldExpiry 7) table9).serv.routeHold.get 0 7 = 0 ∧ forwarding.serv.routeHold.get 0 7 = 0 := by
  decide +kernel
theorem witness_flood : (∀ m ∈ List.range 8, table9.linkState m ≠ 3) := by decide +kernel

/-- A frame in a buffer, presented on Xq as from port 5. -/
def present (q : Nat) (f : List Byte) (s : State) : State :=
  let a := s.bufAddr 6 0
  { s with mem := (((List.range f.length).map (a + ·)).zip f).filter fun e => decide (e.2 ≠ 0),
           tm := { s.tm with desc := [(q, [[BitVec.ofNat 64 (a * 2 ^ 24 + f.length * 2 ^ 10), BitVec.ofNat 64 (5 * 2 ^ 58)]])] } }
/-- A UDP frame from 10.0.0.9, port 1000. -/
def udp (dport dst : Nat) (d : List Byte) : List Byte :=
  ethOut (beBytes 6 1) (beBytes 6 2) 0 0x800 (ipOut { src := 0x0A000009, dst := dst, sport := 1000, dport := dport, data := d } 1 64)

/-- LLDP, with port 1 alone; a neighbour that is gone; and DHCP, with position 0 at port 5 (O51). -/
def lldp : State := serving [(0x40000, [1]), (0x40003, [2])]
theorem witness_lldp : lldp.svcLive 4 = true ∧ lldp.descs 0 = [] ∧ forwarding.linkUp 1 = true ∧ (forwarding.linkUp 2 = false) ∧
    ((List.range 48).filter fun n => (lldp.paramNat 4 3 (2 ^ 48 - 1)).testBit n && lldp.portExists n && lldp.linkUp n) = [1] ∧
    (let s := { lldp with serv := { lldp.serv with lldp := [{ port := 1, ident := [1], gone := 0 }, { port := 1, ident := [2], gone := 1 }] } }
     ((after .lldpNeighbourAgeout s).serv.lldp.map (·.ident)) = [[2]]) := by decide +kernel
theorem witness_lldp_fold : (let s := lldp.setB R.FAULT.STATE.FOLD true
    s.on R.FAULT.STATE.FOLD = true ∧ s.serv.heldMsgs = []) := by decide +kernel
def discover (typ : Byte) : List Byte :=
  [1, 1, 6, 0] ++ List.replicate 24 0 ++ [2, 0, 0, 0, 0, 5] ++ List.replicate 202 0 ++ beBytes 4 0x63825363 ++ [53, 1, typ, 50, 4, 10, 0, 0, 7, 255]
def dhcp (typ : Byte) (leases : List Lease) : State :=
  let s := serving [(0x50000, [1]), (0x50010, [5] ++ List.replicate 35 0 ++ [10, 0, 0, 7]), (0x50102, [10, 0, 0, 1])]
  present 4 (udp 67 0xFFFFFFFF (discover typ)) { s with serv := { s.serv with leases := leases } }
/-- What is taken from the queue satisfies `p`. -/
def takes (k q : Nat) (s : State) (p : List Word64 → Udp → State → Bool) : Bool :=
  match s.svcTake k q with
  | some (d, x, w) => match udpIn x with
    | some u => p d u w
    | none => false
  | none => false
theorem witness_dhcp : (dhcp 1 []).svcLive 5 = true ∧ forwarding.svcLive 5 = false ∧
    (takes 5 4 (dhcp 1 []) fun _ u _ => decide (u.dport = 67 ∧ 240 ≤ u.data.length ∧ beAt u.data 0 1 = 1 ∧ beAt u.data 236 4 = 0x63825363)) = true := by
  decide +kernel
theorem witness_dhcp_options : ∀ t ∈ [1, 3], (takes 5 4 (dhcp t []) fun _ u _ =>
    decide (dhcpOpts u.data.length (u.data.drop 240) = [(53, [t]), (50, [10, 0, 0, 7])])) = true := by decide +kernel
theorem witness_dhcp_position : (takes 5 4 (dhcp 1 []) fun d _ w => match w.dhcpAt (descPort d) none with
    | some (k, v) => decide (k = 0 ∧ beAt v 36 4 = 0x0A000007 ∧ w.liveLeases = [])
    | none => false) = true ∧ optOf [(53, [1]), (50, [10, 0, 0, 7])] 82 = none := by decide +kernel
theorem witness_dhcp_held : (takes 5 4 (dhcp 1 [{ pos := 0, mac := 9, gone := 1 }]) fun _ u w =>
    w.liveLeases.any fun e => decide (e.pos = 0 ∧ e.mac ≠ beAt u.data 28 6)) = true := by decide +kernel
theorem witness_no_udp : (match (present 4 (List.replicate 60 0) (dhcp 1 [])).svcTake 5 4 with
    | some (_, x, _) => decide (udpIn x = none)
    | none => false) = true := by decide +kernel
theorem witness_ipfix : (let s := (serving [(0x60000, [1]), (0x60102, [10, 0, 0, 1])]).setChan 16 { Chan.init with msgs := [{ words := [0, 0], hw := true }] }
    s.svcLive 6 = true ∧ s.eff R.FLOW.EXPORT.CHANNEL = 16 ∧ (s.chan 16).reader = none ∧ (s.chan 16).msgs = [{ words := [0, 0], hw := true }] ∧
      s.param 6 0x105 = none) ∧ forwarding.svcLive 6 = false := by decide +kernel
/-- A batch of one record at the first buffer of pool 4, for a collector on the exporter's subnet, in Fold. -/
def exporting : State :=
  let s := (serving [(0x60000, [1]), (0x60102, [10, 0, 0, 1]), (0x60105, [10, 0, 0, 9])]).setB R.FAULT.STATE.FOLD true
  let s1 := s.setChan 16 { Chan.init with msgs := [{ words := [BitVec.ofNat 64 (s.bufAddr 4 0), 1], hw := true }] }
  ({ s1 with serv := { s1.serv with tplAt := some 0 } }).hold 4 0 (some 1)
theorem witness_exporting : exporting.svcLive 6 = true ∧ exporting.eff R.FLOW.EXPORT.CHANNEL = 16 ∧ (exporting.chan 16).reader = none ∧
    (exporting.chan 16).msgs.length = 1 ∧ exporting.param 6 0x105 = some [10, 0, 0, 9] ∧ exporting.serv.tplAt = some 0 ∧
    exporting.now < 0 + secs 600 ∧ exporting.CleanAt (exporting.bufAddr 4 0) 144 ∧ exporting.nextHop 6 0x0A000009 = 0x0A000009 ∧
    exporting.pools.waiting = [] ∧ exporting.bufStart (exporting.bufAddr 4 0) = some (4, 0) ∧ exporting.holderOf 4 0 = some 1 ∧
    (let w := (exporting.setChan 16 Chan.init).bumpSvcStat 6 8 8
     let recs := [exporting.ipfixRecord (w.bytesAt (exporting.bufAddr 4 0) 144)]
     (ipfixPack [] recs).map (·.length) = [1]) := by unfold State.CleanAt; decide +kernel
theorem test_export : (let u := after .ipfixBatchExport exporting
    (u.chan 16).msgs = [] ∧ u.serv.ipfixSeq = 1 ∧ u.serv.heldMsgs.length = 1 ∧ u.holderOf 4 0 = none) := by decide +kernel
/-- The SNMP agent before it answers, and with a discovery message before it. -/
def discovery : List Byte :=
  ber 0x30 (ber 2 [3] ++ ber 0x30 (ber 2 [1] ++ berNat 2 65507 ++ ber 4 [4] ++ ber 2 [3]) ++
    ber 4 (ber 0x30 (ber 4 [] ++ ber 2 [0] ++ ber 2 [0] ++ ber 4 [] ++ ber 4 [] ++ ber 4 [])) ++
    ber 0x30 (ber 4 [] ++ ber 4 [] ++ ber 0xA0 (ber 2 [1] ++ ber 2 [0] ++ ber 2 [0] ++ ber 0x30 [])))
def agent (up : Bool) : State :=
  let s := serving [(0x70000, [1]), (0x70001, [1, 2, 3, 4, 5]), (0x70102, [10, 0, 0, 1])]
  { s with serv := { s.serv with snmpUp := up } }
theorem witness_snmp_start : (let s := (agent false).setB (R.TIME.INST_i.STATUS.SYNC (agent false).gateInst) true
    s.svcLive 7 = true ∧ s.serv.snmpUp = false ∧ s.on (R.TIME.INST_i.STATUS.SYNC s.gateInst) = true ∧ s.serv.boots = none ∧ s.descs 6 = [] ∧
      (after .snmpRequest s).serv.snmpUp = true) ∧ forwarding.svcLive 7 = false := by decide +kernel
theorem witness_snmp_discovery : (agent true).svcLive 7 = true ∧ (takes 7 6 (present 6 (udp 161 0x0A000001 discovery) (agent true)) fun _ u w =>
    w.serv.snmpUp && decide (u.dst = w.svcAddr 7 ∧ u.dport = w.paramNat 7 0x106 161) && (match snmpParse u.data with
      | some m => decide (m.engine ≠ w.engineId ∧ m.flags / 4 % 2 = 1)
      | none => false)) = true := by decide +kernel
theorem witness_syslog : (let s := serving [(0x80000, [1]), (0x80102, [10, 0, 0, 1])]
    s.svcLive 8 = true ∧ s.param 8 0x105 = none ∧ (∀ k ∈ List.range 8, s.descs (k + 8) = [] ∧ s.serv.drained.get 0 (k + 8) = 0) ∧ s.serv.logOver = 0) ∧
    forwarding.svcLive 8 = false := by decide +kernel
theorem witness_syslog_quiet : (let s0 := serving [(0x80000, [1]), (0x80102, [10, 0, 0, 1])]
    let s := { s0 with serv := { s0.serv with seen := ofLe s0.stickyMap, seenLinks := s0.linksNow, seenDeck := s0.deckNow } }
    s.serv.seen = ofLe s.stickyMap ∧ s.serv.seenLinks = s.linksNow ∧ s.serv.seenDeck = s.deckNow ∧ s.serv.seenInaug = s.svcStat 1 0x24 4) := by
  decide +kernel

/-- The management endpoint at 10.0.0.1, port 5000, and the attestation responder (O52). -/
def endpoint : State :=
  let s := serving [(0xA0000, [1]), (0xA0102, [10, 0, 0, 1]), (0xA0106, [0x13, 0x88]), (0xB0000, [1])]
  let t := s.set R.SEC.STATUS.KEYSTORE_OK 1
  { t with serv := { t.serv with nonces := [(List.replicate 32 7, 0)] }, trust := { t.trust with rootKey := some [4] } }
def message (typ : Byte) (body : List Byte) : List Byte := udp 5000 0x0A000001 (ascii "AQMP" ++ [0, 1, typ, 0, 0, 0, 0, 9] ++ body)
/-- The endpoint takes a message whose peer and state satisfy `p`. -/
def heeds (s : State) (q : EpMsg → Bool) (p : EpMsg → State → Bool) : Bool :=
  match s.epTake q with
  | (w, some m) => p m w
  | (_, none) => false
theorem witness_endpoint_nonce : (heeds (present 5 (message 1 []) endpoint) (fun x => decide (x.typ = 1)) fun _ w => w.keysOk) = true ∧
    (heeds ((present 5 (message 1 []) endpoint).set R.SEC.STATUS.KEYSTORE_OK 0) (fun x => decide (x.typ = 1)) fun _ w => !w.keysOk) = true ∧
    forwarding.svcLive 10 = false := by decide +kernel
theorem witness_endpoint_attest : (heeds (present 5 (message 3 (ascii "AQAQ" ++ [0, 1, 0, 1] ++ List.replicate 32 3)) endpoint) (fun x => decide (x.typ = 3))
      fun m w => w.svcLive 11 && attReqOk m.body && w.attFree) = true ∧
    (heeds (present 5 (message 3 []) endpoint) (fun x => decide (x.typ = 3)) fun m _ => !attReqOk m.body) = true := by decide +kernel
theorem witness_endpoint_status : (heeds (present 5 (message 5 []) endpoint) (fun x => decide (x.typ = 5)) fun _ _ => true) = true := by decide +kernel
def stagingOf (n : Nat) : State :=
  { endpoint with serv := { endpoint.serv with staging := some { len := n, sha := [], bufs := [3], got := [], since := 0 } } }
theorem witness_endpoint_data : (heeds (present 5 (message 4 [0]) endpoint) (fun x => decide (x.typ = 4)) fun m w => decide (m.body.length < 5) &&
      w.serv.staging.isNone) = true ∧
    (heeds (present 5 (message 4 [0, 0, 0, 2, 6]) (stagingOf 9)) (fun x => decide (x.typ = 4)) fun m w => decide (m.body.length = 5 ∧ beAt m.body 0 4 ≤ 9) &&
      (match w.serv.staging with
       | some g => decide (g.bufs = [3] ∧ g.len ≤ 0x100000 ∧ ({ g with got := (2, 1) :: g.got, since := w.now } : Staging).next ≠ g.len)
       | none => false)) = true := by decide +kernel
theorem witness_staging_late : (stagingOf 9).serv.staging.isSome = true ∧ (stagingOf 9).now < 0 + secs 10 ∧ 0 + secs 10 ≤ (later (stagingOf 9)).now ∧
    (after .stagingTimeout (later (stagingOf 9))).serv.staging = none ∧ (3 : Nat) < 65536 ∧ (later (stagingOf 9)).pools.waiting = [] ∧
    endpoint.serv.staging = none := by decide +kernel
theorem witness_sign : (let s := { endpoint with trust := { endpoint.trust with attQ := [{ nonce := [], cert := false, peer := none }] } }
    s.trust.attQ.length = 1 ∧ s.keysOk = true ∧ s.running .attest = false) ∧ forwarding.trust.attQ = [] := by decide +kernel

/-- A command: OP, the device it is for, and its ARG, under nonce 7.. and signer 0xFF. -/
def cmdBody (dev : List Byte) (op : Nat) (arg : List Byte) : List Byte :=
  List.replicate 32 7 ++ dev ++ beBytes 2 op ++ beBytes 2 arg.length ++ arg ++ [0xFF, 1, 0, 0] ++ List.replicate 96 0
def ops : List (Nat × List Byte) := [(1, [3]), (2, []), (3, [0, 0, 0, 244] ++ List.replicate 48 1), (4, [])]
theorem witness_command : (∀ e ∈ ops, (heeds (present 5 (message 2 (cmdBody (beBytes 16 5) e.1 e.2)) endpoint) (isCmd e.1) fun m w =>
    cmdFormOk m.body && (w.liveNonces.any fun x => decide (x.1 = m.body.take 32)) && decide (beAt m.body 32 16 = 5) &&
      (w.useNonce (m.body.take 32)).runtimeSigner (beAt (cmdTail m.body) 0 1) == some ([4], 15)) = true) := by decide +kernel
theorem witness_stale_nonce : (heeds (present 5 (message 2 (cmdBody (beBytes 16 5) 4 [])) { endpoint with serv := Serv.init }) (isCmd 4) fun m w =>
    cmdFormOk m.body && !(w.liveNonces.any fun x => decide (x.1 = m.body.take 32))) = true := by decide +kernel
theorem witness_no_signer : (heeds (present 5 (message 2 (cmdBody (beBytes 16 5) 4 [])) { endpoint with trust := { endpoint.trust with rootKey := none } }) (isCmd 4)
    fun m w => (w.useNonce (m.body.take 32)).runtimeSigner (beAt (cmdTail m.body) 0 1) == none) = true := by decide +kernel

/-- A command of OP 4 that names this device: its frame carries no UDP checksum. -/
def ownHead : List Byte :=
  beBytes 6 1 ++ beBytes 6 2 ++ beBytes 2 0x800 ++ (ipOut { src := 9, dst := 0x0A000001, sport := 1000, dport := 5000, data := List.replicate 164 0 } 1 64).take 20 ++
    beBytes 2 1000 ++ beBytes 2 5000 ++ beBytes 2 172 ++ [0, 0] ++ ascii "AQMP" ++ [0, 1, 2, 0, 0, 0, 0, 9] ++ List.replicate 32 7
def ownTail : List Byte := beBytes 2 4 ++ beBytes 2 0 ++ [0xFF, 1, 0, 0] ++ List.replicate 96 0
def ownFrame : List Byte := ownHead ++ (beBytes 16 deviceId ++ ownTail)
def ownCmd : State :=
  let a := endpoint.bufAddr 6 0
  ({ endpoint with tm := { endpoint.tm with desc := [(5, [[BitVec.ofNat 64 (a * 2 ^ 24 + 206 * 2 ^ 10), 0]])] } }).putBytes a ownFrame
theorem own_udp : (match udpIn ownFrame with
    | some u => decide (u.data.length = 164)
    | none => false) = true := by decide +kernel
theorem own_head : ownHead.length = 86 := by decide +kernel
theorem own_length : ownFrame.length = 206 := by decide +kernel
theorem own_read : ownCmd.headFrame 5 = ownFrame := by
  have hd : ownCmd.headFrame 5 = ownCmd.bytesAt (endpoint.bufAddr 6 0) ownFrame.length := by
    have h1 : ownCmd.descs 5 = [[BitVec.ofNat 64 (endpoint.bufAddr 6 0 * 2 ^ 24 + 206 * 2 ^ 10), 0]] := by
      unfold ownCmd; rw [State.putBytes_eq]; rfl
    unfold State.headFrame
    rw [h1, own_length]
    have h2 : (BitVec.ofNat 64 (endpoint.bufAddr 6 0 * 2 ^ 24 + 206 * 2 ^ 10)).toNat / 2 ^ 24 = endpoint.bufAddr 6 0 ∧
        bitsOf (BitVec.ofNat 64 (endpoint.bufAddr 6 0 * 2 ^ 24 + 206 * 2 ^ 10)).toNat 10 14 = 206 := by decide +kernel
    simp only [List.headD_cons, h2]
  rw [hd, ownCmd]
  exact State.bytesAt_putBytes_same _ _ _
/-- The datagram and the message of the frame. -/
def ownUdp : Udp := { src := 9, dst := 0x0A000001, sport := 1000, dport := 5000, data := ((((ownFrame.drop 12).drop 2).drop 20).take 172).drop 8 |>.take 164 }
def ownMsg : EpMsg := { peer := { ip := 9, port := 1000, req := 9 }, typ := 2, body := ownUdp.data.drop 12 }
theorem own_device : beAt ownMsg.body 32 16 = deviceId := by
  have h : (ownMsg.body.drop 32).take 16 = (ownFrame.drop 86).take 16 := by
    simp only [ownMsg, ownUdp, List.drop_take, List.drop_drop, List.take_take]
    rw [show min 16 (min 164 (172 - 8) - 12 - 32) = 16 from by decide, show 12 + 2 + 20 + 8 + 12 + 32 = 86 from by decide]
  rw [beAt, slice, h, ownFrame, List.drop_left' own_head, List.take_left' (beBytes_length ..), ofBe_beBytes]
  exact Nat.mod_eq_of_lt (deviceId_lt)
theorem own_udp_is : udpIn ownFrame = some ownUdp := by
  have e1 : ethIn ownFrame = (beAt (ownFrame.drop 12) 0 2, (ownFrame.drop 12).drop 2) := by
    unfold ethIn ethBody
    exact if_neg (by decide +kernel)
  have e2 : 4 * (beAt ((ownFrame.drop 12).drop 2) 0 1 % 16) = 20 := by decide +kernel
  have e3 : beAt ((ownFrame.drop 12).drop 2) 2 2 = 192 := by decide +kernel
  have e4 : beAt (slice ((ownFrame.drop 12).drop 2) 20 (192 - 20)) 4 2 = 172 := by decide +kernel
  unfold udpIn
  simp only [e1, e2, e3, e4]
  rw [if_pos (by decide +kernel)]
  have e5 : beAt ((ownFrame.drop 12).drop 2) 12 4 = 9 := by decide +kernel
  have e6 : beAt ((ownFrame.drop 12).drop 2) 16 4 = 0x0A000001 := by decide +kernel
  have e7 : beAt (slice ((ownFrame.drop 12).drop 2) 20 (192 - 20)) 0 2 = 1000 := by decide +kernel
  have e8 : beAt (slice ((ownFrame.drop 12).drop 2) 20 (192 - 20)) 2 2 = 5000 := by decide +kernel
  simp only [e5, e6, e7, e8]
  rfl
theorem own_message : ownCmd.epMsg (ownCmd.headFrame 5) = some ownMsg := by
  have e1 : beAt ownUdp.data 8 4 = 9 := by decide +kernel
  have e2 : beAt ownUdp.data 6 1 = 2 := by decide +kernel
  rw [own_read]
  unfold State.epMsg
  simp only [own_udp_is]
  rw [if_pos (by decide +kernel)]
  simp only [e1, e2]
  rfl
theorem own_command : ∃ w, ownCmd.epTake (isCmd 4) = (w, some ownMsg) := by
  have hd : ownCmd.descs 5 = [[BitVec.ofNat 64 (endpoint.bufAddr 6 0 * 2 ^ 24 + 206 * 2 ^ 10), 0]] := by
    unfold ownCmd; rw [State.putBytes_eq]; rfl
  have hc : ownCmd.epClean (ownCmd.descs 5).length = ownCmd := by
    rw [hd, List.length_singleton]
    unfold State.epClean
    rw [if_neg (by rw [hd]; exact List.cons_ne_nil _ _)]
    simp only [own_message]
    exact if_pos (by decide +kernel)
  unfold State.epTake
  rw [if_neg (by decide +kernel)]
  simp only [hc]
  rw [if_neg (by rw [hd]; exact List.cons_ne_nil _ _)]
  simp only [own_message]
  rw [if_pos (by decide +kernel)]
  cases h : ownCmd.svcTake 10 5 with
  | none =>
    exfalso
    unfold State.svcTake State.excPop at h
    simp only [hd] at h
    cases hb : ({ ownCmd with tm := { ownCmd.tm with desc := ownCmd.tm.desc.put [] 5 [] } } : State).bufStart
        ((([BitVec.ofNat 64 (endpoint.bufAddr 6 0 * 2 ^ 24 + 206 * 2 ^ 10), 0] : List Word64).headD 0).toNat / 2 ^ 24) with
    | none => simp only [hb] at h; exact nomatch h
    | some e => simp only [hb] at h; exact nomatch h
  | some e => exact ⟨_, rfl⟩

/-! ## The debug port -/

/-- The port answers on an unclaimed module, whose thread `t` is READY; on a claimed one it is locked. -/
def dbg (t : Nat) : State := { running t with sup := { (running t).sup with started := true, dbgPresN := false } }.set R.DEAL.STATUS.STEP 4
def lockedPort : State := { dbg 4 with trust := { (dbg 4).trust with otp := { (dbg 4).trust.otp with claimedBits := 3 } } }
/-- The STATUS request of R568, with SEQ 0. -/
theorem test_crc8 : crc8 [1, 0, 0, 0, 0, 0, 0] = 0xDF := by decide +kernel
def badOp : List Byte := [0x88, 0, 0, 0, 0, 0, 0, BitVec.ofNat 8 (crc8 [0x88, 0, 0, 0, 0, 0, 0])]
theorem witness_packets : (dbg 4).portUp = true ∧ (dbg 4).dbg.late = none ∧ (dbg 4).dbg.seq = none ∧ (dbg 4).covers (.bits 15) = true ∧
    lockedPort.covers (.bits 1) = false ∧ lockedPort.covers .opened = false ∧ lockedPort.portUp = true ∧ forwarding.portUp = false ∧
    (badOp.getLastD 0).toNat = crc8 badOp.dropLast ∧ (badOp.headD 0).toNat % 128 = 8 ∧ 8 ≤ badOp.length ∧
    ((List.replicate 8 (1 : Byte)).getLastD 0).toNat ≠ crc8 (List.replicate 8 (1 : Byte)).dropLast := by decide +kernel
theorem test_bad_op : (after (.debugBadPacket badOp) (dbg 4)).dbg.out = ⟨2, []⟩ ∧ (after (.debugBadPacket (List.replicate 8 1)) (dbg 4)).dbg.out = ⟨1, []⟩ := by
  decide +kernel
theorem test_locked : (after (.debugHalt false 4) lockedPort).dbg.out = ⟨4, []⟩ ∧ ((after (.debugHalt false 4) lockedPort).thr 4).st = .ready := by
  decide +kernel
theorem test_repeat : (let s := after (.debugHalt false 4) (dbg 4)
    s.dbg.seq = some (false, ⟨0, []⟩) ∧ (after (.debugStatus false) s).dbg.out = ⟨0, []⟩ ∧ (after (.debugStatus false) s).fld R.DEBUG.PACKETS.COUNT = 1) := by
  decide +kernel
/-- The clauses of O54. -/
theorem witness_exchange : ((dbg 4).arm .backoff 5).dueAt .backoff = some 5 ∧ (dbg 4).dueAt .backoff = none ∧
    ((dbg 4).set R.SEC.STATUS.KEYSTORE_OK 1).keysOk = true ∧ ((dbg 4).set R.SEC.STATUS.KEYSTORE_OK 0).keysOk = false ∧ (dbg 4).trust.challenge = none ∧
    attReqOk (ascii "AQAQ" ++ [0, 1, 0, 1] ++ List.replicate 32 3) = true ∧ attReqOk [] = false ∧ ((dbg 4).set R.SEC.STATUS.KEYSTORE_OK 1).attFree = true ∧
    (dbg 4).portOpen = true ∧ lockedPort.isClaimed = true ∧ (dbg 4).isClaimed = false ∧
    (after (.debugChallenge false) ((dbg 4).arm .backoff 5)).dbg.out = ⟨9, [1]⟩ ∧ (after (.debugResponse false []) (dbg 4)).dbg.out = ⟨3, []⟩ := by
  decide +kernel
theorem witness_response_fails : (after (.debugResponse false (List.replicate 108 0)) (dbg 4)).trust.backoff = 20 ∧
    (after (.debugResponse false (List.replicate 108 0)) (dbg 4)).isSticky 30 = true := by decide +kernel
/-- A response that passes every check of R126: its signature has R = S = e, the digest, and its key is the point of x-coordinate e
less the base point. -/
def e126 : Nat := 0xd706f00ac17d59b6a3be95b8bbf662ccaa31d26ec9ab4e13043f21671171e3c79da319b1b9bf76edfe66ce9ff57e566e
def key126 : List Byte :=
  4 :: beBytes 48 0x64e2cb14201495a11ed1f1304902d7c8ba1f0f5e8fe1bc0d93c92970f645d1f16ec25ee3c46dff09ac37f2a0795f5c0b ++
    beBytes 48 0x83bb6f6ddd6f88bd771cdd0ca3a08768ae2e587b7c2ab792c972adcc55e65727192b7471c1dda4391cb02f78162278fc
def response126 : List Byte := List.replicate 8 2 ++ [0xFF, 1, 0, 60] ++ beBytes 48 e126 ++ beBytes 48 e126
def unlocking : State :=
  let s := [(R.SEC.STATUS.KEYSTORE_OK, 1), (R.DEAL.DECK_STATE.DEALT, 1), (R.DEAL.JOURNAL.BUDGET, 1)].foldl (fun s e => s.set e.1 e.2) (dbg 4)
  { s with trust := { s.trust with challenge := some (List.replicate 64 2), rootKey := some key126 } }
theorem witness_unlock : response126.length = 108 ∧ unlocking.trust.challenge = some (List.replicate 64 2) ∧
    unlocking.runtimeSigner (beAt response126 8 1) = some (key126, 15) ∧ response126.take 8 = slice (List.replicate 64 2) 8 8 ∧ unlocking.keysOk = true ∧
    beAt response126 9 1 = 1 ∧ beAt response126 10 2 = 60 ∧ bitOf 15 1 = true ∧
    ecVerify key126 (sha384 (List.replicate 64 2 ++ slice response126 8 4)) (slice response126 12 48) (slice response126 60 48) = true ∧
    unlocking.on R.DEAL.DECK_STATE.DEALT = true ∧ unlocking.on R.DEAL.DECK_STATE.JOURNAL_PAUSED = false ∧ 0 < unlocking.fld R.DEAL.JOURNAL.BUDGET ∧
    unlocking.deck.queue = [] ∧ unlocking.portUp = true ∧ unlocking.dbg.late = none ∧ unlocking.dbg.seq = none := by decide +kernel
theorem test_unlock : (let u := after (.debugResponse false response126) unlocking
    u.trust.unlocking = some (1, 60) ∧ u.dbg.late = some false ∧ u.deck.queue.length = 1) := by decide +kernel
theorem witness_buf_read : (let s := { dbg 4 with dbg := { (dbg 4).dbg with buf := [0, 0, 0, 7, 1, 2, 3, 4] } }
    0 + 4 * 2 ≤ s.dbg.buf.length ∧ s.dbg.buf.length ≤ 2048 ∧ (after (.debugBufRead false 0 2) s).dbg.out = ⟨0, [7, 0x01020304]⟩ ∧
      (after (.debugBufRead false 2 1) s).dbg.out = ⟨3, []⟩ ∧ 2048 < (2044 : BitVec 40).toNat + 4 * 2) := by decide +kernel
def rooted (h : Nat) : State :=
  { lockedPort with trust := { lockedPort.trust with otp := { lockedPort.trust.otp with ownerHash := h } } }
theorem witness_root_key (h : Nat) : (rooted h).trust.otp.ownerHash = h ∧ (List.replicate 97 (4 : Byte)).length = 97 := ⟨rfl, rfl⟩
theorem witness_root_key_port : (rooted 0).isClaimed = true ∧ (rooted 0).portUp = true ∧ (rooted 0).dbg.late = none := by decide +kernel
theorem test_relock : (let s := after (.debugBreak false 0x100 0x80000010) (dbg 4)
    s.dbg.brks.length = 1 ∧ (after (.debugRelock true) s).dbg.brks = [] ∧ (after (.debugRelock true) s).dbg.seq = none) := by decide +kernel
theorem witness_attach : (let s := after .debugAttach (dbg 4)
    s.on R.DEBUG.STATUS.ATTACHED = true ∧ s.sup.started = true ∧ (after .debugDetach s).fld R.DEBUG.DETACHES.COUNT = 1) ∧
    (dbg 4).on R.DEBUG.STATUS.ATTACHED = false := by decide +kernel

/-- The clauses of O55: thread 4 HALTED; one that waits; and the targets and words. -/
def halted (t : Nat) : State := (dbg t).modThr t fun h => { h with st := .halted }
theorem witness_halt : (dbg 4).covers (needBits 2 (vendorTarget 4)) = true ∧ (dbg 4).svcRuns = true ∧ ((dbg 4).thr 4).stepping = false ∧
    (dbg 4).breakAt 4 = none ∧ ((after (.debugHalt false 4) (dbg 4)).thr 4).st = .halted ∧ (dbg 4).covers (needBits 11 (vendorTarget 63)) = true ∧
    ({ dbg 4 with svc := Svc.init } : State).svcRuns = false ∧ (after (.debugHalt false 4) { dbg 4 with svc := Svc.init }).dbg.out = ⟨0x0B, []⟩ := by
  decide +kernel
theorem witness_resume : ((halted 4).thr 4).st = .halted ∧ (targetsOf 4).any (fun n => decide (((halted 4).thr n).st = .halted)) = true ∧
    ((after (.debugResume false 4) (halted 4)).thr 4).st = .ready ∧ (after (.debugResume false 4) (dbg 4)).dbg.out = ⟨6, []⟩ ∧
    (∀ n ∈ targetsOf 4, ((dbg 4).thr n).st ≠ .halted) := by decide +kernel
/-- g3 := g1 + g2 at the PC of thread 0, and a PC outside its memory. -/
def addWord : BitVec 32 := Elv.encode (.alu .add 3 1 2)
def atAdd : State := (halted 0).putBytes 0x100 (leBytes 4 addWord.toNat)
theorem witness_step : (dbg 0).covers (needBits 2 (vendorTarget 0)) = true ∧ atAdd.refuses 0 0x100 4 .fetch true = none ∧ atAdd.CleanAt 0x100 4 ∧
    Elv.decode (BitVec.ofNat 32 (ofLe (atAdd.bytesAt 0x100 4))) = .alu .add 3 1 2 ∧
    ((after (.debugStep false 0 false) atAdd).thr 0).pc = 0x104 ∧ (after (.debugStep false 0 false) atAdd).reg 0 3 = 0x205 := by
  unfold State.CleanAt; decide +kernel
theorem witness_step_traps : (let s := (halted 4).modThr 4 fun h => { h with pc := 0x10000000 }
    s.refuses 4 0x10000000 4 .fetch true = some 4 ∧ ((after (.debugStep false 4 false) s).thr 4).st = .trapped) := by decide +kernel
theorem witness_late_step : (let s0 := (halted 4).arm .step 0
    let s := { s0 with dbg := { s0.dbg with late := some true } }
    s.isDue .step = true ∧ s.dbg.late = some true ∧ (after .debugStepPending s).dbg.seq = some (true, ⟨0, []⟩)) ∧ (dbg 4).isDue .step = false := by
  decide +kernel
/-- Thread 4, stepped, waits in a CHIN for a message on channel 40, which has come. -/
def steppedWait : State :=
  ((dbg 4).setChan 40 { Chan.init with msgs := [{ words := [7], hw := false }] }).modThr 4 fun h =>
    { h with st := .waitChannel, stepping := true, blocked := some (.chin 4 5 (ch 40)) }
theorem witness_step_complete : (steppedWait.thr 4).stepping = true ∧ (steppedWait.thr 4).waits = true ∧ steppedWait.domOn 154 = true ∧
    (match (steppedWait.wake 0 3).retry 4 with
     | some z => decide ((z.thr 4).st = .ready ∧ (z.thr 4).afterStep ≠ 2)
     | none => false) = true ∧ ((after (.debugStepComplete 4) steppedWait).thr 4).st = .halted ∧ (after (.debugStepComplete 4) steppedWait).reg 4 4 = 7 := by
  decide +kernel
theorem witness_reg_access : (dbg 4).covers (needBits 1 (vendorTarget 4)) = true ∧ (dbg 4).covers (needBits 10 (vendorTarget 4)) = true ∧
    (after (.debugRegRead false 4 2) (halted 4)).dbg.out = ⟨0, [0, 0x200]⟩ ∧ (after (.debugRegRead false 4 33) (halted 4)).dbg.out = ⟨3, []⟩ ∧
    (after (.debugRegRead false 4 32) (halted 4)).dbg.out = ⟨0, [0, 0x100]⟩ ∧ (after (.debugRegWrite false 4 31 9) (halted 4)).reg 4 31 = 9 ∧
    (after (.debugRegWrite false 4 32 2) (halted 4)).dbg.out = ⟨3, []⟩ ∧ ((after (.debugRegWrite false 4 32 0xFFFFFFFFFC) (halted 4)).thr 4).pc = 0xFFFFFFFFFC := by
  decide +kernel
theorem witness_watch : (after (.debugBreak false 2 0) (dbg 4)).dbg.out = ⟨3, []⟩ ∧ (after (.debugWatch false 0x1000 0xE0000010 12) (dbg 4)).dbg.wtcs.length = 1 ∧
    (after (.debugWatch false 0x800 0xE0000010 12) (dbg 4)).dbg.out = ⟨3, []⟩ ∧ (after (.debugWatch false 0 0 13) (dbg 4)).dbg.out = ⟨3, []⟩ := by decide +kernel
theorem test_freeze : (after (.debugFreeze false 0xF) (dbg 4)).fld R.DEBUG.STATUS.FREEZE = 15 := by decide +kernel
theorem witness_mem : (dbg 4).memBad 0x200 0 false = some 3 ∧ atAdd.memBad 0x100 2 false = none ∧ (atAdd.zone 0x100 matches .regs) = false ∧ atAdd.CleanAt 0x100 8 ∧
    (after (.debugMemRead false 0x100 2) atAdd).dbg.out = ⟨0, [addWord.toNat, 0]⟩ ∧ (dbg 4).memBad 0x200 1 true = none ∧
    (after (.debugMemWrite false 0x200 [0x01020304]) (dbg 4)).bytesAt 0x200 4 = [4, 3, 2, 1] ∧ (dbg 4).memBad 0x10020200 1 true = some 5 := by
  unfold State.CleanAt; decide +kernel
theorem witness_channel : (steppedWait.chan 41).owner = none ∧ (steppedWait.chan 41).reader = none ∧
    (let s := (halted 4).setChan 40 { Chan.init with owner := some (4, 0x80), part := [1] }
     s.mayAbandon 4 = true ∧ (after (.debugChAbandon false 40) s).fld R.SVC.CH_ABANDONS.COUNT = 1 ∧ (after (.debugChStatus false 40) s).dbg.out = ⟨0, [s.chPeek 40]⟩) ∧
    ((dbg 4).setChan 40 { Chan.init with owner := some (4, 0x80) }).mayAbandon 4 = false := by decide +kernel
theorem witness_svc_release : (dbg 4).on R.FAULT.STATE.SVC_HELD = false ∧ (after (.debugSvcRelease false) (dbg 4)).dbg.out = ⟨7, []⟩ ∧
    (let s := (dbg 4).setB R.FAULT.STATE.SVC_HELD true
     s.on R.FAULT.STATE.SVC_HELD = true ∧ (∀ n ∈ List.range 320, s.isSticky n = false ∧ s.isLatched n = false) ∧ s.svc.vendorUp = true ∧
       ({ s with svc := { s.svc with vendorUp := false } } : State).svc.vendorUp = false) := by decide +kernel

/-- The clauses of O56 (R450, R582). -/
theorem witness_complex_restart : (dbg 4).svc.vendorUp = true ∧ (dbg 4).svc.restarting = 0 ∧ (dbg 4).powered 154 = true ∧ (dbg 4).startRestart.svc.restarting = 1 ∧
    (after (.serviceRestart (.thread 0)) (dbg 4)).svc.restarting = 1 ∧ (after (.debugSvcRestart false) (dbg 4)).dbg.out = ⟨0, []⟩ ∧
    ((dbg 4).setB R.FAULT.STATE.SVC_HELD true).startRestart.svc.restarting = 0 := by decide +kernel
theorem witness_escalation : (let s := ((dbg 4).setBit (R.FAULT.STICKY_k.STICKY 7) 21 true).arm (.countdown 245) 0
    s.isDue (.countdown 245) = true ∧ s.isSticky 245 = true ∧ s.escOf 245 = 1 ∧ 245 ∉ s.col.escalated) ∧
    (let s : State := { dbg 4 with col := { (dbg 4).col with restartReq := true } }
     s.col.restartReq = true ∧ s.col.foldReq = false) := by decide +kernel
/-- A command at the front of the queue, and an idle step (O57, O58). -/
theorem witness_queue : (let s := { State.reset with pending := [Instr.debugAttach, .debugDetach] }
    s.pending = Instr.debugAttach :: [.debugDetach] ∧ (match step s with
      | .next u => decide (u.pending = [.debugDetach])
      | _ => false) = true) ∧ State.reset.pending = [] := by decide +kernel
/-- Elvon instructions at the ends of their fields (O59), and BCOPY g4, g5, g6 as its word 0xE0853000. -/
theorem witness_elvon : Elv.ok (.alu .add 31 31 31) = true ∧ Elv.decode (Elv.encode (.alu .add 31 31 31)) = .alu .add 31 31 31 := by decide +kernel

/-! ## Elvon words -/

/-- Words laid out by hand from the formats of R455 (BCOPY's is the spec's own example), one of each family. -/
def words : List (Word32 × Elv) := [
  (0xE0853000, .long .bcopy 4 5 6 0),
  (0x0461100B, .alu .mulhu 3 1 2),
  (0x0BFEFFFF, .imm .addi 31 30 0xFFFF),
  (0x18A600BF, .shifti .sra 5 6 63),
  (0x1CA08000, .lui 5 0x8000),
  (0x58A60008, .load 4 false 5 6 8),
  (0x6CA60008, .store 8 5 6 8),
  (0x94A6FFFE, .branch .geu 5 6 0xFFFE),
  (0x98BFFFFF, .jal 5 0x1FFFFF),
  (0x9CA60004, .jalr 5 6 4),
  (0xA0A6380D, .atomic .cas true 5 6 7),
  (0xC0A601FF, .chin 5 6 ⟨false, 0, 511⟩),
  (0xD0A09C00, .pout 5 ⟨true, 7, 0⟩),
  (0xC8000010, .chend ⟨false, 0, 16⟩),
  (0xF0221900, .long .tsearch 1 2 3 4),
  (0xF8000000, .await),
  (0xF8001004, .fence 4),
  (0xF8002ABC, .trap 0xABC),
  (0xF8093000, .sleep 9),
  (0xF9204000, .self 9)]
theorem test_words : ∀ e ∈ words, Elv.decode e.1 = e.2 := by decide +kernel
/-- Words that are no instruction: a reserved opcode, function code or 0 field. -/
theorem test_reserved : (([0x00000000, 0x04611010, 0x04611040, 0x0461100E, 0x1CA10000, 0x18A600C0, 0xA0A63806, 0xE0853001, 0xF8005000, 0xFC000000] : List Word32).all fun w => Elv.decode w == .reserved w) = true := by decide +kernel

/-! ## Well-formed commands -/

def th : Who := .thread 0
theorem test_wf_good : Instr.wf (.registerWrite th 0x10FFFFFC 0) = true ∧ Instr.wf (.junctionSample (List.replicate 9 20)) = true ∧
    Instr.wf (.headEnterFifo 0 0 (List.replicate 388 0)) = true ∧ Instr.wf (.uportWrite 0 7 [0x0100000000000000]) = true ∧
    Instr.wf (.debugMemWrite false 0 (List.replicate 64 0)) = true ∧ Instr.wf (.dramRequestComplete 5 0x1000000000 0) = true := by decide +kernel
theorem test_wf_register : Instr.wf (.registerWrite th 0x10000002 0) = false ∧ Instr.wf (.unmappedAccess th 0x11000000 none) = false ∧
    Instr.wf (.offDomainAccess th 0x0FFFFFFC none) = false ∧ Instr.wf (.counterLowRead th 0x10030101) = false := by decide +kernel
theorem test_wf_samples : Instr.wf (.junctionSample (List.replicate 8 20)) = false ∧ Instr.wf (.metronomeUpdate (List.replicate 15 0) (List.replicate 4 0)) = false ∧
    Instr.wf (.metronomeUpdate (List.replicate 16 0) (List.replicate 3 0)) = false ∧ Instr.wf (.vcoreRangeFault 1024) = false := by decide +kernel
theorem test_wf_pages : Instr.wf (.deckReadFrame 0 (List.replicate 4095 0) 0) = false ∧ Instr.wf (.deckIdentityCheck (some (List.replicate 4097 0))) = false := by
  decide +kernel
theorem test_wf_heads : Instr.wf (.headEnterFifo 0 0 []) = false ∧ Instr.wf (.headEnterFifo 0 0 (List.replicate 389 0)) = false ∧
    Instr.wf (.nelyanBlockReceive 0 (List.replicate 511 0)) = false := by decide +kernel
theorem test_wf_uport : ∀ c ∈ [Instr.uportWrite 0 0 [0x0200000000000000], .uportClear 0 0 [], .uportInsert 0 0 [0], .uportDelete 0 0 [0], .uportRead 0 0 [0],
    .uportSwap 0 0 [0], .uportFlush 0 0 [0], .uportBankClear 0 0 [0]], Instr.wf c = false := by decide +kernel
theorem test_wf_dram : Instr.wf (.dramRequestComplete 5 0xFFFFFFFFF 0) = false := by decide +kernel
theorem test_wf_services : Instr.wf (.inaugurationEnd [] 0 0) = false ∧ Instr.wf (.inaugurationEnd (List.replicate 5 (0, 0)) 0 1) = false ∧
    Instr.wf (.mkaSakDistribute 0 0 (List.replicate 8 (0, 0))) = false := by decide +kernel
theorem test_wf_debug : ∀ c ∈ [Instr.debugResponse false (List.replicate 107 0), .debugAttest false [], .debugRootKey false [], .debugBufRead false 2 1,
    .debugBufRead false 0 0, .debugBreak false 2 0, .debugMemRead false 0 0, .debugMemWrite false 0 [], .debugMemWrite false 0 (List.replicate 65 0)],
    Instr.wf c = false := by decide +kernel

end Sys2Proof.Tests
end

section
/-! SUPPORT. What starts a restart of the service complex (R450): the start itself and what keeps it from starting, the three commands that ask for it,
and the end of a command that has decided one. -/
namespace Sys2Proof.Machine

/-! ## The commands that ask for a restart -/

theorem exec_countdownExpiry (n : Fin 320) (s : State) : exec (.countdownExpiry n) s = .next (s.countdownEnd n.val).settle := rfl

theorem exec_serviceRestart (who : Who) (s : State) :
    exec (.serviceRestart who) s = .next (s.cmdWrite who (some 154) true 0x10300800 State.startRestart).settle := rfl

theorem exec_debugSvcRestart (q : Bool) (s : State) : exec (.debugSvcRestart q) s = .next (s.ask q (.bits 6) State.dbgRestart).settle := rfl

/-! ## The start of a restart (R450, R451) -/

theorem State.svcRuns_eq_true_iff (s : State) :
    s.svcRuns = true ↔ s.svc.vendorUp = true ∧ s.on R.FAULT.STATE.SVC_HELD = false := by
  simp [State.svcRuns]

/-- The stop of the complex is not looked into: whatever it leaves, the restart then stands at its first stage. -/
theorem State.restarting_startRestart {s : State} (hr : s.svcRuns = true) (h0 : s.svc.restarting = 0) :
    s.startRestart.svc.restarting = 1 := by
  simp only [State.startRestart, hr, h0, Bool.not_true, ne_eq, not_true_eq_false, decide_false, Bool.or_false, Bool.false_eq_true, if_false]

theorem State.startRestart_of_held {s : State} (h : s.on R.FAULT.STATE.SVC_HELD = true) : s.startRestart = s := by
  simp [State.startRestart, State.svcRuns, h]

/-! ## A countdown that runs out with ESC 1 (R414) -/

theorem State.restartReq_countdownEnd {s : State} {n : Nat} (hd : s.isDue (.countdown n) = true) (hs : s.isSticky n = true)
    (he : s.escOf n = 1) (hn : n ∉ s.col.escalated) : (s.countdownEnd n).col.restartReq = true := by
  simp [State.countdownEnd, hd, hs, he, hn]

/-! ## The end of a command that has decided a restart (R414, R416) -/

theorem State.foldNow_of_no_foldReq {s : State} (h : s.col.foldReq = false) : s.foldNow = s := by
  simp [State.foldNow, h]

theorem State.settle_of_restartReq {u w : State} (hr : u.col.restartReq = true) (hf : u.col.foldReq = false)
    (hw : w = ({ u with col := { u.col with restartReq := false } }).startRestart) (hwf : w.col.foldReq = false) :
    u.settle = { w with col := { w.col with restartReq := false } } := by
  subst hw
  simp only [State.settle, State.foldNow_of_no_foldReq hf, hr, if_true, State.foldNow_of_no_foldReq hwf]

/-! ## A write of a command register (R10, R564) -/

/-- A vendor's write of a command register in a powered domain carries the command out. -/
theorem State.cmdWrite_of_vendor {s : State} {who : Who} {d : Nat} (hw : who.vendor = true) (hp : s.powered d = true)
    (vend : Bool) (a : Nat) (f : State → State) : s.cmdWrite who (some d) vend a f = f s := by
  simp [State.cmdWrite, hw, hp]

/-! ## A request of the debug port (R569, R572) -/

@[simp] theorem State.reply_svc (s : State) (q : Bool) (r : Resp) : (s.reply q r).svc = s.svc := rfl
@[simp] theorem State.reply_out (s : State) (q : Bool) (r : Resp) : (s.reply q r).dbg.out = r := rfl
@[simp] theorem State.reply_seq (s : State) (q : Bool) (r : Resp) : (s.reply q r).dbg.seq = some (q, r) := rfl
@[simp] theorem State.reply_fld (s : State) (q : Bool) (r : Resp) (f : Fld) : (s.reply q r).fld f = s.fld f := rfl

theorem State.on_bump_ne (s : State) {f g : Fld} (h : g.key ≠ f.key) : (s.bump f).on g = s.on g :=
  State.on_set_ne _ _ h

theorem State.isClaimed_bump (s : State) (f : Fld) : (s.bump f).isClaimed = s.isClaimed := rfl

theorem State.unlocked_bump_packets (s : State) : (s.bump R.DEBUG.PACKETS.COUNT).unlocked = s.unlocked :=
  congrArg (fun v => decide (v = 1)) (s.fld_bump_ne (by decide))

theorem State.scopeBits_bump_packets (s : State) : (s.bump R.DEBUG.PACKETS.COUNT).scopeBits = s.scopeBits := by
  rw [State.scopeBits, State.isClaimed_bump, State.unlocked_bump_packets, s.fld_bump_ne (by decide), ← State.scopeBits]

/-- The count of packets changes no scope. -/
theorem State.covers_bump_packets (s : State) (n : Need) : (s.bump R.DEBUG.PACKETS.COUNT).covers n = s.covers n := by
  have ho : (s.bump R.DEBUG.PACKETS.COUNT).portOpen = s.portOpen := by
    rw [State.portOpen, State.isClaimed_bump, State.unlocked_bump_packets, ← State.portOpen]
  cases n with
  | any => rfl
  | opened => exact ho
  | bits m => simp only [State.covers, ho, State.scopeBits_bump_packets]

/-- A fresh request within the scope is counted and executed, and its answer stands stored. -/
theorem State.ask_of_fresh {s : State} {q : Bool} {n : Need} (hq : s.Fresh q) (hc : s.covers n = true) (f : State → State × Resp) :
    s.ask q n f = (f (s.bump R.DEBUG.PACKETS.COUNT)).1.reply q (f (s.bump R.DEBUG.PACKETS.COUNT)).2 := by
  obtain ⟨hup, hlate, hseq⟩ := hq
  have hnew : (s.dbg.seq.filter fun e => e.1 == q) = none := by
    simpa [Option.filter_eq_none_iff] using hseq
  simp [State.ask, State.request, hup, hlate, hnew, State.covers_bump_packets, hc]

/-- A fresh request within the scope whose execution leaves the module as it was answers, with nothing changed but the packet counted. -/
theorem State.answers_of_refusal {s : State} {c : Instr} {q : Bool} {n : Need} {f : State → State × Resp} {r : Resp}
    (hq : s.Fresh q) (hc : s.covers n = true) (he : exec c s = .next (s.ask q n f).settle)
    (hf : f (s.bump R.DEBUG.PACKETS.COUNT) = (s.bump R.DEBUG.PACKETS.COUNT, r)) :
    s.Answers c q r fun u => u.svc = s.svc := by
  refine ⟨(s.bump R.DEBUG.PACKETS.COUNT).reply q r, ?_, State.reply_out .., State.reply_seq .., ?_, State.reply_svc ..⟩
  · rw [he, State.ask_of_fresh hq hc, hf]
  · simp [State.Counts]

/-! ## SVC_RESTART (R582) -/

theorem State.dbgRestart_of_held {s : State} (h : s.on R.FAULT.STATE.SVC_HELD = true) : s.dbgRestart = (s, ⟨7, []⟩) := by
  simp [State.dbgRestart, h, rErr]

theorem State.dbgRestart_of_not_started {s : State} (h : s.on R.FAULT.STATE.SVC_HELD = false) (hv : s.svc.vendorUp = false) :
    s.dbgRestart = (s, ⟨0x0B, []⟩) := by
  simp [State.dbgRestart, h, hv, rErr]

theorem State.dbgRestart_of_svcRuns {s : State} (hr : s.svcRuns = true) : s.dbgRestart = (s.startRestart, ⟨0, []⟩) := by
  obtain ⟨hv, hh⟩ := s.svcRuns_eq_true_iff.mp hr
  simp [State.dbgRestart, hh, hv, rOk]

/-- SVC_RESTART starts a restart of a complex that runs and is in no restart. -/
theorem debugSvcRestart_starts {s : State} {q : Bool} (hq : s.Fresh q) (hc : s.covers (.bits 6) = true) (hr : s.svcRuns = true)
    (h0 : s.svc.restarting = 0) :
    s.RunsTo (.debugSvcRestart q) fun u => u.svc.restarting = 1 ∧ u.dbg.out = ⟨0, []⟩ ∧ u.dbg.seq = some (q, ⟨0, []⟩) := by
  have hb : (s.bump R.DEBUG.PACKETS.COUNT).svcRuns = true := by
    rw [State.svcRuns, s.on_bump_ne (by decide)]; exact hr
  refine ⟨(s.bump R.DEBUG.PACKETS.COUNT).startRestart.reply q ⟨0, []⟩, ?_, ?_, State.reply_out .., State.reply_seq ..⟩
  · rw [exec_debugSvcRestart, State.ask_of_fresh hq hc, State.dbgRestart_of_svcRuns hb]
  · rw [State.reply_svc, State.restarting_startRestart hb h0]

/-! ## What starts a restart -/

/-- Settles O56: each clause is the start of a restart, or what keeps it from starting, behind the command that asks for it. -/
theorem restartsStart : Obligations.RestartsStart := by
  unfold Obligations.RestartsStart
  intro q who n s hset held go
  have runs (hh : held = false) (hg : go) : s.svcRuns = true := s.svcRuns_eq_true_iff.mpr ⟨hg.1, hh⟩
  have bump_held : (s.bump R.DEBUG.PACKETS.COUNT).on R.FAULT.STATE.SVC_HELD = held := s.on_bump_ne (by decide)
  refine ⟨fun hh hg => State.restarting_startRestart (runs hh hg) hg.2, State.startRestart_of_held, ?_, ?_, ?_, ?_⟩
  · exact fun hd hs he hn => ⟨_, exec_countdownExpiry n s, State.restartReq_countdownEnd hd hs he hn⟩
  · exact fun u hr hf => ⟨_, rfl, State.settle_of_restartReq hr hf rfl⟩
  · intro hw hp
    have hx : exec (.serviceRestart who) s = .next s.startRestart.settle := by
      rw [exec_serviceRestart, State.cmdWrite_of_vendor hw hp]
    refine ⟨fun hh hg => ⟨_, hx, State.restarting_startRestart (runs hh hg) hg.2⟩, fun hh => ⟨s, ?_, rfl⟩⟩
    rw [hx, State.startRestart_of_held hh, State.settle_of_settled hset]
  · intro hq hc
    refine ⟨fun hh hg => debugSvcRestart_starts hq hc (runs hh hg) hg.2, fun hh => ?_, fun hh hv => ?_⟩
    · exact State.answers_of_refusal hq hc (exec_debugSvcRestart q s) (State.dbgRestart_of_held (bump_held.trans hh))
    · exact State.answers_of_refusal hq hc (exec_debugSvcRestart q s) (State.dbgRestart_of_not_started (bump_held.trans hh) hv)

end Sys2Proof.Machine
end

section
/-! SUPPORT. What a detected fault leaves unchanged (R407, R410, R476), and the accesses to a power domain that is OFF or SWITCHING (R564). -/
namespace Sys2Proof.Machine

/-! ## The registers of events -/

/-- A field of the registers in which the effects of a fault's class show: those of DEAL, of FAULT without `STICKY_k`, and of INTC. -/
abbrev Fld.OfEvents (f : Fld) : Prop :=
  (0x10010000 ≤ f.key / 32 ∧ f.key / 32 < 0x10020000) ∨
    (0x10050000 ≤ f.key / 32 ∧ f.key / 32 < 0x10070000 ∧ ¬ (0x10050100 ≤ f.key / 32 ∧ f.key / 32 < 0x10050128))

/-- From `s` to `u` the service complex, memory and every register field beside those of events stay as they were. -/
def State.EventFrame (s u : State) : Prop := u.svc = s.svc ∧ u.mem = s.mem ∧ ∀ f : Fld, ¬ f.OfEvents → u.fld f = s.fld f

theorem Fld.ofEvents_pend : ∀ k < 8, (R.INTC.PEND_SET_k.PEND k).OfEvents := by decide
theorem Fld.ofEvents_sleepDeferred : ∀ c < 4, (R.INTC.SLEEP_DEFERRED_c.COUNT c).OfEvents := by decide
theorem Fld.ofEvents_setCount : ∀ c < 4, (R.FAULT.SET_COUNT_c.COUNT c).OfEvents := by decide
theorem Fld.ofEvents_groupCount : ∀ k < 10, (R.FAULT.GROUP_COUNT_k.COUNT k).OfEvents := by decide
theorem Fld.ofEvents_running : ∀ k < 10, (R.FAULT.RUNNING_k.RUNNING k).OfEvents := by decide
theorem Fld.ofEvents_latched : ∀ k < 10, (R.FAULT.LATCHED_k.LATCHED k).OfEvents := by decide
theorem Fld.not_ofEvents_sticky : ∀ k < 10, ¬ (R.FAULT.STICKY_k.STICKY k).OfEvents := by decide

/-- The blocks behind TM lie above those of events (R588). -/
theorem Fld.not_ofEvents_of_le_key {f : Fld} (h : 32 * 0x10070000 ≤ f.key) : ¬ f.OfEvents := by
  simp only [Fld.OfEvents]; omega

/-! ## Each operation of a detector keeps the frame -/

namespace State.EventFrame

variable {s u : State}

theorem refl (s : State) : s.EventFrame s := ⟨rfl, rfl, fun _ _ => rfl⟩

theorem set (h : s.EventFrame u) {g : Fld} (hg : g.OfEvents) (v : Nat) : s.EventFrame (u.set g v) := by
  obtain ⟨hsvc, hmem, hfld⟩ := h
  refine ⟨hsvc, hmem, fun f hf => ?_⟩
  have hne : f.key ≠ g.key := fun he => hf (by rw [Fld.OfEvents, he]; exact hg)
  rw [State.fld_set_ne _ _ hne, hfld f hf]

theorem setB (h : s.EventFrame u) {g : Fld} (hg : g.OfEvents) (b : Bool) : s.EventFrame (u.setB g b) := h.set hg _

theorem bump (h : s.EventFrame u) {g : Fld} (hg : g.OfEvents) : s.EventFrame (u.bump g) := h.set hg _

theorem setBit (h : s.EventFrame u) {g : Fld} (hg : g.OfEvents) (j : Nat) (b : Bool) : s.EventFrame (u.setBit g j b) := by
  cases b <;> exact h.set hg _

theorem ite {p : Prop} [Decidable p] {v : State} (hu : s.EventFrame u) (hv : s.EventFrame v) : s.EventFrame (if p then u else v) := by
  split
  · exact hu
  · exact hv

theorem raise (h : s.EventFrame u) {n : Nat} (hn : n < 256) : s.EventFrame (u.raise n) := by
  have hcore : u.coreOf n < 4 := u.fld_lt _
  have hpend := h.setBit (Fld.ofEvents_pend (n / 32) (by omega)) (n % 32) true
  unfold State.raise
  exact ite (h.bump (by decide)) (ite (hpend.bump (Fld.ofEvents_sleepDeferred _ hcore)) hpend)

theorem deal (h : s.EventFrame u) (d : Deal) : s.EventFrame { u with deal := d } := h

theorem deck (h : s.EventFrame u) (d : Deck) : s.EventFrame { u with deck := d } := h

theorem journal (h : s.EventFrame u) (r : JRec) : s.EventFrame (u.journal r) := by
  have hqueued (q : List JRec) : s.EventFrame (({ u with deck := { u.deck with queue := q } } : State).set R.DEAL.JOURNAL.QUEUED q.length) :=
    (h.deck _).set (by decide) _
  unfold State.journal
  split
  · exact h
  · exact ite ((h.bump (by decide)).raise (by decide)) (ite ((hqueued _).raise (by decide)) (hqueued _))

theorem askFold (h : s.EventFrame u) : s.EventFrame u.askFold := h

theorem driveFaultN (h : s.EventFrame u) : s.EventFrame u.driveFaultN := h.setB (by decide) _

theorem holdSvc (h : s.EventFrame u) (n : Nat) : s.EventFrame (u.holdSvc n) := ite (h.setB (by decide) _) h

theorem arm (h : s.EventFrame u) (t : Tmr) (n : Nat) : s.EventFrame (u.arm t n) := h

theorem pulseTrigger (h : s.EventFrame u) : s.EventFrame u.pulseTrigger :=
  ite h (ite h ((h.setB (by decide) _).arm _ _).driveFaultN)

theorem startCountdown (h : s.EventFrame u) {n : Nat} (hn : n < 320) : s.EventFrame (u.startCountdown n) := by
  have hrun := h.setBit (Fld.ofEvents_running (n / 32) (by omega)) (n % 32) true
  exact ite hrun (hrun.arm _ _)

end State.EventFrame

/-! ## A detected fault (R407, R410) -/

/-- A field of `FAULT.CFG_k` in force lies within a bound that its width and its default keep. -/
theorem State.cfgFld_lt (s : State) {f : Fld} {b : Nat} (hw : 2 ^ f.width ≤ b) (hr : f.reset < b) : s.cfgFld f < b := by
  unfold State.cfgFld
  split
  · exact Nat.lt_of_lt_of_le (s.fld_lt f) hw
  · exact hr

theorem ite_lt {p : Prop} [Decidable p] {a b c : Nat} (ha : a < c) (hb : b < c) : (if p then a else b) < c := by
  split
  · exact ha
  · exact hb

theorem rstClass_lt (n : Nat) : rstClass n < 4 :=
  ite_lt (by decide) (ite_lt (by decide) (ite_lt (by decide) (by decide)))

theorem State.classOf_lt (s : State) (n : Nat) : s.classOf n < 4 :=
  ite_lt (ite_lt (by decide) (by decide)) (ite_lt (rstClass_lt n) (s.cfgFld_lt (Nat.le_refl 4) (rstClass_lt _)))

theorem State.evCore_lt (s : State) (n : Nat) : s.evCore n < 4 := s.cfgFld_lt (Nat.le_refl 4) (Nat.zero_lt_succ 3)

/-- A bit that is already set stays set, and nothing else follows (R407). -/
theorem State.detect_of_isSticky {s : State} {n : Nat} (hs : s.isSticky n = true) : s.detect n = s := if_pos hs

/-- Once the sticky bit of a source is set, what its class does shows in the registers of events only. -/
theorem State.eventFrame_detect {s : State} {n : Nat} (hn : n < 320) (hs : s.isSticky n = false) :
    (s.setBit (R.FAULT.STICKY_k.STICKY (n / 32)) (n % 32) true).EventFrame (s.detect n) := by
  have hgroup : n / 32 < 10 := by omega
  have hcore := s.evCore_lt n
  unfold State.detect
  rw [if_neg (Bool.eq_false_iff.mp hs)]
  extract_lets c counted deal noted pulsed handled held latched grave
  have hcounted : State.EventFrame _ counted :=
    ((State.EventFrame.refl _).bump (Fld.ofEvents_setCount c (s.classOf_lt n))).bump (Fld.ofEvents_groupCount _ hgroup)
  have hnoted : State.EventFrame _ noted := hcounted.deal _
  have hpulsed : State.EventFrame _ pulsed := hnoted.pulseTrigger
  have hhandled : State.EventFrame _ handled := hpulsed.raise (by omega)
  have hheld : State.EventFrame _ held := hpulsed.holdSvc n
  have hlatched : State.EventFrame _ latched := hheld.setBit (Fld.ofEvents_latched _ hgroup) _ _
  have hgrave : State.EventFrame _ grave := .ite hlatched ((hlatched.setB (by decide) _).raise (by decide))
  clear_value noted pulsed handled held latched grave
  refine .ite ?notice (.ite ?handled (.ite ?grave ?fold))
  case notice => exact hnoted.raise (by decide)
  case handled => exact (State.EventFrame.ite (State.EventFrame.ite hhandled (hhandled.bump (by decide))).askFold
    (hhandled.startCountdown hn)).driveFaultN
  case grave => exact (hgrave.journal _).askFold.driveFaultN
  case fold => exact hheld.askFold.driveFaultN

/-- A detected source stands sticky, whether its bit was set before or is set now. -/
theorem State.isSticky_detect (s : State) {n : Nat} (hn : n < 320) : (s.detect n).isSticky n = true := by
  cases hs : s.isSticky n with
  | true => rw [State.detect_of_isSticky hs, hs]
  | false =>
    obtain ⟨-, -, hfld⟩ := State.eventFrame_detect hn hs
    rw [State.isSticky, State.bit, hfld _ (Fld.not_ofEvents_sticky _ (by omega))]
    exact State.bit_setBit_true _ _ (Nat.mod_lt n (by decide))

theorem State.svc_detect (s : State) {n : Nat} (hn : n < 320) : (s.detect n).svc = s.svc := by
  cases hs : s.isSticky n with
  | true => rw [State.detect_of_isSticky hs]
  | false =>
    obtain ⟨hsvc, -, -⟩ := State.eventFrame_detect hn hs
    rw [hsvc, State.setBit_svc]

theorem State.mem_detect (s : State) {n : Nat} (hn : n < 320) : (s.detect n).mem = s.mem := by
  cases hs : s.isSticky n with
  | true => rw [State.detect_of_isSticky hs]
  | false =>
    obtain ⟨-, hmem, -⟩ := State.eventFrame_detect hn hs
    rw [hmem, State.setBit_mem]

theorem State.fld_detect (s : State) {n : Nat} (hn : n < 320) {f : Fld} (hf : ¬ f.OfEvents)
    (hne : f.key ≠ (R.FAULT.STICKY_k.STICKY (n / 32)).key) : (s.detect n).fld f = s.fld f := by
  cases hs : s.isSticky n with
  | true => rw [State.detect_of_isSticky hs]
  | false =>
    obtain ⟨-, -, hfld⟩ := State.eventFrame_detect hn hs
    rw [hfld f hf, State.fld_setBit_ne _ _ _ hne]

/-! ## Where an access to a powered-off domain goes (R564, R592) -/

/-- The blocks with a power domain for each instance (R556). -/
def domainBlks : List Blk := [.port, .lane, .nlink, .pipe, .svc, .dram]

theorem RegPlace.blk_mem_of_dom {p : RegPlace} {d : Nat} (h : p.dom = some d) : p.blk ∈ domainBlks := by
  unfold RegPlace.dom at h
  cases hb : p.blk <;> simp only [hb, reduceCtorEq] at h <;> decide

theorem RegPlace.dom_svc {p : RegPlace} (h : p.blk = .svc) : p.dom = some (154 + p.inst) := by simp only [RegPlace.dom, h]

/-- A register of a power domain lies above every register of events (R588). -/
theorem le_of_regPlace_dom {a : Nat} {p : RegPlace} {d : Nat} (hp : regPlace a = some p) (hd : p.dom = some d) : 0x10200000 ≤ a := by
  unfold regPlace at hp
  split at hp
  case h_1 r hr =>
    have hbase : ∀ r ∈ blkRows, r.blk ∈ domainBlks → 0x10200000 ≤ r.base := by decide
    obtain rfl := Option.some.inj hp
    have hin : r.base ≤ a ∧ a < r.base + r.count * r.stride := of_decide_eq_true (List.find?_some hr :)
    exact Nat.le_trans (hbase r (List.mem_of_find?_eq_some hr) (RegPlace.blk_mem_of_dom hd)) hin.1
  case h_2 => cases hp

section
variable {s : State} {a d : Nat} {p : RegPlace} (hp : regPlace a = some p) (hd : p.dom = some d) (hoff : s.powered d = false)
include hp hd hoff

theorem State.regAcc_of_off : s.regAcc a = .off := by
  simp only [State.regAcc, hp, hd, hoff, Bool.not_false, if_true]

/-- An access to `SVC[c]` in a domain that is off wakes no core. -/
theorem State.touch_of_off : s.touch a = s := by
  have hasleep : ¬ (p.blk = .svc ∧ s.powered (154 + p.inst) = true) := fun ⟨hb, hon⟩ => by
    obtain rfl := Option.some.inj (hd.symm.trans (RegPlace.dom_svc hb))
    exact Bool.false_ne_true (hoff.symm.trans hon)
  simp only [State.touch, hp, if_neg hasleep]

theorem State.regRead_of_off (who : Who) : s.regRead who a = (s.offAccess a, 0xDEAD0FF0, false) := by
  simp only [State.regRead, State.touch_of_off hp hd hoff, State.regAcc_of_off hp hd hoff]

theorem State.regWrite_of_off (who : Who) (v : Nat) : s.regWrite who a v = (s.offAccess a, false) := by
  simp only [State.regWrite, State.touch_of_off hp hd hoff, State.regAcc_of_off hp hd hoff]

end

theorem exec_offDomainAccess (who : Who) (a : BitVec 32) (v : Option (BitVec 32)) (s : State) :
    exec (.offDomainAccess who a v) s = execOffDomainAccess who a v s := rfl

/-- Neither a read nor a write traps: both end in the access recorded. -/
theorem exec_offDomainAccess_of_off {s : State} {a : BitVec 32} {d : Nat} {p : RegPlace} (hp : regPlace a.toNat = some p)
    (hd : p.dom = some d) (hoff : s.powered d = false) (ha : regAddr a = true) (who : Who) (v : Option (BitVec 32)) :
    exec (.offDomainAccess who a v) s = .next (s.offAccess a.toNat).settle := by
  simp only [exec_offDomainAccess, execOffDomainAccess, State.regAcc_of_off hp hd hoff, ha, if_true]
  cases v with
  | none => simp only [State.busRead, State.regRead_of_off hp hd hoff, fin]
  | some x => simp only [State.busWrite, State.regWrite_of_off hp hd hoff, fin]

/-! ## What the access records (R564) -/

theorem State.isSticky_offAccess (s : State) (a : Nat) : (s.offAccess a).isSticky 36 = true :=
  State.isSticky_detect _ (by decide)

theorem State.svc_offAccess (s : State) (a : Nat) : (s.offAccess a).svc = s.svc :=
  State.svc_detect _ (by decide)

theorem State.mem_offAccess (s : State) (a : Nat) : (s.offAccess a).mem = s.mem :=
  State.mem_detect _ (by decide)

theorem State.counts_offAccess (s : State) (a : Nat) : s.Counts (s.offAccess a) R.POWER.OFF_ACCESS.COUNT 1 := by
  rw [State.Counts, State.offAccess, State.fld_detect _ (by decide) (by decide) (by decide), State.fld_set_ne _ _ (by decide),
    State.fld_set_ne _ _ (by decide), State.fld_bump]

theorem State.offAddrLo_offAccess (s : State) (a : Nat) : (s.offAccess a).fld R.POWER.OFF_ADDR_LO.ADDR = a % 2 ^ 32 := by
  rw [State.offAccess, State.fld_detect _ (by decide) (by decide) (by decide), State.fld_set_ne _ _ (by decide), State.fld_set]
  exact Nat.mod_mod ..

theorem State.offAddrHi_offAccess (s : State) (a : Nat) : (s.offAccess a).fld R.POWER.OFF_ADDR_HI.ADDR = a / 2 ^ 32 % 2 ^ 8 := by
  rw [State.offAccess, State.fld_detect _ (by decide) (by decide) (by decide), State.fld_set]
  rfl

/-- A register above those of events keeps its fields. -/
theorem State.fld_offAccess_of_le_key (s : State) (a : Nat) {f : Fld} (h : 32 * 0x10070000 ≤ f.key) :
    (s.offAccess a).fld f = s.fld f := by
  have hne {g : Fld} (hg : g.key < 32 * 0x10070000) : f.key ≠ g.key := by omega
  rw [State.offAccess, State.fld_detect _ (by decide) (Fld.not_ofEvents_of_le_key h) (hne (by decide)),
    State.fld_set_ne _ _ (hne (by decide)), State.fld_set_ne _ _ (hne (by decide)), State.fld_bump_ne _ (hne (by decide))]

theorem State.powered_eq_false {s : State} {d : Nat} (h : s.domState d = 0 ∨ s.domState d = 3) : s.powered d = false := by
  rw [State.powered, decide_eq_false_iff_not]; omega

/-- Settles O30: the access ends in its record, and what F036 does then lies in the registers of events, which no power domain holds. -/
theorem offDomainAccessesComplete : Obligations.OffDomainAccessesComplete := by
  unfold Obligations.OffDomainAccessesComplete
  intro who a v s _ ha p d hp hd hst
  have hoff := State.powered_eq_false hst
  have hlo := s.offAddrLo_offAccess a.toNat
  have hhi := s.offAddrHi_offAccess a.toNat
  rw [Nat.mod_eq_of_lt a.isLt] at hlo
  rw [Nat.div_eq_of_lt a.isLt] at hhi
  refine ⟨⟨_, exec_offDomainAccess_of_off hp hd hoff ha who v, s.isSticky_offAccess _, s.counts_offAccess _, hlo, hhi,
    s.svc_offAccess _, s.mem_offAccess _, fun f hf _ => s.fld_offAccess_of_le_key _ ?_⟩, by rw [State.regRead_of_off hp hd hoff]⟩
  have hle := le_of_regPlace_dom hp hd
  rw [Fld.key, hf]; omega

end Sys2Proof.Machine
end

section
/-! SUPPORT. Requests of the debug port that execute nothing (R568, R569, R571, R572): before the Dealer, while a response is late, with the SEQ of the
last request, beyond the scope, with a failed CRC, or with a reserved opcode or COUNT. -/
namespace Sys2Proof.Machine

/-! ## Frames of register fields -/

namespace State.OnlyRegs

variable {s u : State} {l : List Fld}

theorem refl (s : State) (l : List Fld) : s.OnlyRegs s l := ⟨fun _ _ => rfl, rfl⟩

theorem set (h : s.OnlyRegs u l) {g : Fld} (hg : g ∈ l) (v : Nat) : s.OnlyRegs (u.set g v) l := by
  obtain ⟨hfld, hu⟩ := h
  refine ⟨fun f hf => ?_, ?_⟩
  · have hne : f.key ≠ g.key := fun he => hf (he ▸ List.mem_map_of_mem hg)
    rw [State.fld_set_ne _ _ hne, hfld f hf]
  · rw [State.set, hu]

theorem setB (h : s.OnlyRegs u l) {g : Fld} (hg : g ∈ l) (b : Bool) : s.OnlyRegs (u.setB g b) l := h.set hg _

theorem bump (h : s.OnlyRegs u l) {g : Fld} (hg : g ∈ l) : s.OnlyRegs (u.bump g) l := h.set hg _

end State.OnlyRegs

/-! ## The end of a command that decides neither a Fold nor a restart -/

theorem State.Settled.exec_eq_next {s u : State} {c : Instr} (hs : s.Settled) (h : exec c s = .next u.settle) (hc : u.col = s.col) :
    exec c s = .next u := by
  rw [h, State.settle_of_settled (hs.of_col hc)]

/-! ## What a request that is not executed does (R569, R572) -/

theorem State.request_of_silent {s : State} (h : s.portUp = false ∨ s.dbg.late ≠ none) (q : Bool) (n : Need)
    (f : State → State × Option Resp) : s.request q n f = s := by
  rcases h with hdown | hlate
  · simp [State.request, hdown]
  · simp [State.request, Option.isSome_iff_ne_none.mpr hlate]

theorem State.request_of_repeat {s : State} {q : Bool} {r : Resp} (hup : s.portUp = true) (hlate : s.dbg.late = none)
    (hseq : s.dbg.seq = some (q, r)) (n : Need) (f : State → State × Option Resp) :
    s.request q n f = { s with dbg := { s.dbg with out := r } } := by
  have hstored : (s.dbg.seq.filter fun e => e.1 == q) = some (q, r) := by simp [hseq]
  simp only [State.request, hup, hlate, hstored, Bool.not_true, Option.isSome_none, Bool.or_self, Bool.false_eq_true, if_false]

theorem State.request_of_locked {s : State} {q : Bool} {n : Need} (hq : s.Fresh q) (hc : s.covers n = false)
    (f : State → State × Option Resp) :
    s.request q n f = ((s.bump R.DEBUG.PACKETS.COUNT).bump R.DEBUG.LOCKED_REFUSALS.COUNT).reply q ⟨4, []⟩ := by
  obtain ⟨hup, hlate, hseq⟩ := hq
  have hnew : (s.dbg.seq.filter fun e => e.1 == q) = none := by
    simpa [Option.filter_eq_none_iff] using hseq
  simp [State.request, hup, hlate, hnew, State.covers_bump_packets, hc, rErr]

/-! ## The commands of the port -/

theorem State.not_fresh_of_silent {s : State} (h : s.portUp = false ∨ s.dbg.late ≠ none) (q : Bool) : ¬ s.Fresh q := by
  rintro ⟨hup, hlate, -⟩
  rcases h with hdown | hne
  · exact Bool.false_ne_true (hdown.symm.trans hup)
  · exact hne hlate

theorem State.not_fresh_of_repeat {s : State} {q : Bool} {r : Resp} (h : s.dbg.seq = some (q, r)) : ¬ s.Fresh q :=
  fun ⟨_, _, hseq⟩ => hseq _ h rfl

/-- Unless it is new and within the scope, command `c` ends as a request of SEQ `q` and scope `n` does. -/
def State.Gated (s : State) (c : Instr) (q : Bool) (n : Need) : Prop :=
  ¬ (s.Fresh q ∧ s.covers n = true) → ∃ f, exec c s = .next (s.request q n f).settle

theorem State.gated_of_exec {s : State} {c : Instr} {q : Bool} {n : Need} {f : State → State × Option Resp}
    (h : exec c s = .next (s.request q n f).settle) : s.Gated c q n := fun _ => ⟨f, h⟩

/-- RELOCK has a path of its own only where it is carried out (R584). -/
theorem State.relockReq_of_not_carried_out {s : State} {q : Bool} (h : ¬ (s.Fresh q ∧ s.portOpen = true)) :
    s.relockReq q = s.ask q .opened fun s => (s, rOk) := by
  refine if_neg fun hgo => h ?_
  simp only [Bool.and_eq_true, Bool.not_eq_true', Option.isNone_iff_eq_none] at hgo
  obtain ⟨⟨⟨hup, hlate⟩, hnew⟩, hopen⟩ := hgo
  refine ⟨⟨hup, hlate, fun e he => ?_⟩, hopen⟩
  simpa [he] using hnew

theorem State.gated_debugRelock (s : State) (q : Bool) : s.Gated (.debugRelock q) q .opened := fun h =>
  ⟨_, congrArg fin (State.relockReq_of_not_carried_out h)⟩

namespace State.Gated

variable {s : State} {c : Instr} {q : Bool} {n : Need}

theorem runs_of_silent (hg : s.Gated c q n) (hs : s.Settled) (h : s.portUp = false ∨ s.dbg.late ≠ none) : s.Runs c fun u => u = s := by
  obtain ⟨f, hf⟩ := hg fun hq => State.not_fresh_of_silent h q hq.1
  rw [State.request_of_silent h] at hf
  exact ⟨s, hs.exec_eq_next hf rfl, rfl⟩

theorem runs_of_repeat {r : Resp} (hg : s.Gated c q n) (hs : s.Settled) (hup : s.portUp = true) (hlate : s.dbg.late = none)
    (hseq : s.dbg.seq = some (q, r)) : s.Runs c fun u => u = { s with dbg := { s.dbg with out := r } } := by
  obtain ⟨f, hf⟩ := hg fun hq => State.not_fresh_of_repeat hseq hq.1
  rw [State.request_of_repeat hup hlate hseq] at hf
  exact ⟨_, hs.exec_eq_next hf rfl, rfl⟩

theorem answers_locked (hg : s.Gated c q n) (hq : s.Fresh q) (hc : s.covers n = false) :
    s.Answers c q ⟨4, []⟩ fun u => s.Counts u R.DEBUG.LOCKED_REFUSALS.COUNT 1 ∧
      s.OnlyRegs { u with dbg := s.dbg } [R.DEBUG.PACKETS.COUNT, R.DEBUG.LOCKED_REFUSALS.COUNT] := by
  obtain ⟨f, hf⟩ := hg fun h => Bool.false_ne_true (hc.symm.trans h.2)
  rw [State.request_of_locked hq hc] at hf
  refine ⟨_, hf, State.reply_out .., State.reply_seq .., ?_, ?_, ((State.OnlyRegs.refl s _).bump (.head _)).bump (.tail _ (.head _))⟩
  · rw [State.Counts, State.reply_fld, State.fld_bump_ne _ (by decide), State.fld_bump]
  · rw [State.Counts, State.reply_fld, State.fld_bump, State.fld_bump_ne _ (by decide)]

end State.Gated

/-! ## Packets as they stand on the wire (R568, R569) -/

/-- The opcodes of R571. -/
abbrev debugOpcodes : List Nat :=
  [1, 2, 3, 4, 5, 6, 7, 0x10, 0x11, 0x12, 0x14, 0x15, 0x18, 0x19, 0x1A, 0x20, 0x21, 0x22, 0x23, 0x24, 0x25]

theorem exec_debugBadPacket (l : List Byte) (s : State) : exec (.debugBadPacket l) s = .next (s.rawPacket l).settle := rfl

theorem State.rawPacket_of_silent {s : State} {l : List Byte} (h : s.portUp = false ∨ l.length < 8) : s.rawPacket l = s := by
  rcases h with hdown | hshort
  · simp [State.rawPacket, hdown]
  · simp [State.rawPacket, hshort]

section
variable {s : State} {l : List Byte} (hlen : 8 ≤ l.length) (hup : s.portUp = true) (hlate : s.dbg.late = none)
include hlen hup hlate

theorem State.rawPacket_of_crc_ne (hcrc : (l.getLastD 0).toNat ≠ crc8 l.dropLast) :
    s.rawPacket l = { (s.bump R.DEBUG.CRC_ERRORS.COUNT).setB R.DEBUG.STICKY.CRC_ERR_SEEN true with dbg := { s.dbg with out := ⟨1, []⟩ } } := by
  simp only [State.rawPacket, hup, hlate, Nat.not_lt.mpr hlen, hcrc, rErr, Bool.not_true, Option.isSome_none, decide_false,
    Bool.or_self, Bool.false_eq_true, ne_eq, not_false_eq_true, if_true, if_false, State.setB_dbg, State.bump_dbg]

theorem State.rawPacket_of_reserved (hcrc : (l.getLastD 0).toNat = crc8 l.dropLast)
    (hbad : (l.headD 0).toNat % 128 ∉ debugOpcodes ∨ 64 < (l.getD 1 0).toNat) :
    s.rawPacket l = s.ask (bitOf (l.headD 0).toNat 7) .any fun s => (s, ⟨2, []⟩) := by
  have hknown : (decide ((l.headD 0).toNat % 128 ∈ debugOpcodes) && decide ((l.getD 1 0).toNat ≤ 64)) = false := by
    rcases hbad with hop | hcount
    · rw [decide_eq_false hop, Bool.false_and]
    · rw [decide_eq_false (Nat.not_le.mpr hcount), Bool.and_false]
  simp only [State.rawPacket, hup, hlate, Nat.not_lt.mpr hlen, hcrc, hknown, rErr, Bool.not_true, Option.isSome_none, decide_false,
    Bool.or_self, Bool.false_eq_true, ne_eq, not_true_eq_false, if_false]

/-- A failed CRC is counted, leaves its mark and is answered CRC_ERR; the SEQ record stands. -/
theorem State.badPacket_crcErr (hs : s.Settled) (hcrc : (l.getLastD 0).toNat ≠ crc8 l.dropLast) :
    s.Runs (.debugBadPacket l) fun u => s.Counts u R.DEBUG.CRC_ERRORS.COUNT 1 ∧ u.on R.DEBUG.STICKY.CRC_ERR_SEEN = true ∧
      u.dbg = { s.dbg with out := ⟨1, []⟩ } ∧
      s.OnlyRegs { u with dbg := s.dbg } [R.DEBUG.CRC_ERRORS.COUNT, R.DEBUG.STICKY.CRC_ERR_SEEN] := by
  have he := exec_debugBadPacket l s
  rw [State.rawPacket_of_crc_ne hlen hup hlate hcrc] at he
  have hcount : s.Counts ((s.bump R.DEBUG.CRC_ERRORS.COUNT).setB R.DEBUG.STICKY.CRC_ERR_SEEN true) R.DEBUG.CRC_ERRORS.COUNT 1 := by
    rw [State.Counts, State.fld_setB_ne _ _ (by decide), State.fld_bump]
  exact ⟨_, hs.exec_eq_next he rfl, hcount, State.on_setB _ _ true (by decide), rfl,
    ((State.OnlyRegs.refl s _).bump (.head _)).setB (.tail _ (.head _)) true⟩

end

/-- A new request with a reserved opcode or COUNT is counted and answered BAD_CMD. -/
theorem State.answers_badCmd {s : State} {c : Instr} {q : Bool} (hq : s.Fresh q)
    (he : exec c s = .next (s.ask q .any fun s => (s, ⟨2, []⟩)).settle) :
    s.Answers c q ⟨2, []⟩ fun u => s.OnlyRegs { u with dbg := s.dbg } [R.DEBUG.PACKETS.COUNT] := by
  rw [State.ask_of_fresh hq rfl] at he
  exact ⟨_, he, State.reply_out .., State.reply_seq .., State.fld_bump .., (State.OnlyRegs.refl s _).bump (.head _)⟩

/-! ## The rules of packets -/

/-- Settles O53: each command of the port is gated as a request, and a packet with a sound CRC and a reserved opcode or COUNT is a request. -/
theorem debugPacketRules : Obligations.DebugPacketRules := by
  unfold Obligations.DebugPacketRules
  intro q v reg bytes o k chunk x w y mask words ch s hs
  refine ⟨fun c need hmem => ?_, fun hlen hup hlate => ⟨State.badPacket_crcErr hlen hup hlate hs, fun hcrc hbad => ?_⟩, fun h => ?_⟩
  · have hg : s.Gated c q need := by
      -- row by row of R571; only RELOCK has a path of its own
      revert hmem
      suffices h : ∀ e : Instr × Need, e ∈ _ → s.Gated e.1 q e.2 from h (c, need)
      simp only [List.forall_mem_cons]
      have asks {c n f} := @State.gated_of_exec s c q n f
      exact ⟨asks rfl, asks rfl, asks rfl, asks rfl, asks rfl, s.gated_debugRelock q, asks rfl, asks rfl, asks rfl, asks rfl, asks rfl,
        asks rfl, asks rfl, asks rfl, asks rfl, asks rfl, asks rfl, asks rfl, asks rfl, asks rfl, asks rfl, nofun⟩
    exact ⟨hg.runs_of_silent hs, fun r => hg.runs_of_repeat hs, hg.answers_locked⟩
  · have he := exec_debugBadPacket bytes s
    rw [State.rawPacket_of_reserved hlen hup hlate hcrc hbad] at he
    exact ⟨fun hq => State.answers_badCmd hq he, fun r hseq => (State.gated_of_exec he).runs_of_repeat hs hup hlate hseq⟩
  · exact ⟨s, by rw [exec_debugBadPacket, State.rawPacket_of_silent h, State.settle_of_settled hs], rfl⟩

end Sys2Proof.Machine
end
